-- ==== Sys2Proof/Word.lean ====
section
/-!
DEFINITION. Word.lean: the byte, the sparse map by number, and the plainest arithmetic on counts.
Counts that saturate or wrap are `Nat` with the bound applied where they change; registers the spec treats as
bits are `BitVec`.
-/
namespace Sys2Proof

/-- A byte. -/
abbrev Byte := BitVec 8

/-- Sparse data by number: pairs in rising order of their key; an absent key reads as the default its reader names. -/
abbrev SMap (α : Type) := List (Nat × α)

/-- Addition that stops at a counter's greatest value. -/
def satAdd (top a b : Nat) : Nat := if top ≤ a + b then top else a + b

/-- The greatest value of a 32-bit counter. -/
def max32 : Nat := 0xFFFFFFFF

/-- The greatest value of a 16-bit counter. -/
def max16 : Nat := 0xFFFF

end Sys2Proof
end

