-- ==== Sys2Proof/Syntax.lean ====
section
/-!
DEFINITION. Syntax.lean: the commands of the package, one constructor per row of the table of steps, and the forms of
their operands.
-/
namespace Sys2Proof

/-- What a mailbox command's arrival brings with it (log 10): the mailbox; on the management port the 64-byte slot; the
payload bytes that come from host memory or follow the slot; whether the payload's fetch and the response's return
succeed (13 R340); whether a unit the command needs has failed (HW_FAULT, Table 13-7). -/
structure MbxArgs where
  mb : Nat
  slot : Nat := 0
  data : List Byte := []
  fetchOk : Bool := true
  returnOk : Bool := true
  hwFault : Bool := false
  deriving DecidableEq, Repr

/-- Symbols of a stack's line that arrive with a wrong value (07 R167): line number SA div 128, symbols 0 to 71. -/
structure LineErr where
  stack : Nat
  line : Nat
  syms : List Nat
  deriving DecidableEq, Repr

/-- What the memories give to the reads of one command (log 8): wrong symbols of stack lines, and Cellar sectors, as
(partition, global sector), whose record or tag fails its check (07 R188). -/
structure MemIn where
  errs : List LineErr := []
  badSectors : List (Nat × Nat) := []
  deriving DecidableEq, Repr

/-- What a scratchpad gives to the reads of one command (log 8, 04 R117): single-bit errors corrected, and the 8-byte words
(offset div 8) found uncorrectable. -/
structure SpadIn where
  corrected : Nat := 0
  bad : List Nat := []
  deriving DecidableEq, Repr

/-- What a RoCE frame carries (12 R314, R318): one message of the reliable connected transport, or an answer to one. -/
inductive RoceMsg where
  | send (imm : Option Nat) (data : List Byte)
  | write (imm : Option Nat) (va key : Nat) (data : List Byte)
  | read (va key len : Nat)
  /-- an operation that R314 calls absent -/
  | absent
  | ack
  /-- 0 PSN sequence error, 1 invalid request, 2 remote access, 3 remote operational -/
  | nak (code : Nat)
  /-- receiver not ready, with its timer in ns -/
  | rnr (ns : Nat)
  | readResp (data : List Byte)
  | cnp
  deriving DecidableEq, Repr

/-- A frame received on an Ethernet port (12 R314). -/
inductive EthFrame where
  | arp (addr : Nat)
  | solicit (addr : Nat)
  /-- to a QP; whether it is CE-marked; PSN; bytes it takes of the receive buffer -/
  | roce (qpn : Nat) (ce : Bool) (psn bytes : Nat) (msg : RoceMsg)
  | other
  deriving DecidableEq, Repr

/-- What memory training gives one lane of a stack (18 R429): pseudo-channel * 36 + lane, read delay, shadow offset, and its
mark (0 none, 1 by count, 2 by eye). -/
structure LaneTrain where
  stack : Nat
  lane : Nat
  delay : Nat
  offset : Nat
  marked : Nat
  deriving DecidableEq, Repr

/-- The register or CSR that a read with a clear (00 R11 RC) reaches: function and BAR0 offset, 64 bits wide or 32; or the
SPAD_ECC of a core. -/
inductive RcTarget where
  | bar0 (f off : Nat) (wide : Bool)
  | spadEcc (core : Nat)
  deriving DecidableEq, Repr

/-- A write to a register or CSR with no row of its own. -/
inductive RegTarget where
  /-- function, BAR0 offset, data, 64 bits wide or 32 -/
  | bar0 (f off data : Nat) (wide : Bool)
  /-- function, offset in the mailbox window, bytes; whether it came within an IDE stream -/
  | bar2 (f off : Nat) (data : List Byte) (inStream : Bool)
  /-- core, CSR number, value -/
  | csr (core addr value : Nat)
  deriving DecidableEq, Repr

/-- The commands: one constructor per row of the table of steps. `t` is the AON time, in ns since
power-up, at which the step comes about (log 1). -/
inductive Instr where
  /-- POWER_UP, R416. -/
  | powerUp (t : Nat)
  /-- COLD_RESET, R416. -/
  | coldReset (t : Nat) (level : Bool) (cycles : Nat)
  /-- PIN_FILTER_CHANGE, R350. -/
  | pinFilterChange (t : Nat) (pin : Nat) (level : Bool) (cycles : Nat)
  /-- BRINGUP_S0, R421. -/
  | bringupS0 (t : Nat) (strap : Nat) (fuseOk : Bool) (dvUv bankMv : Nat)
  /-- BRINGUP_S1, R424. -/
  | bringupS1 (t : Nat) (failA failB : Option Nat)
  /-- BRINGUP_S2, R322. -/
  | bringupS2 (t : Nat) (passA : Bool) (failA : Nat) (passB : Bool) (failB bankMv : Nat)
  /-- BRINGUP_S3, R426. -/
  | bringupS3 (t : Nat) (d2d stk : Nat)
  /-- BRINGUP_S4, R427. -/
  | bringupS4 (t : Nat) (bist trims : List Nat)
  /-- BRINGUP_S5, R428. -/
  | bringupS5 (t : Nat) (retries : Nat) (tiles glns : List Nat) (other : Bool)
  /-- BRINGUP_S6, R429. -/
  | bringupS6 (t : Nat) (lanes : List LaneTrain) (degraded : List (Nat × Nat)) (peaks : List Nat)
  /-- MEMORY_TEST_STEP, R181. -/
  | memoryTestStep (t : Nat) (frames : List (Nat × Nat)) (words : List Nat)
  /-- BRINGUP_S7, R430. -/
  | bringupS7 (t : Nat) (margins : List Int)
  /-- BRINGUP_S8, R435. -/
  | bringupS8 (t : Nat)
  /-- STAGE_LIMIT_EXPIRE, R418. -/
  | stageLimitExpire (t : Nat)
  /-- RAIL_PG_LOSS, R512. -/
  | railPgLoss (t : Nat) (rail : Nat)
  /-- TICK_SYNC_EDGE, R35. -/
  | tickSyncEdge (t : Nat) (high : Nat)
  /-- TICK_WINDOW_EXPIRE, R36. -/
  | tickWindowExpire (t : Nat)
  /-- SYNC_LOST, R38. -/
  | syncLost (t : Nat)
  /-- FREE_RUN_TICK, R38. -/
  | freeRunTick (t : Nat)
  /-- TICK_BOUNDARY, R44. -/
  | tickBoundary (t : Nat) (causes : List Nat)
  /-- OVERRUN_NOTICE, R53. -/
  | overrunNotice (t : Nat) (n : Nat) (opened : Option (List Byte))
  /-- SHEAF_HUNG, R51. -/
  | sheafHung (t : Nat) (p : Nat)
  /-- SEQUENCER_WATCHDOG, R94. -/
  | sequencerWatchdog (t : Nat) (c : Nat)
  /-- ENGINE_STALL, R463. -/
  | engineStall (t : Nat) (u i : Nat)
  /-- FENCE_DRAIN_END, R466. -/
  | fenceDrainEnd (t : Nat) (p : Nat)
  /-- FLIGHT_SAMPLE_STORE, R471. -/
  | flightSampleStore (t : Nat) (p : Nat)
  /-- WQ_PUSH, R96. -/
  | wqPush (t : Nat) (c d7 : Nat)
  /-- WQ_PUSHADDR, R95. -/
  | wqPushaddr (t : Nat) (c v : Nat) (si : SpadIn)
  /-- WQ_PUSH_UNSTALL, R95. -/
  | wqPushUnstall (t : Nat) (c : Nat)
  /-- WQ_RESUME, R99. -/
  | wqResume (t : Nat) (c : Nat)
  /-- WQ_FLUSH, R97. -/
  | wqFlush (t : Nat) (c : Nat)
  /-- CC_VAL_WRITE, R114. -/
  | ccValWrite (t : Nat) (c v : Nat)
  /-- CC_ADD_WRITE, R114. -/
  | ccAddWrite (t : Nat) (c v : Nat)
  /-- VSEED_WRITE, R530. -/
  | vseedWrite (t : Nat) (c v : Nat)
  /-- VSEED_APPLY, R83. -/
  | vseedApply (t : Nat) (c : Nat)
  /-- SHEAF_DONE_WRITE, R93. -/
  | sheafDoneWrite (t : Nat) (c v : Nat)
  /-- SHEAF_NEXT_READ, R92. -/
  | sheafNextRead (t : Nat) (c : Nat)
  /-- RC_FIELD_READ, R11. -/
  | rcFieldRead (t : Nat) (r : RcTarget)
  /-- BAR0_BAD_ACCESS, R14. -/
  | bar0BadAccess (t : Nat) (f off n : Nat) (isRead : Bool)
  /-- REGISTER_WRITE, R11. -/
  | registerWrite (t : Nat) (r : RegTarget)
  /-- DESCRIPTOR_ISSUE, R97. -/
  | descriptorIssue (t : Nat) (i u : Nat)
  /-- DESCRIPTOR_FAIL, R99. -/
  | descriptorFail (t : Nat) (c u index : Nat)
  /-- MMA_COMPLETE, R105. -/
  | mmaComplete (t : Nat) (i : Nat) (si : SpadIn)
  /-- VOP_CONVERT, R107. -/
  | vopConvert (t : Nat) (i : Nat) (si : SpadIn)
  /-- VOP_ADD, R76. -/
  | vopAdd (t : Nat) (i : Nat) (si : SpadIn)
  /-- VOP_SUB, R76. -/
  | vopSub (t : Nat) (i : Nat) (si : SpadIn)
  /-- VOP_MUL, R76. -/
  | vopMul (t : Nat) (i : Nat) (si : SpadIn)
  /-- VOP_FMA, R76. -/
  | vopFma (t : Nat) (i : Nat) (si : SpadIn)
  /-- VOP_MIN, R76. -/
  | vopMin (t : Nat) (i : Nat) (si : SpadIn)
  /-- VOP_MAX, R76. -/
  | vopMax (t : Nat) (i : Nat) (si : SpadIn)
  /-- VOP_ABS, R76. -/
  | vopAbs (t : Nat) (i : Nat) (si : SpadIn)
  /-- VOP_NEG, R76. -/
  | vopNeg (t : Nat) (i : Nat) (si : SpadIn)
  /-- VOP_RCP, R529. -/
  | vopRcp (t : Nat) (i : Nat) (si : SpadIn)
  /-- VOP_RSQRT, R529. -/
  | vopRsqrt (t : Nat) (i : Nat) (si : SpadIn)
  /-- VOP_EXP2, R529. -/
  | vopExp2 (t : Nat) (i : Nat) (si : SpadIn)
  /-- VOP_LOG2, R529. -/
  | vopLog2 (t : Nat) (i : Nat) (si : SpadIn)
  /-- VOP_CMPGT, R107. -/
  | vopCmpgt (t : Nat) (i : Nat) (si : SpadIn)
  /-- VOP_CMPEQ, R107. -/
  | vopCmpeq (t : Nat) (i : Nat) (si : SpadIn)
  /-- TILE_DMA_COPY, R109. -/
  | tileDmaCopy (t : Nat) (c index : Nat) (mi : MemIn) (si : SpadIn)
  /-- TILE_DMA_FENCE, R110. -/
  | tileDmaFence (t : Nat) (c index : Nat)
  /-- SYNC_ADD, R111. -/
  | syncAdd (t : Nat) (c index : Nat)
  /-- SYNC_SET, R111. -/
  | syncSet (t : Nat) (c index : Nat)
  /-- SYNC_NONE, R111. -/
  | syncNone (t : Nat) (c index : Nat)
  /-- STREAM_OUT_BLOCK_SEND, R112. -/
  | streamOutBlockSend (t : Nat) (c index : Nat) (mi : MemIn) (si : SpadIn)
  /-- STREAM_OUT_COMPLETE, R112. -/
  | streamOutComplete (t : Nat) (c index : Nat)
  /-- GLEANER_DESC_COMPLETE, R149. -/
  | gleanerDescComplete (t : Nat) (c index : Nat)
  /-- GLEANER_FWD_TIMEOUT, R150. -/
  | gleanerFwdTimeout (t : Nat) (c index : Nat)
  /-- BOARD_LOAD, R89. -/
  | boardLoad (t : Nat) (c b n : Nat) (mi : MemIn)
  /-- BOARD_STORE, R90. -/
  | boardStore (t : Nat) (c b n v : Nat) (mi : MemIn)
  /-- SEQ_FENCE_COMPLETE, R90. -/
  | seqFenceComplete (t : Nat) (c : Nat)
  /-- TILE_MOVE_START, R210. -/
  | tileMoveStart (t : Nat) (i : Nat)
  /-- TILE_MOVE_ABANDON, R210. -/
  | tileMoveAbandon (t : Nat) (i : Nat)
  /-- WAIN_FETCH, R125. -/
  | wainFetch (t : Nat) (ch : Nat) (mi : MemIn) (si : SpadIn)
  /-- WAIN_BURST_ISSUE, R130. -/
  | wainBurstIssue (t : Nat) (e : Nat) (mi : MemIn) (si : SpadIn)
  /-- WAIN_AGE_PROMOTE, R130. -/
  | wainAgePromote (t : Nat) (ch : Nat)
  /-- WAIN_BURST_WRITE, R128. -/
  | wainBurstWrite (t : Nat) (e : Nat) (mi : MemIn)
  /-- WAIN_COPY, R132. -/
  | wainCopy (t : Nat) (ch : Nat)
  /-- WAIN_FENCE, R132. -/
  | wainFence (t : Nat) (ch : Nat)
  /-- WAIN_TIMEOUT, R133. -/
  | wainTimeout (t : Nat) (e q : Nat)
  /-- WAIN_STALL, R134. -/
  | wainStall (t : Nat) (ch : Nat)
  /-- GLEANER_DISPATCH, R145. -/
  | gleanerDispatch (t : Nat) (k : Nat) (mi : MemIn) (si : SpadIn)
  /-- GLEANER_AGE_PROMOTE, R145. -/
  | gleanerAgePromote (t : Nat) (k : Nat)
  /-- SCORE_SCAN, R153. -/
  | scoreScan (t : Nat) (k : Nat) (mi : MemIn) (si : SpadIn)
  /-- WEIGHTED_ACC, R154. -/
  | weightedAcc (t : Nat) (k : Nat) (mi : MemIn) (si : SpadIn)
  /-- ACC_MEM, R156. -/
  | accMem (t : Nat) (k : Nat) (mi : MemIn) (si : SpadIn)
  /-- OPT_UPDATE, R158. -/
  | optUpdate (t : Nat) (k : Nat) (mi : MemIn) (si : SpadIn)
  /-- GATHER, R159. -/
  | gather (t : Nat) (k : Nat) (mi : MemIn) (si : SpadIn)
  /-- SCATTER, R159. -/
  | scatter (t : Nat) (k : Nat) (mi : MemIn) (si : SpadIn)
  /-- UNPACK, R160. -/
  | unpack (t : Nat) (k : Nat) (mi : MemIn) (si : SpadIn)
  /-- GLEANER_FILL, R161. -/
  | gleanerFill (t : Nat) (k : Nat) (mi : MemIn) (si : SpadIn)
  /-- GLEANER_COPY, R161. -/
  | gleanerCopy (t : Nat) (k : Nat) (mi : MemIn) (si : SpadIn)
  /-- PATTERN_TEST, R162. -/
  | patternTest (t : Nat) (k : Nat) (mi : MemIn) (si : SpadIn)
  /-- GLEANER_COMPLETE, R149. -/
  | gleanerComplete (t : Nat) (k id : Nat) (mi : MemIn)
  /-- GLEANER_CMD_EXPIRE, R150. -/
  | gleanerCmdExpire (t : Nat) (k : Nat) (mi : MemIn)
  /-- MEM_WRITEBACK, R170. -/
  | memWriteback (t : Nat) (k line : Nat)
  /-- LANE_MARK, R172. -/
  | laneMark (t : Nat) (k pc lane : Nat)
  /-- READ_TIMING_WINDOW, R174. -/
  | readTimingWindow (t : Nat) (k pc lane e lt : Nat)
  /-- PROBE_READ, R176. -/
  | probeRead (t : Nat) (k pc : Nat) (lanes : List Nat)
  /-- PATROL_READ, R178. -/
  | patrolRead (t : Nat) (k : Nat) (mi : MemIn)
  /-- PATROL_LEVEL_UPDATE, R178. -/
  | patrolLevelUpdate (t : Nat) (k : Nat)
  /-- CELLAR_READ, R187. -/
  | cellarRead (t : Nat) (p g : Nat)
  /-- CELLAR_FETCH_COMPLETE, R188. -/
  | cellarFetchComplete (t : Nat) (p g : Nat) (good : Bool)
  /-- CELLAR_WRITE, R187. -/
  | cellarWrite (t : Nat) (p g off : Nat) (bs : List Byte) (mi : MemIn)
  /-- CELLAR_EVICT, R186. -/
  | cellarEvict (t : Nat) (p g : Nat) (leave : Bool)
  /-- MIGRATION_COPY_END, R205. -/
  | migrationCopyEnd (t : Nat) (k f : Nat) (mi : MemIn)
  /-- STUB_RETIRE, R206. -/
  | stubRetire (t : Nat) (k f : Nat)
  /-- FRAME_FILL_DONE, R195. -/
  | frameFillDone (t : Nat) (k f : Nat)
  /-- FROZEN_EXPIRE, R211. -/
  | frozenExpire (t : Nat) (ses : Nat)
  /-- LINK_SIGNAL_DETECT, R224. -/
  | linkSignalDetect (t : Nat) (n : Nat)
  /-- LINK_TRAIN_COMPLETE, R224. -/
  | linkTrainComplete (t : Nat) (k pos link : Nat) (indices : List Nat) (peer far : Nat) (margins : List (Option Int))
  /-- LINK_TRAIN_RETRY, R226. -/
  | linkTrainRetry (t : Nat) (k : Nat)
  /-- LOOPBACK_RETRAIN, R222. -/
  | loopbackRetrain (t : Nat) (margins : List Int)
  /-- CODEWORD_RECEIVE, R218. -/
  | codewordReceive (t : Nat) (n errs heads : Nat) (flits : List Nat)
  /-- LANE_SIGNAL_LOST, R234. -/
  | laneSignalLost (t : Nat) (n : Nat)
  /-- MARGIN_WINDOW, R228. -/
  | marginWindow (t : Nat) (n : Nat) (margin : Int) (snr : Nat)
  /-- RX_ADAPT_UPDATE, R227. -/
  | rxAdaptUpdate (t : Nat) (n : Nat) (dfe1 : Int) (ctle : Nat) (ask : Option (Nat × Nat))
  /-- LANE_RETRAIN_COMPLETE, R232. -/
  | laneRetrainComplete (t : Nat) (n : Nat) (margin : Int) (peer : Nat)
  /-- LINK_FLIT_IDLE, R219. -/
  | linkFlitIdle (t : Nat) (n : Nat)
  /-- LINK_FLIT_STATUS, R230. -/
  | linkFlitStatus (t : Nat) (n : Nat)
  /-- LINK_FLIT_CREDIT, R254. -/
  | linkFlitCredit (t : Nat) (n : Nat)
  /-- LINK_FLIT_ADAPT, R227. -/
  | linkFlitAdapt (t : Nat) (n : Nat)
  /-- PACKET_INJECT, R246. -/
  | packetInject (t : Nat) (i : Nat)
  /-- LINK_OUTPUT_SELECT, R257. -/
  | linkOutputSelect (t : Nat) (k n : Nat)
  /-- VC_AGE_PROMOTE, R257. -/
  | vcAgePromote (t : Nat) (k vc : Nat)
  /-- PACKET_FORWARD, R249. -/
  | packetForward (t : Nat) (n : Nat) (opened : Option (List Byte))
  /-- PACKET_AGED_OUT, R256. -/
  | packetAgedOut (t : Nat) (k i : Nat)
  /-- MALFORMED_PACKET, R267. -/
  | malformedPacket (t : Nat) (n : Nat) (opened : Option (List Byte))
  /-- TRUNCATE, R255. -/
  | truncate (t : Nat) (n : Nat) (opened : Option (List Byte))
  /-- WRITE, R531. -/
  | write (t : Nat) (n : Nat) (opened : Option (List Byte)) (ses : Nat) (mi : MemIn)
  /-- READ_REQ, R248. -/
  | readReq (t : Nat) (n : Nat) (opened : Option (List Byte)) (ses : Nat) (mi : MemIn) (si : SpadIn)
  /-- READ_RESP, R242. -/
  | readResp (t : Nat) (n : Nat) (opened : Option (List Byte))
  /-- WRITE_ACK, R244. -/
  | writeAck (t : Nat) (n : Nat) (opened : Option (List Byte))
  /-- WRITE_ACK_SEND, R244. -/
  | writeAckSend (t : Nat) (i : Nat)
  /-- SYNC_ADD_PACKET, R114. -/
  | syncAddPacket (t : Nat) (n : Nat) (opened : Option (List Byte)) (ses : Nat)
  /-- SYNC_SET_PACKET, R114. -/
  | syncSetPacket (t : Nat) (n : Nat) (opened : Option (List Byte)) (ses : Nat)
  /-- SYNC_ACK, R111. -/
  | syncAck (t : Nat) (n : Nat) (opened : Option (List Byte))
  /-- GLEANER_CMD, R135. -/
  | gleanerCmd (t : Nat) (n : Nat) (opened : Option (List Byte)) (ses : Nat)
  /-- GLEANER_DONE, R149. -/
  | gleanerDone (t : Nat) (n : Nat) (opened : Option (List Byte))
  /-- NACK, R243. -/
  | nack (t : Nat) (n : Nat) (opened : Option (List Byte))
  /-- ABORT, R470. -/
  | abort (t : Nat) (n : Nat) (opened : Option (List Byte))
  /-- KEY_XCHG_HELLO, R453. -/
  | keyXchgHello (t : Nat) (rx : Bool) (n : Nat) (accept : Bool) (flip : Nat)
  /-- KEY_XCHG_REPLY, R453. -/
  | keyXchgReply (t : Nat) (rx : Bool) (n : Nat) (accept : Bool)
  /-- KEY_XCHG_FINISH, R453. -/
  | keyXchgFinish (t : Nat) (rx : Bool) (n : Nat) (accept : Bool)
  /-- KEY_XCHG_RETRY, R453. -/
  | keyXchgRetry (t : Nat) (k : Nat)
  /-- SCRUB_NOTICE, R242. -/
  | scrubNotice (t : Nat) (n : Nat) (opened : Option (List Byte))
  /-- LINKMAP, R251. -/
  | linkmap (t : Nat) (n : Nat) (opened : Option (List Byte))
  /-- LINKMAP_SEND, R251. -/
  | linkmapSend (t : Nat)
  /-- HAYWARD_MSG, R242. -/
  | haywardMsg (t : Nat) (n : Nat) (opened : Option (List Byte)) (returnOk : Bool)
  /-- MARK_K_UPDATE, R259. -/
  | markKUpdate (t : Nat) (k : Nat) (idle : Bool)
  /-- RATE_AI_PERIOD, R261. -/
  | rateAiPeriod (t : Nat) (l : Nat)
  /-- REQUEST_TIMEOUT, R265. -/
  | requestTimeout (t : Nat) (ep q : Nat)
  /-- COLL_ALL_REDUCE, R288. -/
  | collAllReduce (t : Nat) (job group part : Nat) (mi : MemIn) (si : SpadIn)
  /-- COLL_REDUCE_SCATTER, R289. -/
  | collReduceScatter (t : Nat) (job group part : Nat) (mi : MemIn) (si : SpadIn)
  /-- COLL_ALL_GATHER, R289. -/
  | collAllGather (t : Nat) (job group part : Nat) (mi : MemIn) (si : SpadIn)
  /-- COLL_ALL_TO_ALL, R289. -/
  | collAllToAll (t : Nat) (job group part : Nat) (mi : MemIn) (si : SpadIn)
  /-- COLL_BROADCAST, R289. -/
  | collBroadcast (t : Nat) (job group part : Nat) (mi : MemIn) (si : SpadIn)
  /-- COLL_REDUCE, R289. -/
  | collReduce (t : Nat) (job group part : Nat) (mi : MemIn) (si : SpadIn)
  /-- COLL_BARRIER, R289. -/
  | collBarrier (t : Nat) (job group part : Nat) (mi : MemIn) (si : SpadIn)
  /-- COLL_CHANNEL_FETCH, R277. -/
  | collChannelFetch (t : Nat) (ch : Nat) (mi : MemIn) (si : SpadIn)
  /-- COLL_READY, R281. -/
  | collReady (t : Nat) (n : Nat) (opened : Option (List Byte)) (rk : Nat) (mi : MemIn) (si : SpadIn)
  /-- COLL_EXP, R291. -/
  | collExp (t : Nat) (n : Nat) (opened : Option (List Byte)) (rk : Nat) (mi : MemIn) (si : SpadIn)
  /-- COLL_AGREED, R291. -/
  | collAgreed (t : Nat) (n : Nat) (opened : Option (List Byte)) (rk : Nat) (mi : MemIn) (si : SpadIn)
  /-- COLL_CONTRIB, R290. -/
  | collContrib (t : Nat) (n : Nat) (opened : Option (List Byte)) (rk : Nat) (mi : MemIn)
  /-- COLL_RESULT, R294. -/
  | collResult (t : Nat) (n : Nat) (opened : Option (List Byte)) (rk : Nat) (mi : MemIn)
  /-- COLL_ARRIVE, R289. -/
  | collArrive (t : Nat) (n : Nat) (opened : Option (List Byte)) (rk : Nat) (mi : MemIn)
  /-- COLL_FAIL, R300. -/
  | collFail (t : Nat) (n : Nat) (opened : Option (List Byte)) (rk : Nat) (mi : MemIn)
  /-- CHUNK_COMPLETE, R293. -/
  | chunkComplete (t : Nat) (job group part seq c : Nat) (mi : MemIn) (si : SpadIn)
  /-- COLL_COMPLETE, R294. -/
  | collComplete (t : Nat) (job group part seq : Nat) (mi : MemIn)
  /-- COLL_TIMEOUT, R299. -/
  | collTimeout (t : Nat) (job group part seq : Nat) (mi : MemIn)
  /-- THRESHER_RESTART, R465. -/
  | thresherRestart (t : Nat) (th : Nat) (mi : MemIn)
  /-- BAR4_READ, R306. -/
  | bar4Read (t : Nat) (f off n : Nat) (inStream : Bool) (mi : MemIn)
  /-- BAR4_WRITE, R306. -/
  | bar4Write (t : Nat) (f off : Nat) (data : List Byte) (inStream : Bool) (mi : MemIn)
  /-- PCIE_RESET, R310. -/
  | pcieReset (t : Nat)
  /-- FLR, R310. -/
  | flr (t : Nat) (f : Nat)
  /-- DEVICE_READ_TIMEOUT, R308. -/
  | deviceReadTimeout (t : Nat) (p g : Nat)
  /-- IDE_INTEGRITY_FAIL, R309. -/
  | ideIntegrityFail (t : Nat) (f i : Nat)
  /-- ETH_FRAME_RECEIVE, R314. -/
  | ethFrameReceive (t : Nat) (port : Nat) (f : EthFrame)
  /-- RDMA_INBOUND, R317. -/
  | rdmaInbound (t : Nat) (port : Nat) (mi : MemIn)
  /-- QP_RING_FETCH, R316. -/
  | qpRingFetch (t : Nat) (q : Nat) (isRecv : Bool) (mi : MemIn) (si : SpadIn)
  /-- ROCE_SEND, R318. -/
  | roceSend (t : Nat) (q : Nat) (mi : MemIn)
  /-- ROCE_SEND_IMM, R318. -/
  | roceSendImm (t : Nat) (q : Nat) (mi : MemIn)
  /-- ROCE_WRITE, R318. -/
  | roceWrite (t : Nat) (q : Nat) (mi : MemIn)
  /-- ROCE_WRITE_IMM, R318. -/
  | roceWriteImm (t : Nat) (q : Nat) (mi : MemIn)
  /-- ROCE_READ, R318. -/
  | roceRead (t : Nat) (q : Nat)
  /-- ROCE_RECV, R318. -/
  | roceRecv (t : Nat) (q : Nat)
  /-- ROCE_WR_COMPLETE, R318. -/
  | roceWrComplete (t : Nat) (q : Nat) (isRecv : Bool) (mi : MemIn)
  /-- ROCE_ACK_TIMEOUT, R319. -/
  | roceAckTimeout (t : Nat) (q : Nat)
  /-- ROCE_CNP, R321. -/
  | roceCnp (t : Nat) (port : Nat)
  /-- ROCE_RATE_INCREASE, R321. -/
  | roceRateIncrease (t : Nat) (q : Nat)
  /-- PFC_PAUSE_RECEIVE, R320. -/
  | pfcPauseReceive (t : Nat) (port prio quanta : Nat)
  /-- HAYWARD_CHECK_FAIL, R326. -/
  | haywardCheckFail (t : Nat) (h code : Nat)
  /-- HAYWARD_WATCHDOG_EXPIRE, R326. -/
  | haywardWatchdogExpire (t : Nat) (w : Nat)
  /-- HAYWARD_TAKEOVER, R328. -/
  | haywardTakeover (t : Nat)
  /-- HAYWARD_ISLAND_RESTART, R329. -/
  | haywardIslandRestart (t : Nat) (h : Nat)
  /-- HAYWARD_REVERT, R330. -/
  | haywardRevert (t : Nat)
  /-- HAYWARD_HEALTH_PUBLISH, R324. -/
  | haywardHealthPublish (t : Nat) (h corr : Nat)
  /-- MBX_DOORBELL, R336. -/
  | mbxDoorbell (t : Nat) (f v : Nat)
  /-- MBX_RSP_HEAD_WRITE, R337. -/
  | mbxRspHeadWrite (t : Nat) (f v : Nat)
  /-- MBX_RESET, R344. -/
  | mbxReset (t : Nat) (f : Nat) (irqEn : Bool)
  /-- MBX_AGE_PROMOTE, R332. -/
  | mbxAgePromote (t : Nat) (m : Nat)
  /-- MBX_PROGRESS_UPDATE, R341. -/
  | mbxProgressUpdate (t : Nat) (m seq : Nat)
  /-- MBX_THROTTLE_END, R343. -/
  | mbxThrottleEnd (t : Nat) (m : Nat)
  /-- MGMT_TLS_CONNECT, R439. -/
  | mgmtTlsConnect (t : Nat) (anchorHash : Nat) (good : Bool)
  /-- MGMT_SESSION_CLOSE, R345. -/
  | mgmtSessionClose (t : Nat)
  /-- I3C_PRIVATE_WRITE, R346. -/
  | i3cPrivateWrite (t : Nat) (data : List Byte)
  /-- I3C_PRIVATE_READ, R346. -/
  | i3cPrivateRead (t : Nat)
  /-- EVENT_DELIVER, R351. -/
  | eventDeliver (t : Nat) (f src : Nat)
  /-- EVT_PEND_WRITE, R353. -/
  | evtPendWrite (t : Nat) (f n data : Nat) (wide : Bool)
  /-- EVT_MASK_WRITE, R352. -/
  | evtMaskWrite (t : Nat) (f n data : Nat) (wide : Bool)
  /-- EVT_PRIV_SET_WRITE, R354. -/
  | evtPrivSetWrite (t : Nat) (f data : Nat) (byHost : Bool)
  /-- EVT_PRIV_CLR_WRITE, R354. -/
  | evtPrivClrWrite (t : Nat) (f data : Nat)
  /-- UNKNOWN_OPCODE, R342. -/
  | unknownOpcode (t : Nat) (a : MbxArgs)
  /-- IDENTITY, R4. -/
  | identity (t : Nat) (a : MbxArgs)
  /-- HAYWARD_HEALTH, R325. -/
  | haywardHealth (t : Nat) (a : MbxArgs)
  /-- PKG_STATUS, R366. -/
  | pkgStatus (t : Nat) (a : MbxArgs)
  /-- TILE_MAP, R427. -/
  | tileMap (t : Nat) (a : MbxArgs)
  /-- STAGE_REPORT, R431. -/
  | stageReport (t : Nat) (a : MbxArgs)
  /-- CONFIG_SET, R368. -/
  | configSet (t : Nat) (a : MbxArgs)
  /-- CONFIG_GET, R368. -/
  | configGet (t : Nat) (a : MbxArgs)
  /-- CONFIG_DONE, R366. -/
  | configDone (t : Nat) (a : MbxArgs)
  /-- WATCH_LIST_SET, R358. -/
  | watchListSet (t : Nat) (a : MbxArgs)
  /-- NET_CONFIG, R345. -/
  | netConfig (t : Nat) (a : MbxArgs)
  /-- ETH_GID_SET, R315. -/
  | ethGidSet (t : Nat) (a : MbxArgs)
  /-- CHANNEL_SET, R122. -/
  | channelSet (t : Nat) (a : MbxArgs)
  /-- CHANNEL_GET, R122. -/
  | channelGet (t : Nat) (a : MbxArgs)
  /-- CHANNEL_RESUME, R133. -/
  | channelResume (t : Nat) (a : MbxArgs)
  /-- QP_CREATE, R315. -/
  | qpCreate (t : Nat) (a : MbxArgs)
  /-- QP_MODIFY, R319. -/
  | qpModify (t : Nat) (a : MbxArgs)
  /-- QP_DESTROY, R315. -/
  | qpDestroy (t : Nat) (a : MbxArgs)
  /-- MR_REG, R317. -/
  | mrReg (t : Nat) (a : MbxArgs)
  /-- MR_DEREG, R317. -/
  | mrDereg (t : Nat) (a : MbxArgs)
  /-- SESSION_CREATE, R20. -/
  | sessionCreate (t : Nat) (a : MbxArgs)
  /-- PART_START, R32. -/
  | partStart (t : Nat) (a : MbxArgs)
  /-- PART_STOP, R50. -/
  | partStop (t : Nat) (a : MbxArgs)
  /-- PART_FENCE, R466. -/
  | partFence (t : Nat) (a : MbxArgs)
  /-- PART_RESET, R478. -/
  | partReset (t : Nat) (a : MbxArgs)
  /-- PART_RESET_COMPLETE, R480. -/
  | partResetComplete (t : Nat) (p : Nat) (lanes : List LaneTrain) (degraded : List (Nat × Nat)) (links tiles : List Nat)
  /-- SESSION_END, R458. -/
  | sessionEnd (t : Nat) (a : MbxArgs)
  /-- WINNOW_COMPLETE, R459. -/
  | winnowComplete (t : Nat) (p k : Nat)
  /-- PART_STATUS, R367. -/
  | partStatus (t : Nat) (a : MbxArgs)
  /-- LPT_WRITE, R247. -/
  | lptWrite (t : Nat) (a : MbxArgs)
  /-- LPT_READ, R247. -/
  | lptRead (t : Nat) (a : MbxArgs)
  /-- LINK_DISABLE, R229. -/
  | linkDisable (t : Nat) (a : MbxArgs)
  /-- LINK_ENABLE, R223. -/
  | linkEnable (t : Nat) (a : MbxArgs)
  /-- LINK_RETRAIN, R225. -/
  | linkRetrain (t : Nat) (a : MbxArgs)
  /-- QUARANTINE_RELEASE, R268. -/
  | quarantineRelease (t : Nat) (a : MbxArgs)
  /-- LANE_DISABLE, R229. -/
  | laneDisable (t : Nat) (a : MbxArgs)
  /-- LANE_ENABLE, R232. -/
  | laneEnable (t : Nat) (a : MbxArgs)
  /-- LANE_STATUS, R237. -/
  | laneStatus (t : Nat) (a : MbxArgs)
  /-- LINK_STATUS, R237. -/
  | linkStatus (t : Nat) (a : MbxArgs)
  /-- ROUTER_TELEMETRY, R269. -/
  | routerTelemetry (t : Nat) (a : MbxArgs)
  /-- PART_FABRIC, R270. -/
  | partFabric (t : Nat) (a : MbxArgs)
  /-- GRANT_SET, R372. -/
  | grantSet (t : Nat) (a : MbxArgs)
  /-- MODE_SET, R386. -/
  | modeSet (t : Nat) (a : MbxArgs)
  /-- POWER_STATE_ACTIVE, R394. -/
  | powerStateActive (t : Nat) (a : MbxArgs)
  /-- POWER_STATE_IDLE, R394. -/
  | powerStateIdle (t : Nat) (a : MbxArgs)
  /-- POWER_STATE_FALLOW, R395. -/
  | powerStateFallow (t : Nat) (a : MbxArgs)
  /-- POWER_STATE_OFF, R513. -/
  | powerStateOff (t : Nat) (a : MbxArgs)
  /-- FALLOW_ENTRY_COMPLETE, R395. -/
  | fallowEntryComplete (t : Nat) (d : Nat)
  /-- FALLOW_EXIT_COMPLETE, R395. -/
  | fallowExitComplete (t : Nat) (d : Nat)
  /-- FALLOW_WAKE, R396. -/
  | fallowWake (t : Nat)
  /-- POWER_STATUS, R400. -/
  | powerStatus (t : Nat) (a : MbxArgs)
  /-- TALLY_READ, R397. -/
  | tallyRead (t : Nat) (a : MbxArgs)
  /-- FORECAST_READ, R414. -/
  | forecastRead (t : Nat) (a : MbxArgs)
  /-- MINUTE_REPORT, R399. -/
  | minuteReport (t : Nat) (a : MbxArgs)
  /-- FLOW_REPORT, R405. -/
  | flowReport (t : Nat) (a : MbxArgs)
  /-- THERMAL_STATUS, R415. -/
  | thermalStatus (t : Nat) (a : MbxArgs)
  /-- BUF_ALLOC, R373. -/
  | bufAlloc (t : Nat) (a : MbxArgs)
  /-- BUF_FREE, R198. -/
  | bufFree (t : Nat) (a : MbxArgs)
  /-- BUF_QUERY, R192. -/
  | bufQuery (t : Nat) (a : MbxArgs)
  /-- PLACEMENT_MODE, R211. -/
  | placementMode (t : Nat) (a : MbxArgs)
  /-- TILE_MOVABLE, R209. -/
  | tileMovable (t : Nat) (a : MbxArgs)
  /-- FRAME_MOVE, R212. -/
  | frameMove (t : Nat) (a : MbxArgs)
  /-- PLACEMENT_STATUS, R213. -/
  | placementStatus (t : Nat) (a : MbxArgs)
  /-- CELLAR_LEND, R184. -/
  | cellarLend (t : Nat) (a : MbxArgs)
  /-- CELLAR_RELEASE, R184. -/
  | cellarRelease (t : Nat) (a : MbxArgs)
  /-- STACK_HEALTH, R180. -/
  | stackHealth (t : Nat) (a : MbxArgs)
  /-- JOB_JOIN, R271. -/
  | jobJoin (t : Nat) (a : MbxArgs)
  /-- JOB_LEAVE, R271. -/
  | jobLeave (t : Nat) (a : MbxArgs)
  /-- GROUP_CREATE, R374. -/
  | groupCreate (t : Nat) (a : MbxArgs)
  /-- GROUP_DELETE, R272. -/
  | groupDelete (t : Nat) (a : MbxArgs)
  /-- GROUP_CONFIG, R274. -/
  | groupConfig (t : Nat) (a : MbxArgs)
  /-- GROUP_STATUS, R297. -/
  | groupStatus (t : Nat) (a : MbxArgs)
  /-- COLL_STATUS, R303. -/
  | collStatus (t : Nat) (a : MbxArgs)
  /-- OWNER_CLAIM, R438. -/
  | ownerClaim (t : Nat) (a : MbxArgs)
  /-- TENANT_BIND, R438. -/
  | tenantBind (t : Nat) (a : MbxArgs)
  /-- MODEL_KEY_RELEASE, R447. -/
  | modelKeyRelease (t : Nat) (a : MbxArgs) (key : Nat) (tagOk : Bool)
  /-- BALE_LOAD, R449. -/
  | baleLoad (t : Nat) (a : MbxArgs)
  /-- LINK_ENC_SET, R455. -/
  | linkEncSet (t : Nat) (a : MbxArgs)
  /-- ENC_GRACE_END, R455. -/
  | encGraceEnd (t : Nat)
  /-- CELLAR_KEY_ROTATE, R450. -/
  | cellarKeyRotate (t : Nat) (a : MbxArgs)
  /-- LINK_KEY_ROTATE, R454. -/
  | linkKeyRotate (t : Nat) (a : MbxArgs)
  /-- CELLAR_REKEY_WALK, R451. -/
  | cellarRekeyWalk (t : Nat) (p : Nat) (good : Bool)
  /-- CELLAR_OLD_KEY_DESTROY, R452. -/
  | cellarOldKeyDestroy (t : Nat) (p : Nat)
  /-- LINK_OLD_KEY_DESTROY, R454. -/
  | linkOldKeyDestroy (t : Nat) (k : Nat)
  /-- KEY_STATUS, R456. -/
  | keyStatus (t : Nat) (a : MbxArgs)
  /-- FAULT_LOG_READ, R489. -/
  | faultLogRead (t : Nat) (a : MbxArgs)
  /-- FLIGHT_SAMPLE_READ, R471. -/
  | flightSampleRead (t : Nat) (a : MbxArgs)
  /-- REPLAY, R476. -/
  | replay (t : Nat) (a : MbxArgs)
  /-- REPLAY_SUSPECT_TIMEOUT, R476. -/
  | replaySuspectTimeout (t : Nat) (p : Nat)
  /-- REPLAY_COMPLETE, R477. -/
  | replayComplete (t : Nat) (p : Nat)
  /-- VIOLATION_READ, R267. -/
  | violationRead (t : Nat) (a : MbxArgs)
  /-- JOB_ABORT, R468. -/
  | jobAbort (t : Nat) (a : MbxArgs)
  /-- FW_STAGE, R495. -/
  | fwStage (t : Nat) (a : MbxArgs) (bankMv : Nat)
  /-- FW_STAGE_COMPLETE, R495. -/
  | fwStageComplete (t : Nat) (result bankMv : Nat) (returnOk : Bool)
  /-- FW_ACTIVATE, R498. -/
  | fwActivate (t : Nat) (a : MbxArgs)
  /-- FW_CANCEL, R499. -/
  | fwCancel (t : Nat) (a : MbxArgs)
  /-- CONFIRM_HEALTH, R500. -/
  | confirmHealth (t : Nat) (a : MbxArgs) (bankMv : Nat) (burnOk : Bool)
  /-- FW_STATUS, R502. -/
  | fwStatus (t : Nat) (a : MbxArgs)
  /-- CONFIRM_WINDOW_EXPIRE, R501. -/
  | confirmWindowExpire (t : Nat)
  /-- HOLDUP_ENERGY_RECHECK, R496. -/
  | holdupEnergyRecheck (t : Nat) (bankMv : Nat) (burnOk : Bool)
  /-- NOR_OP_COMPLETE, R496. -/
  | norOpComplete (t : Nat) (bytes bankMv : Nat)
  /-- SNAPSHOT_READ, R375. -/
  | snapshotRead (t : Nat) (a : MbxArgs)
  /-- LEASE_EXPIRE, R384. -/
  | leaseExpire (t : Nat)
  /-- AVS_CURRENT_READ, R376. -/
  | avsCurrentRead (t : Nat) (bus mA : Nat)
  /-- RAIL_LIMITER_UPDATE, R377. -/
  | railLimiterUpdate (t : Nat) (raw : List Nat)
  /-- GOVERNOR_UPDATE, R380. -/
  | governorUpdate (t : Nat)
  /-- CLOCK_CEILING_UPDATE, R382. -/
  | clockCeilingUpdate (t : Nat) (fits : Nat) (eff : List Nat)
  /-- VF_STEP, R389. -/
  | vfStep (t : Nat) (q : Nat)
  /-- AGEING_TRIM_UPDATE, R390. -/
  | ageingTrimUpdate (t : Nat) (q : Nat)
  /-- DROOP_DETECT, R391. -/
  | droopDetect (t : Nat) (q : Nat)
  /-- DROOP_RECOVER, R391. -/
  | droopRecover (t : Nat) (q cycles : Nat)
  /-- DROOP_THRESHOLD_UPDATE, R391. -/
  | droopThresholdUpdate (t : Nat) (q slackMV slackPm : Nat)
  /-- QUADRANT_GATE, R394. -/
  | quadrantGate (t : Nat) (q : Nat)
  /-- QUADRANT_UNGATE, R394. -/
  | quadrantUngate (t : Nat) (q : Nat)
  /-- TALLY_INTEGRATE, R397. -/
  | tallyIntegrate (t : Nat) (shares dieBytes fabBytes : List Nat)
  /-- MINUTE_END, R399. -/
  | minuteEnd (t : Nat)
  /-- SENSOR_SAMPLE, R403. -/
  | sensorSample (t : Nat) (temps : List Int)
  /-- FLOW_REPORT_MISSING, R406. -/
  | flowReportMissing (t : Nat)
  /-- FLOW_FALLOW, R407. -/
  | flowFallow (t : Nat)
  /-- FLOW_STOP, R408. -/
  | flowStop (t : Nat)
  /-- FLOW_STOP_END, R409. -/
  | flowStopEnd (t : Nat)
  /-- DRBG_HEALTH_FAIL, R457. -/
  | drbgHealthFail (t : Nat)
  /-- TAP_EXTEST, R457. -/
  | tapExtest (t : Nat) (on : Bool)
  /-- SPDM_GET_VERSION, R440. -/
  | spdmGetVersion (t : Nat) (path : Nat)
  /-- SPDM_GET_CAPABILITIES, R440. -/
  | spdmGetCapabilities (t : Nat) (path : Nat)
  /-- SPDM_NEGOTIATE_ALGORITHMS, R440. -/
  | spdmNegotiateAlgorithms (t : Nat) (path : Nat)
  /-- SPDM_GET_DIGESTS, R440. -/
  | spdmGetDigests (t : Nat) (path : Nat)
  /-- SPDM_GET_CERTIFICATE, R442. -/
  | spdmGetCertificate (t : Nat) (path slot : Nat)
  /-- SPDM_CHALLENGE, R440. -/
  | spdmChallenge (t : Nat) (path slot : Nat)
  /-- SPDM_GET_MEASUREMENTS, R443. -/
  | spdmGetMeasurements (t : Nat) (path : Nat) (index : Option Nat) (signed inSession : Bool)
  /-- SPDM_KEM_OFFER, R441. -/
  | spdmKemOffer (t : Nat) (path ek : Nat)
  /-- SPDM_KEY_EXCHANGE, R441. -/
  | spdmKeyExchange (t : Nat) (path digest : Nat)
  /-- SPDM_FINISH, R440. -/
  | spdmFinish (t : Nat) (path cred : Nat) (sigOk : Bool)
  /-- SPDM_KEY_UPDATE, R444. -/
  | spdmKeyUpdate (t : Nat) (path : Nat)
  /-- SPDM_HEARTBEAT, R440. -/
  | spdmHeartbeat (t : Nat) (path : Nat)
  /-- SPDM_END_SESSION, R437. -/
  | spdmEndSession (t : Nat) (path : Nat)
  /-- IDE_KM_KEY_PROG, R309. -/
  | ideKmKeyProg (t : Nat) (path stream : Nat) (assoc : List (Nat × Nat))
  /-- FAULT_LOG_FLUSH, R488. -/
  | faultLogFlush (t : Nat) (bankMv : Nat)
  /-- BALE_LOAD_COMPLETE, R449. -/
  | baleLoadComplete (t : Nat) (m seq : Nat) (plain : Option (List Byte)) (mi : MemIn) (returnOk : Bool)
  /-- CANDIDATE_HOLDER_TIMEOUT, R373. -/
  | candidateHolderTimeout (t : Nat) (m seq : Nat) (returnOk : Bool)
  /-- TILE_COPY_END, R210. -/
  | tileCopyEnd (t : Nat) (i : Nat)
  /-- HAYWARD_SELFTEST_END, R329. -/
  | haywardSelftestEnd (t : Nat) (h : Nat) (pass : Bool) (code : Nat)
  /-- PCIE_CONFIG_WRITE, R311. -/
  | pcieConfigWrite (t : Nat) (f : Nat) (bme d3 fmask : Bool)
  /-- PCIE_LINK_DOWN, R311. -/
  | pcieLinkDown (t : Nat)
  /-- PCIE_LINK_UP, R304. -/
  | pcieLinkUp (t : Nat) (width : Nat)
  /-- ETH_LINK_DOWN, R313. -/
  | ethLinkDown (t : Nat) (port : Nat)
  /-- ETH_LINK_UP, R313. -/
  | ethLinkUp (t : Nat) (port : Nat)
  /-- SEQ_HOLD_END, R264. -/
  | seqHoldEnd (t : Nat) (ep q : Nat)
  deriving DecidableEq, Repr

end Sys2Proof
end

