-- ==== Sys2Proof/Decode.lean ====
section
/-!
DEFINITION. Decode.lean: the command that a word spells by the bits of the table of steps. No row of the table gives its
command bits, so no word spells one (log 13).
-/
namespace Sys2Proof

/-- The command of a word of `nbits` bits: none, for every word. -/
def decodeTableWord (_nbits _w : Nat) : Option Instr := none

end Sys2Proof
end

