-- ==== Sys2Proof/Config.lean ====
section
/-!
DEFINITION. Config.lean: the values the spec leaves open, as constants without a body (log 7). A statement that
mentions one holds whatever it is. Where a fresh value is needed each time, State's counter `freeCtr` is an argument.
-/
namespace Sys2Proof

/-- SEVERITY of a fault log entry of a TYPE: 20 Table 20-13 gives none. -/
opaque Config.faultSeverity : Nat → Nat

/-- The 288 DATA bits of a fault log entry: Table 20-13 names the fields of a TYPE and no bit positions. -/
opaque Config.faultData : Nat → List Nat → Nat

/-- ESTIMATE_MS of an IN_PROGRESS response (13 R341). -/
opaque Config.estimateMs : Nat → Nat

/-- A scratchpad byte nothing has written since a partition reset (20 R479): by the reset's number and the byte's key. -/
opaque Config.spadFree : Nat → Nat → BitVec 8

/-- A codeword with more symbol errors than Table 7-2 detects: whether it is reported uncorrectable. -/
opaque Config.beyondReported : Nat → Bool

/-- The bytes such a codeword is taken for where it is not. -/
opaque Config.miscorrected : Nat → Nat → BitVec 8

/-- Whether a request met the stub of 08 R206 within the 1 us in which translations are refreshed. -/
opaque Config.staleTranslation : Nat → Bool

/-- A choice the spec leaves to the package, among `n` allowed things: the draw's number and a place within it. -/
opaque Config.choice : Nat → Nat → Nat

/-- The compute-die hot spot, 0 to 15, nearest a physical tile 156 * die + 13 * column + row (08 R210). -/
opaque Config.nearSpot : Nat → Nat

/-- RCP (0), RSQRT (1), EXP2 (2) and LOG2 (3) of FP32 bits: one fixed function of the input (03 R76), held to its bound. -/
opaque Config.approx : Nat → Nat → Nat

/-- Where two lines of one COPY overlap, whether the earlier line's data stays in a word (04 R109): the draw's number, word. -/
opaque Config.overlapKeep : Nat → Nat → Bool

/-- The PRBS-31 words of 06 R162 and 07 R181: by the seed and the word's number. -/
opaque Config.prbs31 : Nat → Nat → Nat

/-- A byte of a collective's chunk whose result the spec calls not defined (11 R296): the draw's number, the byte. -/
opaque Config.undefByte : Nat → Nat → BitVec 8

/-- The 48-byte nonce of a KEY_XCHG message (19 Table 19-7): the draw's number. -/
opaque Config.keyNonce : Nat → BitVec 384

/-- The ECDH share, the ML-KEM part, the certificate chain and the signature of a KEY_XCHG message: the draw's number, MSG. -/
opaque Config.keyShares : Nat → Nat → List (BitVec 8)

/-- The ML-KEM-1024 ciphertext of KEM_ACCEPT (19 R441): the draw's number, the encapsulation key. -/
opaque Config.kemCipher : Nat → Nat → BitVec 12544

/-- The program counter of sequencer core 4 * tile + core at an instant, which belongs to the tenant's RV64GC program (00 R2). -/
opaque Config.corePc : Nat → Nat → BitVec 64

/-- SHA-384 of a list of bytes (19), which the spec names and does not define. -/
opaque Config.sha384 : List (BitVec 8) → BitVec 384

/-- SHA-384 of the Hasp ROM (1) and of the running images (2 to 6) of a bundle version (19 Table 19-3). -/
opaque Config.imageHash : Nat → Nat → BitVec 384

end Sys2Proof
end

