-- ==== Sys2Proof/Machine/Maps.lean ====
section
/-!
DEFINITION. Machine/Maps.lean: reading and writing the sparse maps and byte memories of State, and the list, bit-field
and byte-order helpers every family uses.
-/
namespace Sys2Proof.Machine

/-- The entry at `k`, if there is one. -/
def mfind {α : Type} : SMap α → Nat → Option α
  | [], _ => none
  | (k, v) :: r, i => if k = i then some v else mfind r i

/-- The entry at `k`, or `d`. -/
def mget {α : Type} (d : α) (m : SMap α) (i : Nat) : α := (mfind m i).getD d

/-- Put `v` at `i`, keeping the keys in rising order. -/
def mset {α : Type} : SMap α → Nat → α → SMap α
  | [], i, v => [(i, v)]
  | (k, w) :: r, i, v =>
    if i = k then (i, v) :: r else if i < k then (i, v) :: (k, w) :: r else (k, w) :: mset r i v

/-- Take the entry at `i` out. -/
def mdel {α : Type} (m : SMap α) (i : Nat) : SMap α := m.filter (fun e => e.1 != i)

/-- Change the entry at `i` (the default where there is none). -/
def mupd {α : Type} (d : α) (m : SMap α) (i : Nat) (f : α → α) : SMap α := mset m i (f (mget d m i))

/-- Keep the entries whose key and value `p` accepts. -/
def mkeep {α : Type} (m : SMap α) (p : Nat → α → Bool) : SMap α := m.filter (fun e => p e.1 e.2)

/-- Change every entry present. -/
def mmap {α : Type} (m : SMap α) (f : Nat → α → α) : SMap α := m.map (fun e => (e.1, f e.1 e.2))

/-- The keys present. -/
def mkeys {α : Type} (m : SMap α) : List Nat := m.map (fun e => e.1)

/-- A byte of a memory whose unlisted addresses read 0. -/
def memByte (m : List Host.Cell) (a : Nat) : Byte := mget 0 m a

/-- Write a byte, keeping the canonical form: no listed 0. -/
def memPut (m : List Host.Cell) (a : Nat) (b : Byte) : List Host.Cell := if b = 0 then mdel m a else mset m a b

/-- `n` bytes from `a` on. -/
def memBytes (m : List Host.Cell) (a : Nat) : Nat → List Byte
  | 0 => []
  | n + 1 => memByte m a :: memBytes m (a + 1) n

/-- Write bytes from `a` on. -/
def memPuts (m : List Host.Cell) (a : Nat) : List Byte → List Host.Cell
  | [] => m
  | b :: r => memPuts (memPut m a b) (a + 1) r

/-- Every byte from `a` for `n` bytes becomes 0. -/
def memZero (m : List Host.Cell) (a n : Nat) : List Host.Cell := m.filter (fun e => e.1 < a || a + n ≤ e.1)

/-- The little-endian value of bytes (00 R9). -/
def leNat : List Byte → Nat
  | [] => 0
  | b :: r => b.toNat + 256 * leNat r

/-- The `n` little-endian bytes of a number. -/
def leBytes : Nat → Nat → List Byte
  | 0, _ => []
  | n + 1, v => BitVec.ofNat 8 v :: leBytes n (v / 256)

/-- Bits `lo + w - 1 : lo` of a number. -/
def bits (v lo w : Nat) : Nat := v / 2 ^ lo % 2 ^ w

/-- Bit `i` of a number. -/
def bit (v i : Nat) : Bool := v / 2 ^ i % 2 == 1

/-- A Boolean as a one-bit number. -/
def b2n (b : Bool) : Nat := if b then 1 else 0

/-- A record built from (value, width) fields, the first at bit 0. -/
def packBits : List (Nat × Nat) → Nat
  | [] => 0
  | (v, w) :: r => v % 2 ^ w + 2 ^ w * packBits r

/-- The numbers from `a`, `n` of them. -/
def span (a n : Nat) : List Nat := (List.range n).map (a + ·)

/-- Exchange of the `i`-th member of a list (nothing where there is none). -/
def lset {α : Type} : List α → Nat → α → List α
  | [], _, _ => []
  | _ :: r, 0, v => v :: r
  | a :: r, n + 1, v => a :: lset r n v

/-- The two's complement value of a `w`-bit field. -/
def sx (w v : Nat) : Int := if v % 2 ^ w < 2 ^ (w - 1) then (v % 2 ^ w : Nat) else ((v % 2 ^ w : Nat) : Int) - (2 ^ w : Nat)

/-- A signed number as a `w`-bit field. -/
def unsx (w : Nat) (v : Int) : Nat := (v % (2 ^ w : Nat)).toNat

/-- Round a length up to a multiple. -/
def roundUp (n m : Nat) : Nat := (n + m - 1) / m * m

/-- Folding a step over a list of numbers, in order. -/
def forEach {σ : Type} (l : List Nat) (s : σ) (f : σ → Nat → σ) : σ := l.foldl f s

end Sys2Proof.Machine
end

