-- ==== Sys2Proof/Machine/Parts/Boot.lean ====
section
/-!
DEFINITION. Machine/Parts/Boot.lean: the plain data of bring-up and the pins (18, 22), the fuses, the firmware store (21),
the fault handling (20) and the tenants' keys (19).
-/
namespace Sys2Proof.Machine

/-! ## Fuses, bring-up, pins (18, 22) -/

/-- What the fuses hold (00 R5, R6; 18 R421; 19 R438, R442; 21 R497). -/
structure Fuses where
  /-- VARIANT of Table 0-2: 1 GX1-768-C0, 2 GX1-576-C0 -/
  variant : Nat := 1
  /-- twelve characters, character 0 first -/
  serial : List Byte := List.replicate 12 0x30
  /-- defective physical row of column 12 * die + column -/
  defects : SMap Nat := []
  /-- the ownership anchor; none while blank -/
  anchor : Option Nat := none
  secCounter : Nat := 0
  /-- per quadrant 0 to 7: fused voltage offset in mV -/
  vOffset : SMap Int := []
  mac : Nat := 0
  deriving DecidableEq, Repr

/-- A stage report (R431): the header's fields and the body as a number. -/
structure StageReport where
  result : Nat
  cause : Nat
  startMs : Nat
  durationMs : Nat
  body : Nat
  resetKind : Nat
  testFull : Bool
  slot : Nat
  fwVersion : Nat
  deriving DecidableEq, Repr

structure Boot where
  /-- the filtered level of COLD_RST_N (22 R517) -/
  coldRstN : Bool := false
  vrEn : BitVec 4 := 0
  /-- the instant a VR_EN was last lowered (22 R513) -/
  vrLoweredAt : Option Nat := none
  bootStage : BitVec 4 := 0
  pkgAlertN : Bool := true
  grangerFailN : Bool := true
  thermTripN : Bool := true
  /-- stage in progress (8 from the start of S8); none while the AON island holds reset -/
  stage : Option Nat := none
  /-- last stage reached -/
  reached : Nat := 0
  stageStart : Nat := 0
  s0Start : Nat := 0
  /-- the cause that stopped bring-up -/
  stopped : Option Nat := none
  /-- the bring-up record (R417) -/
  resetKind : Nat := 0
  fullPassAt : Option Nat := none
  s6Unfinished : Bool := false
  tripOrStop : Bool := false
  /-- the reset kind the next S0 takes -/
  nextKind : Nat := 0
  testFull : Bool := true
  resumed : Bool := false
  posId : Nat := 0
  /-- hold-up capacitance in microfarads, bank voltage in mV -/
  holdupUf : Nat := 0
  holdupMv : Nat := 0
  holdupValid : Bool := false
  reports : SMap StageReport := []
  /-- a rail's power-good was lost: the AON reset stays until COLD_RST_N or a power-up (22 R512) -/
  pgLost : Bool := false
  /-- the physical row of logical row r of column c of die d: key 144 * d + 12 * c + r -/
  tileMap : SMap Nat := []
  /-- defective physical tiles: keys 156 * d + 13 * c + row -/
  defective : List Nat := []
  /-- columns 12 * d + c that failed -/
  failedCols : List Nat := []
  mapBuilt : Bool := false
  /-- the TAP has EXTEST in force (19 R457) -/
  extest : Bool := false
  poweredOff : Bool := false
  deriving DecidableEq, Repr

/-! ## Firmware (21) -/

inductive SlotState where
  | empty | staged | confirmed | rejected
  deriving DecidableEq, Repr

structure FwSlot where
  state : SlotState := .empty
  version : Nat := 0
  secVersion : Nat := 0
  deriving DecidableEq, Repr

structure Fw where
  /-- slots 0 A and 1 B; A is shipped CONFIRMED (R492) -/
  slotA : FwSlot := { state := .confirmed, version := 1 }
  slotB : FwSlot := {}
  recordSeq : Nat := 1
  running : Nat := 0
  runningVersion : Nat := 0
  /-- held in the AON island -/
  trial : Option Nat := none
  fallback : Bool := false
  /-- the end of the confirmation window -/
  windowEnd : Option Nat := none
  windowMin : Nat := 0
  /-- Table 21-4 -/
  updateState : Nat := 0
  activateTick : Nat := 0
  /-- the slot booted this time is the trial target -/
  trialBoot : Bool := false
  /-- slots that failed verification at this S1, or were left by fallback -/
  toReject : List Nat := []
  stagedSec : Nat := 0
  stagedVersion : Nat := 0
  /-- bytes programmed so far, and bytes of the bundle -/
  stagedBytes : Nat := 0
  stagedLen : Nat := 0
  /-- a store operation held by a failed energy check: (what, since, latest check) with what 0 staging, 1 the record for
  CONFIRM_HEALTH, 2 fault log, 3 the record for S2 -/
  heldOp : Option (Nat × Nat × Nat) := none
  /-- an erase or program of the staging is in progress -/
  norOp : Bool := false
  deriving DecidableEq, Repr

/-! ## Faults (20) -/

/-- A fault log entry (Table 20-12). -/
structure LogEntry where
  seq : Nat
  tick : Nat
  aonMs : Nat
  boot : Nat
  type : Nat
  severity : Nat
  part : Nat
  data : List Nat
  deriving DecidableEq, Repr

/-- A fence of a partition (R466, Table 20-5). -/
structure Fence where
  cause : Nat
  detectors : Nat := 0
  job : Nat := 0
  tick : Nat
  start : Nat
  drainEnd : Option Nat := none
  nacked : Nat := 0
  hungKind : Nat := 0
  hungIndex : Nat := 0
  /-- the bodies of the commands that its three Gleaners held at the start -/
  glns : List (List Nat) := []
  complete : Bool := false
  deriving DecidableEq, Repr

/-- A flight sample as it is held (R471 to R473): its bytes are computed from it. -/
structure Sample where
  fence : Fence
  drainNs : Nat
  /-- the first 64 KiB of the partition's scratchpads: their listed cells, and the resets their tiles have been through -/
  spad : List Host.Cell
  gens : SMap Nat
  /-- the 72 state blocks -/
  blocks : List Nat
  /-- (tag, descriptor) of the descriptor section -/
  descs : List (Nat × Nat)
  /-- 256 Wain and 16 collective contexts -/
  chans : List Nat
  /-- the commands each of the three Gleaners held -/
  glns : List (List Nat)
  deriving DecidableEq, Repr

/-- A replay in progress (R476). -/
structure Replay where
  suspects : List (Nat × Nat)
  next : Nat := 0
  ms : Nat
  startedAt : Nat
  hung : List Nat := []
  skipped : Nat := 0
  deriving DecidableEq, Repr

structure Faults where
  /-- per partition -/
  fences : SMap Fence := []
  samples : SMap Sample := []
  replays : SMap Replay := []
  /-- the start of a partition's reset -/
  resets : SMap Nat := []
  /-- (job, instant) of the ABORTs sent or received (R468) -/
  aborts : List (Nat × Nat) := []
  /-- ABORTs for no local member since the last boundary, and the last JOB -/
  strayAborts : Nat := 0
  strayJob : Nat := 0
  /-- oldest first -/
  buffer : List LogEntry := []
  dropped : Nat := 0
  nextSeq : Nat := 0
  /-- the store's entries, oldest first -/
  store : List LogEntry := []
  boot : Nat := 0
  deriving DecidableEq, Repr

/-! ## Keys and sessions (19) -/

/-- A path's SPDM session (R437, R440, R441): paths 0 to 4 are the functions. -/
structure Spdm where
  /-- the digest of the offer that the next KEY_EXCHANGE must carry -/
  offer : Option Nat := none
  /-- a secure session is held -/
  held : Bool := false
  /-- mutually authenticated: the path's credential is live -/
  live : Bool := false
  attested : Bool := false
  epoch : Nat := 0
  deriving DecidableEq, Repr

structure Keys where
  alarms : Nat := 0
  drbgFailed : Bool := false
  /-- paths 0 to 4 -/
  spdm : SMap Spdm := []
  /-- key 4 * partition + slot: (KEY_ID, key) -/
  model : SMap (Nat × Nat) := []
  rotations : Nat := 0
  linkEnc : Bool := false
  /-- receivers accept both modes until this many further boundaries have passed (R455) -/
  graceTicks : Nat := 0
  /-- Winnow in progress, per partition: (start, reduced) -/
  winnow : SMap (Nat × Bool) := []
  /-- a Winnow's phase was slowed or a switch-over gap fell in it (R459) -/
  winnowSlow : SMap Bool := []
  deriving DecidableEq, Repr

end Sys2Proof.Machine
end

