-- ==== Sys2Proof/Machine/Parts/Tile.lean ====
section
/-!
DEFINITION. Machine/Parts/Tile.lean: the plain data of the tiles (03, 04), of the channels of Table 5-1 and of the Wain
engines (05). A descriptor is its 512 bits as a number.
-/
namespace Sys2Proof.Machine

/-- A descriptor issued by a queue and not ended (04 R97, R99). -/
structure Issued where
  core : Nat
  /-- the ISSUED value just before its issue (Table 4-6) -/
  index : Nat
  desc : Nat
  /-- stream-out: blocks sent -/
  sent : Nat := 0
  issuedAt : Nat := 0
  /-- requests sent for it and not answered: their SEQ values -/
  reqs : List Nat := []
  /-- its requests have been sent -/
  started : Bool := false
  /-- the first failure of its own requests: its CAUSE -/
  fail : Option Nat := none
  /-- Gleaner descriptor: the STATUS the completion brought, and GLN_TIMEOUT at its issue in ns -/
  done : Option Nat := none
  limit : Nat := 0
  deriving DecidableEq, Repr

/-- What stalls a core at a CSR access (04 R92, R95; 03 R530). -/
inductive CoreStall where
  | push (desc : Nat)
  | vseed (value : Nat)
  | sheafNext
  | boardLoad (seq : Nat)
  deriving DecidableEq, Repr

/-- One sequencer core and its work queue: key 4 * logical tile + core. -/
structure Core where
  /-- WQ_D0 to WQ_D7 -/
  stage : SMap Nat := []
  ccSel : Nat := 0
  park : Bool := false
  wdog : Nat := 16
  queue : List Nat := []
  halted : Bool := false
  issued : Nat := 0
  completed : Nat := 0
  errCause : Nat := 0
  errType : Nat := 0
  errIndex : Nat := 0
  stall : Option CoreStall := some .sheafNext
  /-- SHEAF_DONE written since the latest release -/
  done : Bool := false
  /-- SHEAF_NEXT read since the latest release -/
  nextRead : Bool := true
  /-- boundaries without progress of a queue that is not EMPTY (R94), and progress made since the last -/
  idleTicks : Nat := 0
  progress : Bool := false
  /-- failures held for a FENCE, earliest first (R110) -/
  fails : List Nat := []
  /-- writes of this queue's COPYs outstanding: SEQ, and the index of the COPY -/
  writes : List (Nat × Nat) := []
  /-- SEQ values of this core's board stores outstanding (R90) -/
  stores : List Nat := []
  /-- the trap registers (04 R89, R96; 20 Table 20-6) -/
  mepc : Nat := 0
  mcause : Nat := 0
  mtval : Nat := 0
  deriving DecidableEq, Repr

/-- One engine of a tile: the descriptors it holds in issue order, and its stall detector (20 R463). -/
structure Engine where
  jobs : List Issued := []
  idleTicks : Nat := 0
  progress : Bool := false
  /-- the queue it takes from next (R97) -/
  nextCore : Nat := 0
  deriving DecidableEq, Repr

/-- One logical tile, key 0 to 287. -/
structure Tile where
  vseed : Nat := 0
  /-- the 64 generator states; none while they are those of VSEED 0 (03 R83) -/
  gens : Option (List (BitVec 64)) := none
  /-- Table 3-7 -/
  flags : BitVec 8 := 0
  sheafTick : Nat := 0
  sheafSeq : Nat := 0
  eccCorr : Nat := 0
  eccUncorr : Nat := 0
  movable : Bool := false
  /-- accumulators: key 8192 * acc + 128 * m + n -/
  accs : SMap (BitVec 32) := []
  matrix : Engine := {}
  vector : Engine := {}
  dma : Engine := {}
  stream : Engine := {}
  fwd : Engine := {}
  sync : Engine := {}
  deriving DecidableEq, Repr

/-- A channel context, Table 5-1. -/
structure Chan where
  enable : Bool := false
  prio : Bool := false
  halted : Bool := false
  errCause : Nat := 0
  errReason : Nat := 0
  rate : Nat := 256
  ageUs : Nat := 8
  dbCc : Nat := 0
  ringEntries : Nat := 0
  ringSpace : Nat := 0
  ringEid : Nat := 0
  ringAddr : Nat := 0
  head : Nat := 0
  done : Nat := 0
  deriving DecidableEq, Repr

/-- A descriptor a Wain channel has fetched and not completed (05 R131). -/
structure WainWork where
  desc : Nat
  /-- ring index: HEAD at its fetch -/
  index : Nat
  /-- elements whose reads have been issued, and elements written -/
  read : Nat := 0
  written : Nat := 0
  deriving DecidableEq, Repr

/-- A burst in the buffer (R121). -/
structure Burst where
  /-- channel, descriptor and its ring index -/
  chan : Nat
  index : Nat
  desc : Nat
  /-- elements of the COPY that it carries -/
  first : Nat
  count : Nat
  /-- the reads it still waits for, by their place in the burst, and the bytes that have come -/
  waits : List Nat := []
  parts : SMap (List Byte) := []
  /-- reads that failed: their elements are not written -/
  failed : List Nat := []
  deriving DecidableEq, Repr

/-- The work state of a channel (R129 to R134): key 32 * engine + channel, engine 8 * partition + w. -/
structure ChanWork where
  work : List WainWork := []
  /-- writes outstanding: (SEQ, ring index) -/
  writes : List (Nat × Nat) := []
  /-- failed writes that no FENCE has reported -/
  fails : List Nat := []
  tokens : Nat := 0
  tokensAt : Nat := 0
  /-- since when it has been eligible and not selected -/
  waitSince : Option Nat := none
  promotedAt : Option Nat := none
  idleTicks : Nat := 0
  progress : Bool := false
  deriving DecidableEq, Repr

structure WainEngine where
  /-- bursts that wait for reads, and bursts complete in the buffer, in the order they became complete -/
  bursts : List Burst := []
  full : List Burst := []
  /-- the channels last served in the high and the normal class -/
  lastHigh : Nat := 31
  lastNormal : Nat := 31
  deriving DecidableEq, Repr

structure Wain where
  chans : SMap Chan := []
  works : SMap ChanWork := []
  engines : SMap WainEngine := []
  deriving DecidableEq, Repr

end Sys2Proof.Machine
end

