-- ==== Sys2Proof/Machine/Parts/Coll.lean ====
section
/-!
DEFINITION. Machine/Parts/Coll.lean: the plain data of the Threshers, the Granary and collective operations (11).
-/
namespace Sys2Proof.Machine

/-- A chunk of the own shard (R284, R290 to R292). -/
structure Chunk where
  /-- contribution elements counted, of M times the chunk's length -/
  got : Nat := 0
  /-- elements that have had a contribution; in Granary mode with FP32 bits or the 96-bit sum of Bushel -/
  acc : SMap Int := []
  /-- special values that arrived: bit 0 +Inf, bit 1 -Inf, bit 2 NaN -/
  special : SMap Nat := []
  flags : BitVec 8 := 0
  /-- bytes came after the count was reached (R296) -/
  overfilled : Bool := false
  /-- converted: the bytes in OUT_FMT -/
  out : Option (List Byte) := none
  deriving DecidableEq, Repr

/-- An open collective at a member (R280). -/
structure OpenColl where
  /-- member's partition, group, and the descriptor -/
  part : Nat
  job : Nat
  group : Nat
  seq : Nat
  desc : Nat
  rank : Nat
  m : Nat
  launchAt : Nat
  /-- the timeout runs from here: launch or the latest arrival (R299) -/
  waitFrom : Nat
  timeoutNs : Nat
  ready : List Nat := []
  arrived : List Nat := []
  /-- exponents received for the own shard: key 64 * stripe + rank -/
  exps : SMap (List Nat) := []
  /-- agreed exponents: key 2^32 * owner + chunk -/
  agreed : SMap Nat := []
  /-- own shard: chunks by number -/
  chunks : SMap Chunk := []
  /-- own shard: stripes in Gleaner mode -/
  gleaner : List Nat := []
  /-- own shard: slots held by stripe -/
  slots : SMap Nat := []
  /-- sent: exponents as 2^16 * owner + stripe; data as 2^32 * owner + chunk, or the rank alone -/
  sentExp : List Nat := []
  sentData : List Nat := []
  /-- own chunks' results sent: 2^32 * receiver + chunk -/
  sentRes : List Nat := []
  /-- elements contributed to the own shard, and result bytes received, by rank -/
  contribFrom : SMap Nat := []
  resultFrom : SMap Nat := []
  /-- bytes streamed in so far (R296) -/
  streamed : Nat := 0
  /-- DST bytes written and acknowledged -/
  written : Nat := 0
  flags : BitVec 8 := 0
  /-- the latest COLL_READY or COLL_ARRIVE needed: sender and lag (R298) -/
  lagRank : Option Nat := none
  lagNs : Nat := 0
  deriving DecidableEq, Repr

/-- A pending entry of a sequence not yet open (R282, R300): rank with signature, arrivals, and a failure. -/
structure PendEntry where
  ready : List (Nat × Nat) := []
  arrive : List Nat := []
  fail : Option Nat := none
  deriving DecidableEq, Repr

/-- A group record at a member (R272, Table 11-11). -/
structure Group where
  job : Nat
  group : Nat
  part : Nat
  rank : Nat
  /-- (logical package, partition) by rank -/
  members : List (Nat × Nat)
  timeoutUs : Nat := 2000
  lastSeq : Nat := 0
  lastRank : Nat := 0
  lagNs : Nat := 0
  maxLag : Nat := 0
  completed : Nat := 0
  failed : Nat := 0
  timeouts : Nat := 0
  granary : Nat := 0
  gleaner : Nat := 0
  lastCount : SMap Nat := []
  pend : SMap PendEntry := []
  /-- sequences that failed, with the instant (R301) -/
  closed : List (Nat × Nat) := []
  /-- descriptors handed over and not launched, oldest first -/
  waiting : List Nat := []
  deriving DecidableEq, Repr

structure Coll where
  groups : List Group := []
  opens : List OpenColl := []
  /-- collective channels: key 16 * partition + channel -/
  chans : SMap Chan := []
  /-- the descriptor a channel has fetched and not handed over, with its ring index -/
  heads : SMap (Nat × Nat) := []
  unknown : Nat := 0
  readyDrops : Nat := 0
  /-- OVERFILL in 32-byte units, with the bytes below one unit -/
  overfill : Nat := 0
  overBytes : Nat := 0
  slotsFree : Nat := 1536
  slotsMin : Nat := 1536
  /-- slots charged to each partition (R276) -/
  charged : SMap Nat := []
  /-- boundaries without progress of each Thresher, and progress since the last -/
  idle : SMap Nat := []
  progress : List Nat := []
  deriving DecidableEq, Repr

end Sys2Proof.Machine
end

