-- ==== Sys2Proof/Machine/Parts/Control.lean ====
section
/-!
DEFINITION. Machine/Parts/Control.lean: the plain data of the frame tick (02), the Event Hub (14), the Haywards and
mailboxes (13), the partitions and sessions and the staged changes (15).
-/
namespace Sys2Proof.Machine

/-! ## The frame tick (02) -/

/-- The generator's states, Table 2-2. -/
inductive SyncState where
  | acquiring | locked | freeRun | halted
  deriving DecidableEq, Repr

/-- The RC counters of the TICK_ block, one copy per PCIe function (R54, Table 2-13). -/
structure TickRc where
  oow : Nat := 0
  miss : Nat := 0
  loss : Nat := 0
  correct : Nat := 0
  deriving DecidableEq, Repr

/-- What the package holds of one partition's releases (R46, R49 to R51). -/
structure Release where
  /-- release sequence number, 32 bits -/
  seq : Nat := 0
  /-- TICK_COUNT of the latest release -/
  tick : Nat := 0
  /-- a sheaf is released and not complete -/
  out : Bool := false
  /-- boundaries passed since that release -/
  since : Nat := 0
  late : Bool := false
  lag : Nat := 0
  /-- a PART_STOP committed while the sheaf runs on: it is never judged late (R50) -/
  excused : Bool := false
  deriving DecidableEq, Repr

/-- The superframe of R34 as it arrives. -/
structure Superframe where
  /-- position 0 to 64, or 127 when not aligned (Table 2-11) -/
  pos : Nat := 0
  /-- a marker has been received and every tick since -/
  aligned : Bool := false
  value : Nat := 0
  /-- a whole superframe: its value and the boundaries still to pass before it is compared -/
  whole : Option (Nat × Nat) := none
  deriving DecidableEq, Repr

/-- An entry of the per-job overrun log, Table 15-21. -/
structure OverrunEntry where
  noticeTick : Nat
  job : Nat
  lpkg : Nat
  part : Nat
  lag : Nat
  cause : Nat
  deriving DecidableEq, Repr

structure Tick where
  count : BitVec 64 := 0
  periodUs : Nat := 50
  nextUs : Nat := 0
  nextValid : Bool := false
  periodAt : BitVec 64 := 0
  /-- the generator runs from the end of stage S2 (R38) -/
  running : Bool := false
  state : SyncState := .acquiring
  countValid : Bool := false
  localCount : Bool := false
  missRun : Nat := 0
  goodRun : Nat := 0
  sf : Superframe := {}
  lastOffset : Int := 0
  /-- per function 0 to 4 -/
  rc : SMap TickRc := []
  /-- OVERRUN_COUNT shares: key 4 * function + partition -/
  overruns : SMap Nat := []
  /-- per partition -/
  rel : SMap Release := []
  /-- the instant windows are measured from: the previous boundary, or 40 ns after the relocking edge (R38) -/
  base : Nat := 0
  /-- the instant of the previous boundary -/
  prev : Nat := 0
  /-- an edge has been accepted in this frame -/
  edgeSeen : Bool := false
  /-- FREE_RUN: an in-window edge has been seen for the last and for the next local tick -/
  seenLast : Bool := true
  seenNext : Bool := false
  /-- a boundary is to be made at this instant -/
  due : Option Nat := none
  /-- the base the next window takes instead of the boundary's own instant -/
  rebase : Option Nat := none
  /-- the overrun log of the frame in progress, oldest first, at most 64 (R53, R375) -/
  log : List OverrunEntry := []
  logLost : Nat := 0
  deriving DecidableEq, Repr

/-! ## The Event Hub (14) -/

/-- One source in one function (R349). -/
structure EvtBit where
  pend : Bool := false
  dlvd : Bool := false
  mask : Bool := true
  vec : Nat := 0
  deriving DecidableEq, Repr

/-- A filtered pin (R350). -/
structure Filter where
  level : Bool := false
  glitches : Nat := 0
  deriving DecidableEq, Repr

structure Evt where
  /-- key 512 * function + source -/
  bits : SMap EvtBit := []
  /-- sources waiting for the active Hayward while no Hayward takes events (R355) -/
  heldHay : List Nat := []
  /-- pins 0 FLOW_OK, 1 SHED_N, 2 PG_IN -/
  pins : SMap Filter := []
  /-- 32 entries; 0xFFFF is empty (R358) -/
  watch : List Nat := [12, 128, 224, 320, 416] ++ List.replicate 27 0xFFFF
  held : Bool := false
  wakeValid : Bool := false
  wakeEntry : Nat := 0
  wakePriv : Bool := false
  wakes : Nat := 0
  /-- a wake request stands (R359, 16 R396) -/
  wakeReq : Bool := false
  deriving DecidableEq, Repr

/-! ## The Haywards and the mailboxes (13) -/

/-- STATE of Table 13-2. -/
inductive HayState where
  | off | selftest | active | standby | failed
  deriving DecidableEq, Repr

/-- One Hayward (Table 13-2). -/
structure Hayward where
  state : HayState := .off
  lastPass : Bool := false
  lastFail : Nat := 0
  healthyS : Nat := 0
  uptimeS : Nat := 0
  sramCorr : Nat := 0
  failCount : Nat := 0
  restarts : Nat := 0
  activations : Nat := 0
  fwVersion : Nat := 0
  reportSeq : Nat := 0
  /-- the instant of the latest report -/
  reportAt : Option Nat := none
  /-- the instants of its failures (R329) -/
  fails : List Nat := []
  /-- its island is to be restarted at this instant (R329) -/
  restartAt : Option Nat := none
  deriving DecidableEq, Repr

/-- What a command in progress is doing (R332, R341). -/
inductive BgKind where
  | partReset | sessionEnd (parts : List Nat) | powerState | cellarRelease | baleLoad (dst len : Nat)
  | frameMove (session group frame dst : Nat) | replay | fwStage | partFence | bufAlloc (asked : List Nat) (askedAt : Nat)
  | storeWait
  deriving DecidableEq, Repr

/-- A command in flight: taken from its mailbox, its final response not yet posted (R330, R341). -/
structure InFlight where
  mb : Nat
  opcode : Nat
  seq : Nat
  ploc : Nat := 0
  buf : Nat := 0
  part : Nat := 0
  hostAddr : Nat := 0
  kind : BgKind
  takenAt : Nat
  /-- the instant the latest estimate runs out; none where no IN_PROGRESS has been posted -/
  estEnd : Option Nat := none
  /-- its response is discarded (R344, R345) -/
  discarded : Bool := false
  /-- the management session or function it came on, for a response that is discarded when that closes -/
  params : Nat := 0
  deriving DecidableEq, Repr

/-- A mailbox (Table 13-5). The ring counts run modulo 2^32. -/
structure Mailbox where
  reqTail : Nat := 0
  reqHead : Nat := 0
  rspTail : Nat := 0
  rspHead : Nat := 0
  overrun : Bool := false
  irqEn : Bool := true
  violCount : Nat := 0
  /-- the instants of the violations counted toward R343 -/
  viols : List Nat := []
  throttledUntil : Option Nat := none
  lastTaken : Option Nat := none
  /-- the instant since which a command has waited -/
  waitSince : Option Nat := none
  promoted : Bool := false
  /-- responses that wait for a free slot: the slot and its window payload -/
  rspWait : List (Nat × List Byte) := []
  deriving DecidableEq, Repr

structure Mbx where
  /-- 0 Hayward A, 1 Hayward B -/
  hay : SMap Hayward := []
  activeId : Nat := 0
  /-- a switch-over is in progress (R327) -/
  busy : Bool := false
  busySince : Nat := 0
  headless : Bool := false
  /-- mailboxes 0 to 6 -/
  boxes : SMap Mailbox := []
  flight : List InFlight := []
  /-- the latest mailbox of the high and of the normal class that was served (R332) -/
  lastHigh : Nat := 5
  lastNormal : Nat := 6
  /-- since when no command has been in flight (R330) -/
  quietSince : Nat := 0
  /-- the management TLS session (R345) -/
  mgmtLive : Bool := false
  mgmtAddr : Option (Nat × Nat) := none
  /-- I3C: a request taken in, and a response not yet read (R346) -/
  i3cReq : Option Nat := none
  i3cRsp : Option Nat := none
  /-- the last write of the AON watchdog (R324) -/
  watchdogAt : Nat := 0
  deriving DecidableEq, Repr

/-! ## Package, partitions, sessions (15) -/

/-- Table 15-1. -/
inductive PkgState where
  | bringup | unconfigured | configured
  deriving DecidableEq, Repr

/-- Table 15-2. -/
inductive PState where
  | free | assigned | running | fenced | resetting | winnowing | failed | dormant
  deriving DecidableEq, Repr

/-- A partition (Tables 15-2, 15-10). -/
structure Part where
  st : PState := .free
  stateTick : Nat := 0
  /-- the state a DORMANT partition returns to (16 R395) -/
  recorded : PState := .free
  session : Nat := 0
  /-- hash of the tenant credential the session is bound to (19 R438) -/
  bind : Option Nat := none
  jobs : List Nat := []
  defaultJob : Nat := 0
  deriving DecidableEq, Repr

/-- A change held in the shadow registers (02 R43, 15 R365). -/
inductive Change where
  /-- (item, scope index, value) of a CONFIG_SET -/
  | config (slots : List (Nat × Nat × Nat))
  | lpt (entries : List Nat)
  /-- sustained, burst, shed, orphan in W (0 keeps), lease in ms -/
  | grant (sustained burst shed orphan leaseMs : Nat)
  | partCap (p w : Nat)
  | mode (m : Nat)
  | partStart (p : Nat)
  | partStop (p : Nat)
  | placement (p mode n : Nat)
  | movable (p first count : Nat) (on : Bool)
  | linkEnc (on : Bool)
  | cellarKey (p : Nat)
  | linkKey
  | fwActivate
  deriving DecidableEq, Repr

structure Staged where
  /-- the tick named, or none for the earliest boundary -/
  tick : Option Nat
  /-- the instant of staging -/
  at_ : Nat
  change : Change
  deriving DecidableEq, Repr

/-- The telemetry snapshot's header and overrun log (15 R375); its other sections are read from State when it is built. -/
structure Snapshot where
  tick : Nat
  frameNs : Nat
  lost : Nat
  log : List OverrunEntry
  /-- the bytes of sections 1 to 4, 6 and 7, as (section, record index, bytes) -/
  sections : List (Nat × Nat × List Byte)
  deriving DecidableEq, Repr

structure Sess where
  /-- none before the end of stage S2 -/
  pkg : Option PkgState := none
  parts : SMap Part := []
  /-- configuration items in force: key 16 * item + scope index (partition 0 to 3, package 4, stack 0 to 11) -/
  cfg : SMap Nat := []
  staged : List Staged := []
  stagedDropped : Nat := 0
  snapshots : List Snapshot := []
  deriving DecidableEq, Repr

end Sys2Proof.Machine
end

