-- ==== Sys2Proof/Machine/Parts/Ethernet.lean ====
section
/-!
DEFINITION. Machine/Parts/Ethernet.lean: the plain data of the Ethernet ports, the QPs and the memory regions (12).
-/
namespace Sys2Proof.Machine

/-- State of a QP (15 Table 15-8 TO_STATE). -/
inductive QpState where
  | reset | init | rtr | rts | error
  deriving DecidableEq, Repr

/-- A work request a ring has fetched and not completed. -/
structure QpWork where
  desc : Nat
  /-- HEAD at its fetch: its ring index is this modulo the ring's entries -/
  index : Nat
  /-- sent: its first PSN and its packets; for RECV, posted -/
  sent : Bool := false
  psn : Nat := 0
  packets : Nat := 0
  /-- how it ends, once that is known: STATUS of Table 12-5, bytes moved, immediate data -/
  ends : Option (Nat × Nat × Nat) := none
  deriving DecidableEq, Repr

/-- A QP (12 R315 to R321). -/
structure Qp where
  part : Nat
  port : Nat
  gid : Nat
  pmtu : Nat
  st : QpState := .reset
  destGid : Nat := 0
  destQpn : Nat := 0
  /-- the next PSN sent, and the next expected -/
  sqPsn : Nat := 0
  rqPsn : Nat := 0
  ackN : Nat := 0
  retry : Nat := 0
  rnr : Nat := 0
  destMac : Nat := 0
  vlan : Nat := 0
  vlanEn : Bool := false
  send : Chan := {}
  recv : Chan := {}
  sendWork : List QpWork := []
  recvWork : List QpWork := []
  /-- the completion ring: entries of 32 bytes, oldest first (log 25) -/
  cq : List Nat := []
  /-- the ACK timer's start, and retries used since the last ACK -/
  timer : Option Nat := none
  tries : Nat := 0
  rnrTries : Nat := 0
  /-- sending waits until this instant: the rate, or an RNR NAK's time -/
  nextAt : Nat := 0
  /-- Gb/s -/
  rate : Rat := 800
  lastCut : Option Nat := none
  /-- the instant the 55 us of R321 run from -/
  rateAt : Nat := 0
  lastCnpSent : Option Nat := none
  deriving DecidableEq, Repr

/-- A memory region (R317); its key is the R_KEY. -/
structure MemRegion where
  part : Nat
  session : Nat
  /-- key of the buffer -/
  buf : Nat
  base : Nat
  len : Nat
  /-- bit 0 remote read, bit 1 remote write -/
  rights : Nat
  deriving DecidableEq, Repr

/-- A GID table entry. -/
structure Gid where
  addr : Nat := 0
  owner : Nat := 7
  deriving DecidableEq, Repr

structure EthPort where
  linkUp : Bool := false
  discards : Nat := 0
  /-- the receive buffer: RoCE frames that wait, oldest first -/
  rx : List EthFrame := []
  /-- XOFF has been sent and XON has not -/
  xoff : Bool := false
  /-- per priority: paused until -/
  paused : SMap Nat := []
  deriving DecidableEq, Repr

structure Eth where
  ports : SMap EthPort := []
  /-- key 16 * port + index -/
  gids : SMap Gid := []
  qps : SMap Qp := []
  mrs : SMap MemRegion := []
  deriving DecidableEq, Repr

end Sys2Proof.Machine
end

