-- ==== Sys2Proof/Machine/Parts/Fabric.lean ====
section
/-!
DEFINITION. Machine/Parts/Fabric.lean: the plain data of lanes and links (09), of packets, switch and requests (10).
-/
namespace Sys2Proof.Machine

/-! ## Lanes and links (09) -/

/-- LSTATE of a receive lane (Table 9-8). -/
inductive LState where
  | off | training | inService | retrain | failed | disabled | miswired
  deriving DecidableEq, Repr

/-- STATE of a link (Table 9-6). -/
inductive LinkState where
  | disabled | down | training | up | degraded | miswired | lost
  deriving DecidableEq, Repr

/-- A packet: its header flit as a number and its payload. -/
structure Pkt where
  hdr : Nat
  pay : List Byte := []
  deriving DecidableEq, Repr

/-- A receive lane and its transmitter's taps (Table 9-8, R227 to R232). -/
structure Lane where
  corrSym : Nat := 0
  uncorrCw : Nat := 0
  /-- most symbols corrected in one codeword: of the last window, and so far in this one -/
  maxSym : Nat := 0
  curMax : Nat := 0
  /-- 0.1 dB -/
  margin : Int := 0
  snr : Nat := 0
  lstate : LState := .off
  lastCause : Nat := 0
  drops : Nat := 0
  retrains : Nat := 0
  /-- pre2, pre1, main, post1, post2 -/
  taps : List Int := [0, 0, 0, 0, 0]
  dfe1 : Int := 0
  ctle : Nat := 0
  /-- uncorrectable codewords in this window, and in a row -/
  winUncorr : Nat := 0
  runUncorr : Nat := 0
  /-- windows below DROP in a row -/
  belowDrop : Nat := 0
  /-- instants of failed retrains -/
  fails : List Nat := []
  lastMarginEvt : Option Nat := none
  /-- the end of the latest margin window -/
  winAt : Nat := 0
  /-- last step of each tap -/
  tapAt : SMap Nat := []
  signal : Bool := false
  /-- entries to service under the link's current key, and codewords since the latest (19 R454) -/
  resync : Nat := 0
  cw : Nat := 0
  lostAt : Option Nat := none
  /-- body flits are discarded until the next head flit that is not a link flit (R218) -/
  skip : Bool := false
  /-- the packet whose body is arriving: header, flits so far, flits still expected -/
  rx : Option (Nat × List Nat × Nat) := none
  /-- head flits with their payload that have arrived whole and wait for the step that handles them -/
  arrived : List Pkt := []
  deriving DecidableEq, Repr

/-- A packet in an output queue of a link (R253 to R257). -/
structure OutPkt where
  pkt : Pkt
  entered : Nat
  /-- the receive link whose share holds it; none for the package's own packets -/
  from_ : Option Nat
  /-- flits it holds in that share -/
  heldFlits : Nat := 0
  deriving DecidableEq, Repr

/-- The credits of one pair of VC and hop class on a link (R254). -/
structure Pair where
  /-- as transmitter: credits held, and the last running count received -/
  credits : Nat := 68
  lastCount : Nat := 0
  /-- as receiver: flits granted and not freed, flits received and not freed, and the running count -/
  outstanding : Nat := 68
  held : Nat := 0
  count : Nat := 0
  deriving DecidableEq, Repr

/-- Port record of a link (Table 10-9). -/
structure Port where
  txPkts : Nat := 0
  rxPkts : Nat := 0
  txFlits : Nat := 0
  rxFlits : Nat := 0
  transit : Nat := 0
  peak : Nat := 0
  curPeak : Nat := 0
  stall : SMap Nat := []
  fecCorr : Nat := 0
  fecUncorr : Nat := 0
  ceMarked : Nat := 0
  violations : Nat := 0
  discards : Nat := 0
  deriving DecidableEq, Repr

/-- A link's keys and the agreement in progress (19 R453, R454). -/
structure LinkKey where
  /-- keys of epoch 0 and 1, as the number of the free value each was drawn as -/
  k0 : Option Nat := none
  k1 : Option Nat := none
  cur : Nat := 0
  /-- the message last sent or received whole, 1 to 3; 0 outside an agreement -/
  msg : Nat := 0
  /-- this end is the initiator of the agreement or rotation -/
  init : Bool := false
  /-- a rotation is ordered or in progress, and its flip tick -/
  rotation : Bool := false
  flipTick : Nat := 0
  /-- a refused peer: the agreement is tried again at this instant -/
  retryAt : Option Nat := none
  /-- a rotation's keys fill the free epoch since this instant, and the switch waits for step 5 -/
  readyAt : Option Nat := none
  /-- boundaries left until the old epoch is destroyed -/
  destroyIn : Option Nat := none
  /-- fragments received of the message in progress -/
  frags : Nat := 0
  deriving DecidableEq, Repr

/-- A link (Tables 9-6 and 9-11) with its output queue. -/
structure Link where
  state : LinkState := .down
  quarantined : Bool := false
  /-- lanes on which the far end, and this end, accepts packets -/
  txLanes : Nat := 0
  rxLanes : Nat := 0
  ctrlLost : Bool := false
  ctrlRun : Nat := 0
  peerId : Nat := 0
  attempts : Nat := 0
  losEvents : Nat := 0
  /-- the instant a new attempt starts, and the start of the attempt in progress -/
  retryAt : Option Nat := none
  trainStart : Option Nat := none
  /-- the output queue, oldest first -/
  queue : List OutPkt := []
  pairs : SMap Pair := []
  deficit : SMap Nat := []
  ptr : Nat := 1
  /-- per VC: the hop class last sent -/
  lastHop : SMap Nat := []
  /-- per VC: since when it could start and was not chosen -/
  since : SMap Nat := []
  promoted : List Nat := []
  /-- none: MARK_K0 -/
  markK : Option Nat := none
  /-- the mark window: time above K per VC, packets marked, the last change of the queue -/
  overK : SMap Nat := []
  winMarked : Nat := 0
  /-- the end of the latest mark window -/
  winAt : Nat := 0
  touched : Nat := 0
  /-- violations toward quarantine in this frame, captures in the millisecond -/
  viols : Nat := 0
  capMs : Nat := 0
  capN : Nat := 0
  port : Port := {}
  key : LinkKey := {}
  deriving DecidableEq, Repr

/-! ## Requests (10) -/

/-- What a request was sent for. -/
inductive ReqOwner where
  /-- a write of a tile DMA COPY, or of a stream-out: core -/
  | copy (core : Nat)
  | put (core : Nat)
  /-- a read of a COPY: core, descriptor index, scratchpad offset its answer goes to -/
  | copyRead (core index dst : Nat)
  | sync (core index : Nat)
  | forward (core index : Nat)
  | store (core addr : Nat)
  | load (core addr len : Nat)
  /-- a Wain channel's COPY: key of the channel, ring index -/
  | wainWrite (chan index : Nat)
  /-- a Wain burst's read: channel, ring index, first element, place of the request in the burst -/
  | wainRead (chan index first k : Nat)
  /-- a write of a collective result: partition's open collective -/
  | coll (id : Nat)
  deriving DecidableEq, Repr

/-- Kind of a request (Table 10-2). -/
inductive ReqKind where
  | write | read | sync | gleaner
  deriving DecidableEq, Repr

/-- A request outstanding (R264, R265). -/
structure OutReq where
  /-- local endpoint 0 to 344 -/
  ep : Nat
  seq : Nat
  kind : ReqKind
  dest : Nat
  part : Nat
  bytes : Nat
  owner : ReqOwner
  /-- the instant of its injection -/
  at_ : Nat
  /-- FAB_TIMEOUT or GLN_TIMEOUT that governs it, ns -/
  limit : Nat
  deriving DecidableEq, Repr

/-- A SEQ value held after a timeout (R264). -/
structure SeqHold where
  ep : Nat
  seq : Nat
  until_ : Nat
  part : Nat
  deriving DecidableEq, Repr

/-- An acknowledgement held to be joined (R244). -/
structure HeldAck where
  ep : Nat
  destEid : Nat
  destPos : Nat
  seqs : List Nat
  echo : Bool
  route : Nat
  via : Nat
  since : Nat
  deriving DecidableEq, Repr

/-- A limiter (R261). -/
structure Limiter where
  rate : Nat
  /-- bytes -/
  bucket : Int := 16384
  filledAt : Nat := 0
  lastDec : Option Nat := none
  echo : Bool := false
  /-- the end of the latest AI_PERIOD -/
  aiAt : Nat := 0
  deriving DecidableEq, Repr

/-- Partition fabric record (Table 10-10). -/
structure PartRec where
  timeouts : Nat := 0
  late : Nat := 0
  nackRx : Nat := 0
  nackTx : Nat := 0
  noRoute : Nat := 0
  cellarTo : Nat := 0
  cellarInt : Nat := 0
  ideViol : Nat := 0
  deriving DecidableEq, Repr

/-- An entry of the capture buffer (15 VIOLATION_READ). -/
structure Capture where
  hdr : Nat
  link : Nat
  cls : Nat
  tick : Nat
  deriving DecidableEq, Repr

structure Fab where
  /-- the LPT in force: 64 raw entries of 16 bits (Table 10-5); empty where none is in force -/
  lpt : List Nat := []
  lanes : SMap Lane := []
  /-- loopback lanes: margin in 0.1 dB -/
  loop : SMap Int := []
  loopAt : Nat := 0
  links : SMap Link := []
  /-- the latest LINKMAP of each position: live bits and arrival -/
  maps : SMap (Nat × Nat) := []
  mapSent : Nat := 0
  /-- a live state has changed since the last LINKMAP was sent -/
  mapDirty : Bool := false
  sprayPtr : Nat := 0
  /-- packets of the package's own endpoints that wait to be injected, oldest first, with their arrival -/
  inject : List (Pkt × Nat) := []
  /-- packets between endpoints of this package, oldest first; the commands name it as lane 255 -/
  local_ : List Pkt := []
  limiters : SMap Limiter := []
  reqs : List OutReq := []
  holds : List SeqHold := []
  nextSeq : SMap Nat := []
  acks : List HeldAck := []
  parts : SMap PartRec := []
  classes : SMap Nat := []
  captures : List Capture := []
  deriving DecidableEq, Repr

end Sys2Proof.Machine
end

