-- ==== Sys2Proof/Machine/Parts/HostPort.lean ====
section
/-!
DEFINITION. Machine/Parts/HostPort.lean: the plain data of the PCIe endpoint (12) and of what leaves the package at its
pins and ports (log 9).
-/
namespace Sys2Proof.Machine

/-- One MSI-X table entry. -/
structure MsixVec where
  addr : Nat := 0
  data : Nat := 0
  masked : Bool := true
  deriving DecidableEq, Repr

/-- One PCIe function (12 R305, R308, R311). -/
structure Fn where
  bme : Bool := false
  /-- D3hot -/
  d3 : Bool := false
  /-- the MSI-X function mask -/
  fmask : Bool := false
  vecs : SMap MsixVec := []
  /-- pending-bit array: vectors whose message is held -/
  pba : List Nat := []
  /-- completion timeout value, ms -/
  ctoMs : Nat := 10
  deriving DecidableEq, Repr

/-- A selective IDE stream (R309): two on each of PF1 to PF4. -/
structure Ide where
  secure : Bool := false
  keySet : Bool := false
  /-- an integrity check failed and no new key set has reached Secure since -/
  failed : Bool := false
  /-- address association blocks: (base, limit), at most two -/
  assoc : List (Nat × Nat) := []
  deriving DecidableEq, Repr

structure HostPort where
  linkUp : Bool := false
  width : Nat := 0
  /-- functions 0 to 4 -/
  fns : SMap Fn := []
  /-- key 2 * function + stream -/
  ide : SMap Ide := []
  /-- SYS_ERR of each function (00 R15) -/
  sysErr : SMap Nat := []
  /-- since when function f cannot master the link (R311) -/
  blockedSince : SMap Nat := []
  deriving DecidableEq, Repr

/-- The SPDM errors of 19 R440 and R441; `other` where the spec names none. -/
inductive SpdmError where
  | unsupportedRequest | busy | invalidRequest | other
  deriving DecidableEq, Repr

/-- Answers of the SPDM responder (19 Table 19-2). -/
inductive SpdmAnswer where
  | version | capabilities | algorithms | digests | certificate | challengeAuth
  /-- measurement blocks as (index, contents), and whether the response is signed (19 R443) -/
  | measurements (blocks : List (Nat × List Nat)) (signed : Bool)
  | kemAccept (ciphertext : Nat)
  | keyExchangeRsp | finishRsp | keyUpdateAck | heartbeatAck | endSessionAck | keyProgAck
  | error (e : SpdmError)
  deriving DecidableEq, Repr

/-- What leaves the package (log 9). -/
inductive Output where
  /-- the width of a TICK_OUT pulse in ns (02 R42) -/
  | tickOut (ns : Nat)
  /-- an MSI-X message written for a vector of a function (14 R351) -/
  | msix (fn vec : Nat)
  /-- a source handed to a Hayward (14 R355): 0 A, 1 B -/
  | hayEvent (hay src : Nat)
  /-- the data of a register read, toward a PCIe function or a core -/
  | regRead (fn data : Nat)
  /-- the data of a core's CSR or board load -/
  | coreRead (core : Nat) (data : Nat)
  /-- a FENCE of a core with its board stores completes (04 R90) -/
  | fenceDone (core : Nat)
  /-- a trap taken by a sequencer core: mcause and mtval (04 R89, R96, R99) -/
  | trap (core cause tval : Nat)
  /-- a packet handed to the fabric by an endpoint or sent on a link: link 255 is the local switch -/
  | packet (link : Nat) (header : Nat) (payload : List Byte)
  /-- a link flit sent: link, kind, body -/
  | flit (link kind body : Nat)
  /-- a memory read toward the host by a function -/
  | hostRead (fn addr len : Nat)
  /-- a memory write toward the host by a function -/
  | hostWrite (fn addr : Nat) (data : List Byte)
  /-- the Cellar engine reads a sector and its record, or writes a sealed one: partition, global sector, KEPOCH, WCOUNT, PMAP
  (07 R186, R187) -/
  | cellarRead (part sector : Nat)
  | cellarWrite (part sector epoch count pmap : Nat)
  /-- a completion toward the host: status 0 OK, 1 Unsupported Request, 2 Completer Abort, 3 poisoned (EP) -/
  | hostCpl (fn status : Nat) (data : List Byte)
  /-- a response on the management port (13 R345) -/
  | mgmtRsp (slot : Nat) (data : List Byte)
  /-- a management connection accepted or refused -/
  | mgmtConn (accepted : Bool)
  /-- I3C: an in-band interrupt with its mandatory byte -/
  | i3cIbi (byte : Nat)
  /-- I3C: an address header NACKed -/
  | i3cNack
  /-- I3C: the 64 bytes of a private read -/
  | i3cRead (slot : Nat)
  /-- a frame sent on an Ethernet port: kind, QP or entry, body -/
  | ethFrame (port kind obj : Nat) (data : List Byte)
  /-- an answer on the DOE of a function -/
  | spdm (path : Nat) (answer : SpdmAnswer)
  /-- a setpoint written to a regulator over AVSBus: rail, mV -/
  | avsSet (rail mV : Nat)
  /-- a message between Haywards on endpoint 344 (10 R242) -/
  | hayMsg (pos kind : Nat) (body : List Nat)
  /-- a fuse burn -/
  | fuseBurn (what value : Nat)
  deriving DecidableEq, Repr

end Sys2Proof.Machine
end

