-- ==== Sys2Proof/Machine/Parts/Memory.lean ====
section
/-!
DEFINITION. Machine/Parts/Memory.lean: the plain data of the Gleaners (06), the stacks and Cellars (07) and placement (08).
-/
namespace Sys2Proof.Machine

/-! ## Gleaners (06) -/

/-- Who is told of a Gleaner command's completion (R149). -/
inductive GlnFrom where
  /-- a tile's forwarder: core, index of the descriptor -/
  | tile (core index : Nat)
  /-- a VC4 packet: its header -/
  | vc4 (hdr : Nat)
  /-- Hayward's firmware queue -/
  | firmware
  /-- a piece of a split command: the Gleaner that received it and the command's number there -/
  | piece (gln id : Nat)
  deriving DecidableEq, Repr

/-- A command or piece held by a Gleaner. -/
structure GlnCmd where
  /-- bits 511:64 at their own bit numbers, bits 63:0 zero -/
  body : Nat
  src : GlnFrom
  arrived : Nat
  /-- session value of the requester -/
  ses : Nat := 0
  deriving DecidableEq, Repr

/-- A split command whose pieces are outstanding, or a command that has run and waits for its acknowledgements. -/
structure GlnOpen where
  id : Nat
  cmd : GlnCmd
  /-- pieces outstanding -/
  pieces : Nat := 0
  status : Nat := 0
  reason : Nat := 0
  flags : BitVec 8 := 0
  result : Nat := 0
  first : Nat := 0
  deriving DecidableEq, Repr

structure Gleaner where
  fw : List GlnCmd := []
  high : List GlnCmd := []
  normal : List GlnCmd := []
  running : Option GlnCmd := none
  /-- since when the head of the normal queue has been its head -/
  headSince : Option Nat := none
  promoted : Bool := false
  opens : List GlnOpen := []
  nextId : Nat := 0
  idleTicks : Nat := 0
  progress : Bool := false
  deriving DecidableEq, Repr

/-! ## Stacks (07) -/

/-- A lane of a pseudo-channel: key 36 * pc + lane (R172 to R175). -/
structure StkLane where
  delay : Nat := 64
  offset : Nat := 16
  /-- the codewords, counted on its pseudo-channel, in which an error was located on it -/
  errAt : List Nat := []
  /-- 0 unmarked, 1 by count, 2 by eye -/
  marked : Nat := 0
  deriving DecidableEq, Repr

structure PseudoChan where
  /-- codewords read -/
  cws : Nat := 0
  lastRead : Nat := 0
  degraded : Bool := false
  deriving DecidableEq, Repr

structure Stack where
  lanes : SMap StkLane := []
  pcs : SMap PseudoChan := []
  /-- lines (SA div 128) that read as uncorrectable, and poisoned lines -/
  bad : List Nat := []
  poisoned : List Nat := []
  /-- lines whose corrected data waits to be written back -/
  writeBack : List Nat := []
  patrolLevel : Nat := 0
  /-- next line of the patrol -/
  patrolPos : Nat := 0
  corrInterval : Nat := 0
  quietRun : Nat := 0
  /-- the end of the latest 60 s interval (R178) -/
  patrolAt : Nat := 0
  corrLines : Nat := 0
  uncorrLines : Nat := 0
  poisonReads : Nat := 0
  testMismatch : Nat := 0
  retired : List Nat := []
  failed : Bool := false
  selfRefresh : Bool := false
  linkUp : Bool := false
  trained : Bool := false
  /-- hottest core-die reading during the retention holds -/
  peak : Nat := 0
  lastMarginEvt : Option Nat := none
  deriving DecidableEq, Repr

/-- The memory test of S6 (R181, R182): the step last begun and the test's start. -/
structure MemTest where
  full : Bool
  start : Nat
  step : Nat
  deriving DecidableEq, Repr

/-! ## Cellar (07 R184 to R189, 19 R450) -/

/-- A written sector's true state (R186); an absent sector is unwritten. -/
structure Sector where
  epoch : Nat := 0
  count : Nat := 0
  /-- marked poisoned in the counter table (19 R451) -/
  poisoned : Bool := false
  /-- PMAP of its record -/
  pmap : Nat := 0
  /-- the 4 KiB last sealed: a sector that R186 accepts opens to exactly these (log 14) -/
  data : List Byte := []
  deriving DecidableEq, Repr

/-- A sector in the buffer (R187). -/
structure SectorBuf where
  sector : Nat
  data : List Byte
  dirty : Bool := false
  /-- lines poisoned: bit i for line i of the 32 -/
  poison : Nat := 0
  /-- boundaries passed since its last write -/
  age : Nat := 0
  /-- waiting for its fetch to be answered -/
  pending : Bool := false
  deriving DecidableEq, Repr

structure Cellar where
  lent : Bool := false
  hostBase : Nat := 0
  /-- frames that hold the counter table (R186): 32768 * stack + frame -/
  tableAt : List Nat := []
  slots : Nat := 0
  releasing : Bool := false
  /-- written sectors: key 512 * slot + j -/
  table : SMap Sector := []
  buf : List SectorBuf := []
  /-- keys by epoch: the number of the free value each was drawn as -/
  k0 : Option Nat := none
  k1 : Option Nat := none
  cur : Nat := 0
  /-- the walk's next sector, while it runs (19 R451) -/
  walk : Option Nat := none
  /-- boundaries left until the old key is destroyed -/
  destroyIn : Option Nat := none
  deriving DecidableEq, Repr

/-! ## Placement (08) -/

/-- Where a page lies: stack 0 to 11 and frame, or a Cellar slot of its partition. -/
inductive PageAt where
  | frame (stack frame : Nat)
  | slot (n : Nat)
  deriving DecidableEq, Repr

/-- A logical buffer (R192): key is its number in State. -/
structure Buf where
  handle : Nat
  session : Nat
  owner : Nat
  attr : Nat
  width : Nat
  /-- memory address of its base -/
  base : Nat
  size : Nat
  /-- logical package that holds it -/
  holder : Nat
  pages : List PageAt
  deriving DecidableEq, Repr

/-- A frame's heat (R201): key 32768 * stack + frame. -/
structure HeatVal where
  a : Nat := 0
  b : Nat := 0
  f : Nat := 0
  ca : Nat := 0
  cb : Nat := 0
  cf : Nat := 0
  deriving DecidableEq, Repr

/-- A migration (R205, R206). -/
structure Migration where
  session : Nat
  buf : Nat
  page : Nat
  srcStack : Nat
  srcFrame : Nat
  dstStack : Nat
  dstFrame : Nat
  /-- the instant the copy ended -/
  endAt : Option Nat := none
  /-- FRAME_MOVE names its tick (R212) -/
  tick : Option Nat := none
  flight : Option Nat := none
  deriving DecidableEq, Repr

/-- A forwarding stub (R206). -/
structure Stub where
  stack : Nat
  frame : Nat
  dstStack : Nat
  dstFrame : Nat
  session : Nat
  /-- the instant of its commit, and the boundaries passed since -/
  at_ : Nat := 0
  age : Nat := 0
  deriving DecidableEq, Repr

/-- A tile move (R210). -/
structure TileMove where
  tile : Nat
  row : Nat
  start : Nat
  copyEnd : Option Nat := none
  deriving DecidableEq, Repr

/-- What a session holds (R211, R213): key is the session value. -/
structure Placement where
  mode : Nat := 0
  n : Nat := 0
  left : Nat := 0
  /-- Frozen and past its N ticks -/
  frozen : Bool := false
  migrations : Nat := 0
  abandoned : Nat := 0
  tileMoves : Nat := 0
  stubForwards : Nat := 0
  cellarMoves : Nat := 0
  deriving DecidableEq, Repr

structure Place where
  bufs : SMap Buf := []
  nextBuf : Nat := 0
  /-- frames that receive their zero fill: keys 32768 * stack + frame -/
  filling : List Nat := []
  heat : SMap HeatVal := []
  sessions : SMap Placement := []
  moves : List Migration := []
  stubs : List Stub := []
  tileMoves : List TileMove := []
  /-- line reads and writes charged to each stack's migration budget this frame -/
  used : SMap Nat := []
  deriving DecidableEq, Repr

end Sys2Proof.Machine
end

