-- ==== Sys2Proof/Machine/Parts/Power.lean ====
section
/-!
DEFINITION. Machine/Parts/Power.lean: the plain data of power (16) and of heat and coolant (17).
Watts, amperes and joules of the formulas are exact rationals; registers and settings are whole numbers.
-/
namespace Sys2Proof.Machine

/-- A rail of Table 16-1. Rails: 0 to 3 VDD_CA0 to CA3; 4 to 7 VDD_CB0 to CB3; 8 VDD_FAB; 9 VDD_SD; 10 VDDH_SD;
11 VDD_D2D; 12 VDD_AON; 13 VDD_STK; 14 VDDQ_STK; 15 VPP_STK; 16 VDD_BASE; 17 VIO18; 18 VSTBY33. -/
structure Rail where
  /-- the latest AVSBus reading, mA -/
  reading : Nat := 0
  /-- sum and count of the readings of the frame in progress -/
  sum : Nat := 0
  n : Nat := 0
  /-- modelled currents of the last 1 ms, newest first, A (one per 100 ns, R377) -/
  est : List Rat := []
  /-- sum and count of the frame's raw estimates -/
  aSum : Rat := 0
  aN : Nat := 0
  g : Rat := 1
  o : Rat := 0
  /-- pacing of its loads: 16 is none (R377) -/
  pace : Nat := 16
  deriving DecidableEq, Repr

/-- A compute quadrant (R388 to R392): 4 * die + quadrant. -/
structure Quad where
  clkMHz : Nat := 1200
  mV : Nat := 600
  tgtMHz : Nat := 1200
  tgtMV : Nat := 600
  /-- the clock is divided by 2 for a shed (R383) -/
  halved : Bool := false
  /-- a change in progress stopped by a shed, not to be resumed -/
  stopped : Bool := false
  /-- issue throttle of the rail limiter, D of every 16 (R377) -/
  issueD : Nat := 16
  gated : Bool := false
  stretched : Bool := false
  /-- cycles the detectors have read above threshold plus 10 mV -/
  quietCycles : Nat := 0
  /-- a change frozen by a droop resumes at this instant -/
  frozenUntil : Option Nat := none
  stretches : Nat := 0
  /-- droop threshold D, mV -/
  droopMV : Nat := 15
  trim : Nat := 0
  /-- greatest clock, lowered by 25 MHz steps (R390) -/
  maxMHz : Nat := 2100
  /-- least slack of the past 60 s, per mille of the cycle; none before a sample -/
  leastSlack : Option Nat := none
  /-- consecutive periods above 10 % -/
  easyPeriods : Nat := 0
  lastVStep : Option Nat := none
  lastFStep : Option Nat := none
  /-- Efficiency: the last rise (R386) -/
  lastRise : Option Nat := none
  /-- a rise that waits for step 4 (Table 16-4) -/
  wantMHz : Option Nat := none
  /-- the instants of the latest trim adjustment and droop-threshold update (R390, R391) -/
  trimAt : Nat := 0
  droopAt : Nat := 0
  deriving DecidableEq, Repr

/-- The minute in progress (R399). -/
structure Minute where
  startNs : Nat := 0
  number : Nat := 0
  energyMJ : Rat := 0
  peakW : Rat := 0
  droops : Nat := 0
  /-- time under the rail limiter and at the shed level, ns -/
  railNs : Nat := 0
  shedNs : Nat := 0
  overrunFrames : Nat := 0
  leaseExpired : Bool := false
  flowScaled : Bool := false
  thermal : Bool := false
  belowFloor : Bool := false
  deriving DecidableEq, Repr

structure Power where
  /-- sustained grant in force (a rational while it ramps, R384) -/
  sustained : Rat := 1200
  burst : Nat := 2400
  shed : Nat := 900
  orphan : Nat := 1200
  leaseMs : Nat := 10000
  leaseEnd : Option Nat := none
  leaseExpired : Bool := false
  /-- the expiry the ramp runs from, and the grant it started at -/
  ramp : Option (Nat × Rat) := none
  /-- partition caps in W; 0 for none -/
  caps : SMap Nat := []
  /-- 0 Throughput, 1 Steady, 2 Efficiency -/
  mode : Nat := 1
  /-- the shed level governs; it does from power-up until SHED_N is first high (14 R350) -/
  shedOn : Bool := true
  /-- SHED_N has gone high: the limit returns at the next step 4 -/
  shedEnding : Bool := false
  /-- power state Idle, and a change of it that waits for step 8 (R394) -/
  idle : Bool := false
  idleNext : Option Bool := none
  /-- dies in Fallow, and the dies entering and leaving it with the start -/
  fallow : List Nat := []
  entering : SMap Nat := []
  exiting : SMap Nat := []
  /-- the Fallow was entered by the flow rule (R396, R407) -/
  byFlow : Bool := false
  /-- an exit is to begin when the entry completes -/
  exitAfter : Bool := false
  /-- POWER_STATE_SET Off has been taken -/
  offReq : Bool := false
  /-- the rail that each AVSBus reads next (R376) -/
  avsNext : SMap Nat := []
  rails : SMap Rail := []
  quads : SMap Quad := []
  /-- 10 ms bins of energy in mJ, newest first, at most 6,000 -/
  bins : List Rat := []
  binStart : Nat := 0
  binEnergy : Rat := 0
  /-- the allowance of R380 before the burst cap bounds it, and the instant of its latest update -/
  allowance : Rat := 72000
  govAt : Nat := 0
  /-- modelled draw of each 1 us of the last 1 ms, newest first, W; the same of each partition's direct draw -/
  draws : List Rat := []
  partDraws : SMap (List Rat) := []
  tallyAt : Nat := 0
  /-- issue throttles of the governor and of the partition caps, D of every 16 (R382, R393) -/
  govD : Nat := 16
  capD : SMap Nat := []
  ceilingMHz : Nat := 2100
  ceilAt : Nat := 0
  /-- energy counts in mJ: P0 to P3 direct, fabric, P0 to P3 attributed (R397) -/
  tally : SMap Rat := []
  /-- TALLY_ mirrors (R398) -/
  mirror : SMap Nat := []
  mirrorTick : Nat := 0
  /-- bytes of the frame: partition p at its die's link (key p), counted at the fabric die (key 4 + p), transit (key 8) -/
  frameBytes : SMap Nat := []
  /-- energies of the frame, mJ: VDD_D2D per die (0, 1), fabric (2), partition p's rails (10 + p) -/
  frameEnergy : SMap Rat := []
  minute : Minute := {}
  /-- the latest minute report, 32 bytes as a number -/
  report : Nat := 0
  deriving DecidableEq, Repr

/-! ## Heat and coolant (17) -/

/-- A sensor (R402, R403): readings in 0.1 degrees, newest first, the latest eleven. -/
structure Sensor where
  hist : List Int := []
  quarantined : Bool := false
  goodSince : Option Nat := none
  deriving DecidableEq, Repr

/-- A twin pair's divergence (R403). -/
structure Twin where
  farRun : Nat := 0
  nearRun : Nat := 0
  flagged : Bool := false
  deriving DecidableEq, Repr

/-- A region: quadrants 0 to 7, fabric die 8, stacks 9 to 20 (R410, R411). -/
structure Region where
  reading : Option Int := none
  /-- quadrants: the clock ceiling taken off, MHz -/
  off : Nat := 0
  /-- stacks and fabric die: pacing of 16 -/
  pace : Nat := 16
  hot : Bool := false
  hardSince : Option Nat := none
  easedAt : Option Nat := none
  held : Bool := false
  deriving DecidableEq, Repr

structure FlowRep where
  ml : Nat
  /-- 0.1 degrees -/
  inlet : Int
  at_ : Nat
  deriving DecidableEq, Repr

structure Heat where
  /-- key 2 * spot + sensor; spots 0 to 15 die A, 16 to 31 die B, 32 to 39 fabric, 40 to 51 base dies, 52 to 63 top dies -/
  sensors : SMap Sensor := []
  twins : SMap Twin := []
  regions : SMap Region := []
  lastThrottleEvt : Option Nat := none
  throttleEvents : Nat := 0
  report : Option FlowRep := none
  /-- the instant the missing run is timed from -/
  lastReport : Nat := 0
  missRun : Nat := 0
  /-- 0 to 5, Table 17-2 -/
  flowState : Nat := 4
  belowSince : Option Nat := none
  flowLimit : Option Nat := some 960
  /-- a limit staged for step 4: (instant, limit) -/
  stagedLimit : Option (Nat × Option Nat) := none
  /-- since when the filtered FLOW_OK has been low, or high -/
  flowLowSince : Option Nat := none
  flowHighSince : Option Nat := none
  stopped : Bool := false
  tripped : Bool := false
  flowStops : Nat := 0
  /-- energies of ended frames, newest first: per partition, key 4 is the shared part, mJ -/
  history : SMap (List Rat) := []
  /-- the latest sample of the sensors -/
  sampledAt : Nat := 0
  /-- the latest forecast: W0 to W15 in 4 W units, first tick, periodic bits -/
  w : List Nat := []
  firstTick : Nat := 0
  periodic : Nat := 0
  /-- W0 and the measured draw of the last 64 frames, newest first, W -/
  errs : List (Rat × Rat) := []
  lastSignalled : Option Nat := none
  lastIbi : Option Nat := none
  deriving DecidableEq, Repr

end Sys2Proof.Machine
end

