-- ==== Sys2Proof/Machine/State.lean ====
section
/-!
DEFINITION. Machine/State.lean: the state of the package, the ways a command can stop, and the state at power-up.
-/
namespace Sys2Proof.Machine

/-- The addressed memories, each a list in canonical form (log 5). -/
structure Mem where
  /-- scratchpads: key 0x280000 * logical tile + offset -/
  spad : List Host.Cell := []
  /-- partition resets a tile's scratchpad has been through: its unlisted bytes then read as free values (20 R479, log 6) -/
  gens : SMap Nat := []
  /-- stack memory: key 2^36 * stack + SA -/
  stk : List Host.Cell := []
  /-- BAR2 mailbox windows: key 65536 * function + offset -/
  win : List Host.Cell := []
  deriving DecidableEq, Repr

/-- The Garile GX1 package, with the queue of waiting commands. -/
structure State where
  /-- the present instant, ns (log 1) -/
  now : Nat := 0
  /-- the instant of the latest power-up: the AON counter runs from it (log 1) -/
  powerUpAt : Nat := 0
  /-- the commands that wait, first in first out (log 3) -/
  pending : List Instr := []
  /-- counter that picks the next free value (log 7) -/
  freeCtr : Nat := 0
  /-- what has left the package at its pins and ports, newest first (log 9) -/
  outbox : List Output := []
  fuses : Fuses := {}
  boot : Boot := {}
  tick : Tick := {}
  evt : Evt := {}
  host : HostPort := {}
  eth : Eth := {}
  mbx : Mbx := {}
  sess : Sess := {}
  /-- logical tiles 0 to 287 -/
  tiles : SMap Tile := []
  /-- sequencer cores: key 4 * logical tile + core -/
  cores : SMap Core := []
  /-- completion counters: key 4096 * partition + counter -/
  ccs : SMap Nat := []
  mem : Mem := {}
  wain : Wain := {}
  glns : SMap Gleaner := []
  stks : SMap Stack := []
  cellars : SMap Cellar := []
  memTest : Option MemTest := none
  place : Place := {}
  fab : Fab := {}
  coll : Coll := {}
  power : Power := {}
  heat : Heat := {}
  keys : Keys := {}
  faults : Faults := {}
  fw : Fw := {}
  deriving DecidableEq, Repr

/-- No command of this part ends the machine with a fault: every error of the spec is an answer, an event or a record
held in State. The type has no constructor, so no meaning can answer with one (safe). -/
inductive Fault where
  deriving DecidableEq, Repr

/-- The ways a command can be refused by the model. -/
inductive Refusal where
  /-- The model gives the command no meaning yet; raised by an arm of exec alone, and safe: nothing is claimed of it. -/
  | notModelled (mnemonic : String)
  deriving DecidableEq, Repr

/-- The answer of a meaning. -/
abbrev Out := Host.Outcome State Fault Refusal

/-- The package right after the rise of VDD_AON (18 R416): the AON island is in reset, every rail it does not feed is
off, every field has the value the spec gives for power-up, or the value of a log entry. -/
def State.reset : State := {}

end Sys2Proof.Machine
end

