-- ==== Sys2Proof/Machine/Ops.lean ====
section
/-!
DEFINITION. Machine/Ops.lean: the shared operations: the clock, what leaves the package, free values, the Event Hub's
firing, partition states, configuration items, staged changes, the fault log, and the memories.
-/
namespace Sys2Proof.Machine

/-! ## The clock, the outbox, free values -/

/-- The command comes about at AON time `t`; time never runs back (log 1). -/
def State.clock (s : State) (t : Nat) : State := { s with now := max s.now t }

/-- Something leaves the package (log 9). -/
def State.emit (s : State) (o : Output) : State := { s with outbox := o :: s.outbox }

/-- The next free value's number is used up (log 7). -/
def State.drawn (s : State) : State := { s with freeCtr := s.freeCtr + 1 }

/-- A command's answer: its effect `f` on the state at its time. The queue is `step`'s, the time is the command's, and
only a power-up starts the AON counter. -/
def run (t : Nat) (s : State) (f : State → State) : Out :=
  .next { f (s.clock t) with now := max s.now t, powerUpAt := s.powerUpAt, pending := s.pending }

/-- The effect `f` where the command's conditions hold; else only time passes (log 2). -/
def gate (c : Bool) (f : State → State) (s : State) : State := if c then f s else s

/-! ## Parts of State by number -/

def tileOf (s : State) (i : Nat) : Tile := mget {} s.tiles i
def setTile (s : State) (i : Nat) (v : Tile) : State := { s with tiles := mset s.tiles i v }
def coreOf (s : State) (i : Nat) : Core := mget {} s.cores i
def setCore (s : State) (i : Nat) (v : Core) : State := { s with cores := mset s.cores i v }
def partOf (s : State) (p : Nat) : Part := mget {} s.sess.parts p
def stackOf (s : State) (i : Nat) : Stack := mget {} s.stks i
def setStack (s : State) (i : Nat) (v : Stack) : State := { s with stks := mset s.stks i v }
def glnOf (s : State) (i : Nat) : Gleaner := mget {} s.glns i
def setGln (s : State) (i : Nat) (v : Gleaner) : State := { s with glns := mset s.glns i v }
def cellarOf (s : State) (p : Nat) : Cellar := mget {} s.cellars p
def setCellar (s : State) (p : Nat) (v : Cellar) : State := { s with cellars := mset s.cellars p v }
def fnOf (s : State) (f : Nat) : Fn := mget {} s.host.fns f
def setFn (s : State) (f : Nat) (v : Fn) : State := { s with host := { s.host with fns := mset s.host.fns f v } }
def boxOf (s : State) (m : Nat) : Mailbox := mget {} s.mbx.boxes m
def setBox (s : State) (m : Nat) (v : Mailbox) : State := { s with mbx := { s.mbx with boxes := mset s.mbx.boxes m v } }
def hayOf (s : State) (i : Nat) : Hayward := mget {} s.mbx.hay i
def setHay (s : State) (i : Nat) (v : Hayward) : State := { s with mbx := { s.mbx with hay := mset s.mbx.hay i v } }

/-! ## Events (14) -/

/-- The assigned sources of Tables 14-1 and 14-2. -/
def assigned (src : Nat) : Bool := src ≤ 24 || (128 ≤ src && src < 512 && (src - 128) % 96 ≤ 13)

/-- Which sources function `f` sees (R349). -/
def sees (f src : Nat) : Bool :=
  f == 0 && src < 512 || (1 ≤ f && f ≤ 4) && (src ≤ 13 || (128 + 96 * (f - 1) ≤ src && src < 128 + 96 * f))

def evtBit (s : State) (f src : Nat) : EvtBit := mget {} s.evt.bits (512 * f + src)

def setEvtBit (s : State) (f src : Nat) (b : EvtBit) : State :=
  { s with evt := { s.evt with bits := mset s.evt.bits (512 * f + src) b } }

/-- Sources that release the Fallow hold: 0 to 5 and the watch list (R358, R359). -/
def watched (s : State) (src : Nat) : Bool := src ≤ 5 || s.evt.watch.contains src

/-- The pending bit is set in every function that sees the source (R348). -/
def pendAll (s : State) (src : Nat) : State :=
  (List.range 5).foldl (fun s f => if sees f src then setEvtBit s f src { evtBit s f src with pend := true } else s) s

/-- Delivery to the Haywards (R355): held in a switch-over, none while headless or before stage S2. -/
def hayDeliver (s : State) (src : Nat) : State :=
  if s.mbx.headless || s.sess.pkg.isNone then s
  else if s.mbx.busy then { s with evt := { s.evt with heldHay := s.evt.heldHay ++ [src] } }
  else
    let s1 := s.emit (.hayEvent s.mbx.activeId src)
    let other := 1 - s.mbx.activeId
    if src ≤ 5 && (hayOf s other).state == .standby then s1.emit (.hayEvent other src) else s1

/-- A watched source that fires in Fallow releases the hold and requests a wake (R359); in Off, sources 0 to 3 and the
filtered pins request one. -/
def watchWake (s : State) (src : Nat) : State :=
  let e := s.evt
  if e.held && watched s src then
    { s with evt := { e with
        held := false, wakeValid := true,
        wakeEntry := (e.watch.findIdx? (· == src)).getD e.wakeEntry, wakePriv := decide (src ≤ 5),
        wakes := satAdd 0xFFFFFF e.wakes 1, wakeReq := true } }
  else if s.boot.poweredOff && (src ≤ 3 || (6 ≤ src && src ≤ 8)) then { s with evt := { e with wakeReq := true } }
  else s

/-- A source fires (R348). -/
def fire (s : State) (src : Nat) : State :=
  if assigned src then
    let s1 := pendAll s src
    watchWake (if s.boot.poweredOff then s1 else hayDeliver s1 src) src
  else s

/-- Partition `p`'s source at an offset of Table 14-2 fires. -/
def firePart (s : State) (p off : Nat) : State := fire s (128 + 96 * p + off)

/-- The Hasp alarm: counted, and source 5 fires (19 R457). -/
def alarm (s : State) : State :=
  fire { s with keys := { s.keys with alarms := satAdd max32 s.keys.alarms 1 } } 5

/-! ## Partitions and sessions (15) -/

/-- A partition takes a state; every change fires its source 13 (R532) and stamps STATE_TICK (Table 15-10). -/
def setPState (s : State) (p : Nat) (st : PState) : State :=
  if (partOf s p).st == st then s
  else firePart { s with sess := { s.sess with
    parts := mset s.sess.parts p { partOf s p with st := st, stateTick := s.tick.count.toNat } } } p 13

def pstate (s : State) (p : Nat) : PState := (partOf s p).st

/-- Partitions of this package in the session that holds `p`; none where `p` holds no session. -/
def sessionParts (s : State) (p : Nat) : List Nat :=
  if (partOf s p).session == 0 then [] else (List.range 4).filter (fun q => (partOf s q).session == (partOf s p).session)

/-- The partition is fenced, resetting, winnowing or dormant: its endpoints refuse (20 R466, 12 R312, 16 R395). -/
def refusing (s : State) (p : Nat) : Bool :=
  match pstate s p with
  | .fenced | .resetting | .winnowing | .dormant => true
  | _ => s.faults.fences.any (fun e => e.1 == p)

/-- A suspect replay runs on the partition (20 R476). -/
def replaying (s : State) (p : Nat) : Bool := s.faults.replays.any (fun e => e.1 == p)

/-- The partition's engines stop: it refuses, and no replay runs on it. -/
def halts (s : State) (p : Nat) : Bool := refusing s p && !replaying s p

/-- Partition `q` refuses an access of this package's partition `p`: a replay's own accesses pass (20 R476). -/
def refuses (s : State) (p q : Nat) : Bool := refusing s q && !(p == q && replaying s p)

/-! ## Configuration items (Table 15-6) -/

/-- Default of an item. -/
def cfgDefault (item : Nat) : Nat :=
  match item with
  | 0x01 => 50 | 0x10 => 20 | 0x11 => 64 | 0x12 => 64 | 0x13 => 32 | 0x14 => 16 | 0x15 => 8
  | 0x16 | 0x17 | 0x18 | 0x19 | 0x1A => 4
  | 0x1B => 4096 | 0x1C => 256 | 0x1D => 64 | 0x1E => 2048 | 0x1F => 2000 | 0x20 => 4 | 0x21 => 8 | 0x22 => 8
  | 0x23 => 1 | 0x24 => 8 | 0x25 => 10000 | 0x26 => 10 | 0x27 => 3 | 0x28 => 15 | 0x30 => 1 | 0x31 => 2000
  | 0x38 | 0x39 | 0x3A => 4
  | 0x40 => 0x70
  | 0x50 => 8 | 0x51 => 20 | 0x52 => 10 | 0x58 => 384 | 0x60 => 5 | 0x61 => 4096 | 0x62 => 2 | 0x68 => 1024
  | 0x69 => 3 | 0x70 => 15
  | _ => 0

/-- An item's value in force at a scope: partition 0 to 3, package 4, stack 0 to 11. -/
def cfg (s : State) (item scope : Nat) : Nat := mget (cfgDefault item) s.sess.cfg (16 * item + scope)

def setCfg (s : State) (item scope v : Nat) : State :=
  { s with sess := { s.sess with cfg := mset s.sess.cfg (16 * item + scope) v } }

/-! ## Staged changes (02 R43, 15 R365) -/

/-- Hold a change in the shadow registers; `tick` none asks for the earliest boundary. -/
def stage (s : State) (tick : Option Nat) (c : Change) : State :=
  { s with sess := { s.sess with staged := s.sess.staged ++ [{ tick := tick, at_ := s.now, change := c }] } }

/-- The earliest instant the next boundary can fall at: the window's opening, plus 40 ns (02 R35); in FREE_RUN the local
tick. -/
def nextBoundary (s : State) : Nat :=
  match s.tick.due with
  | some d => d
  | none =>
    let T := 1000 * s.tick.periodUs
    match s.tick.state with
    | .freeRun => s.tick.prev + T
    | _ => s.tick.base + T - T / 8 + 40

/-- COMMIT_TICK of a change staged now (15 R365): the tick named; without one, the next tick where the next boundary is
at least 2 us away whatever its edge, else not yet known. -/
def commitTick (s : State) (atTick : Nat) : Nat :=
  if atTick ≠ 0 then atTick
  else if s.tick.countValid && s.now + 2000 ≤ nextBoundary s then s.tick.count.toNat + 1 else 0

/-! ## The fault log (20 R488 to R490) -/

/-- SEVERITY of an entry: Table 21-5 gives it for the firmware types; the others are open (log 7). -/
def severityOf (type : Nat) : Nat :=
  match type with
  | 0x60 | 0x62 | 0x64 | 0x66 | 0x68 => 0
  | 0x61 | 0x67 => 1
  | 0x63 | 0x65 => 2
  | _ => Config.faultSeverity type % 4

/-- An entry enters the fault buffer of 512; a full buffer loses its oldest. -/
def faultLog (s : State) (type part : Nat) (data : List Nat) : State :=
  let f := s.faults
  let e : LogEntry := {
    seq := f.nextSeq, tick := if s.tick.countValid then s.tick.count.toNat else 0,
    aonMs := (s.now - s.powerUpAt) / 1000000, boot := f.boot, type := type, severity := severityOf type, part := part,
    data := data }
  let full := decide (512 ≤ f.buffer.length)
  { s with faults := { f with
      nextSeq := f.nextSeq + 1, buffer := (if full then f.buffer.drop 1 else f.buffer) ++ [e],
      dropped := if full then satAdd max32 f.dropped 1 else f.dropped } }

/-! ## Units and partitions (01 Table 1-3, 04 R118) -/

/-- Die of a partition: 0 A, 1 B. -/
def dieOfPart (p : Nat) : Nat := p / 2
/-- Partition of a logical tile. -/
def partOfTile (i : Nat) : Nat := i / 72
/-- Partition of a stack. -/
def partOfStack (k : Nat) : Nat := k / 3
/-- The stacks of a partition. -/
def stacksOf (p : Nat) : List Nat := span (3 * p) 3
/-- The logical tiles of a partition. -/
def tilesOf (p : Nat) : List Nat := span (72 * p) 72
/-- The quadrants of a partition: 4 * die + quadrant. -/
def quadsOf (p : Nat) : List Nat := span (2 * p) 2

/-- Frames of 2 MiB in a stack (07 Table 7-1). -/
def framesPerStack (s : State) : Nat := if s.fuses.variant == 2 then 24576 else 32768

/-- CAPACITY_FRAMES: net of retired frames and failed stacks (07 R183). -/
def capacityFrames (s : State) : Nat :=
  ((List.range 12).map (fun k =>
    if (stackOf s k).failed then 0 else framesPerStack s - (stackOf s k).retired.length)).sum

/-- A stack is failed: its partition reports FAILED (07 R183). -/
def failStack (s : State) (k : Nat) : State :=
  if (stackOf s k).failed then s
  else setPState (faultLog (setStack s k { stackOf s k with failed := true }) 0x22 (partOfStack k) [k])
    (partOfStack k) .failed

/-! ## The memories (log 5, log 6) -/

/-- Bytes of a tile's scratchpad (04 R116). -/
def spadBytes : Nat := 0x280000

/-- What an unlisted scratchpad byte reads as: 0, or a free value after a partition reset. -/
def spadDefault (m : Mem) (k : Nat) : Byte :=
  match mfind m.gens (k / spadBytes) with
  | none => 0
  | some g => Config.spadFree g k

def spadByte (s : State) (k : Nat) : Byte :=
  match mfind s.mem.spad k with
  | some b => b
  | none => spadDefault s.mem k

def spadPut (m : Mem) (k : Nat) (b : Byte) : Mem :=
  { m with spad := if b = spadDefault m k then mdel m.spad k else mset m.spad k b }

def spadPuts (m : Mem) (k : Nat) : List Byte → Mem
  | [] => m
  | b :: r => spadPuts (spadPut m k b) (k + 1) r

/-- Keys strictly rising. -/
def rising (m : List Host.Cell) : Bool := (m.zip (m.drop 1)).all (fun e => decide (e.1.1 < e.2.1))

/-- The canonical form of the memories (log 5): keys strictly rising, and no entry equal to what its address reads as
unlisted. Every memory operation keeps it, so equal memories are equal data. -/
def Memory.wf (m : Mem) : Bool :=
  rising m.spad && m.spad.all (fun e => e.2 != spadDefault m e.1) &&
  rising m.stk && m.stk.all (fun e => e.2 != 0) && rising m.win && m.win.all (fun e => e.2 != 0)

/-- `n` bytes of tile `i`'s scratchpad from an offset. -/
def spadRead (s : State) (i off n : Nat) : List Byte := (span (spadBytes * i + off) n).map (spadByte s)

def spadWrite (s : State) (i off : Nat) (bs : List Byte) : State :=
  { s with mem := spadPuts s.mem (spadBytes * i + off) bs }

/-- Bytes of a stack: 64 or 48 GiB by variant (00 Table 0-1). -/
def stackBytes (s : State) : Nat := if s.fuses.variant == 2 then 48 * 2 ^ 30 else 64 * 2 ^ 30

def stkKey (stack sa : Nat) : Nat := 2 ^ 36 * stack + sa

def stkRead (s : State) (stack sa n : Nat) : List Byte := memBytes s.mem.stk (stkKey stack sa) n

def stkWrite (s : State) (stack sa : Nat) (bs : List Byte) : State :=
  { s with mem := { s.mem with stk := memPuts s.mem.stk (stkKey stack sa) bs } }

def stkZero (s : State) (stack sa n : Nat) : State :=
  { s with mem := { s.mem with stk := memZero s.mem.stk (stkKey stack sa) n } }

def winRead (s : State) (f off n : Nat) : List Byte := memBytes s.mem.win (65536 * f + off) n

def winWrite (s : State) (f off : Nat) (bs : List Byte) : State :=
  { s with mem := { s.mem with win := memPuts s.mem.win (65536 * f + off) bs } }

/-! ## Completion counters (04 R114) -/

def ccGet (s : State) (p c : Nat) : Nat := mget 0 s.ccs (4096 * p + c)
def ccSet (s : State) (p c v : Nat) : State := { s with ccs := mset s.ccs (4096 * p + c) (v % 2 ^ 32) }
def ccAdd (s : State) (p c v : Nat) : State := ccSet s p c (ccGet s p c + v)

/-! ## The host port's answers (12 R312, 14 R351) -/

/-- A BAR0 access of function `f` at an offset reaches its register: the link is up, and the function is PF0, its
partition is not fenced, resetting or winnowing, or the offset lies in the MBX_ block (R312). -/
def barOpen (s : State) (f off : Nat) : Bool :=
  s.host.linkUp && decide (f < 5) && (f == 0 || !refusing s (f - 1) || (0x1000 ≤ off && off < 0x2000))

/-- The function can issue requests of its own: link up, Bus Master Enable 1, in D0 (R308, R311). -/
def canMaster (s : State) (f : Nat) : Bool := s.host.linkUp && (fnOf s f).bme && !(fnOf s f).d3

/-- One message for a vector: written, or held in the pending-bit array by the vector mask, the function mask or Bus
Master Enable (14 R351). -/
def msixSend (s : State) (f v : Nat) : State :=
  let n := fnOf s f
  if !canMaster s f || n.fmask || (mget {} n.vecs v).masked then
    if n.pba.contains v then s else setFn s f { n with pba := n.pba ++ [v] }
  else s.emit (.msix f v)

/-- SYS_ERR of a function counts one (00 R15). -/
def sysErrInc (s : State) (f : Nat) : State :=
  { s with host := { s.host with sysErr := mset s.host.sysErr f (satAdd max32 (mget 0 s.host.sysErr f) 1) } }

end Sys2Proof.Machine
end

