-- ==== Sys2Proof/Machine/Mailbox.lean ====
section
/-!
DEFINITION. Machine/Mailbox.lean: how a mailbox command is taken, checked, answered and finished (13), shared by every
command of the catalogue.
-/
namespace Sys2Proof.Machine

/-! ## Violations and throttling (R343) -/

/-- A violation of a mailbox: counted, and the eighth within 100 ms throttles it for 1 s. -/
def violation (s : State) (m : Nat) : State :=
  let b := boxOf s m
  let vs := (b.viols.filter (fun v => s.now - v ≤ 100000000)) ++ [s.now]
  let b1 := { b with violCount := satAdd max32 b.violCount 1, viols := vs }
  if 8 ≤ vs.length then
    fire (setBox s m { b1 with viols := [], throttledUntil := some (s.now + 1000000000) }) 13
  else setBox s m b1

/-! ## Taking a request (R332, R337) -/

/-- Responses posted and not consumed. -/
def rspHeld (b : Mailbox) : Nat := (b.rspTail + 2 ^ 32 - b.rspHead) % 2 ^ 32

/-- Requests posted and not taken. -/
def reqHeld (b : Mailbox) : Nat := (b.reqTail + 2 ^ 32 - b.reqHead) % 2 ^ 32

/-- IN_FLIGHT of a mailbox. -/
def inFlight (s : State) (m : Nat) : Nat := (s.mbx.flight.filter (fun f => f.mb == m)).length

/-- An active Hayward takes requests: not before the end of S2, not in a switch-over, not while headless (R327). -/
def serving (s : State) : Bool :=
  s.sess.pkg.isSome && !s.mbx.headless && !s.mbx.busy && (hayOf s s.mbx.activeId).state == .active && !s.boot.poweredOff

/-- A throttled mailbox gives one command per 10 ms (R343). -/
def throttleOpen (s : State) (b : Mailbox) : Bool :=
  b.throttledUntil.isNone || (match b.lastTaken with | none => true | some t => decide (t + 10000000 ≤ s.now))

/-- Mailbox `m` has a request Hayward can take. The management port's arrives with the command itself (log 10). -/
def takeable (s : State) (m : Nat) : Bool :=
  let b := boxOf s m
  serving s && throttleOpen s b &&
    (if m ≤ 4 then decide (0 < reqHeld b) && decide (inFlight s m + rspHeld b < 16)
     else if m == 5 then s.mbx.mgmtLive
     else m == 6 && s.mbx.i3cReq.isSome)

/-- The first of a list in round robin after `last`. -/
def rrNext (last : Nat) (order cand : List Nat) : Option Nat :=
  let later := order.dropWhile (· != last) |>.drop 1
  (later ++ order).find? (cand.contains ·)

/-- The promoted mailbox that has waited longest. -/
def oldest (s : State) : List Nat → Option Nat
  | [] => none
  | m :: r =>
    match oldest s r with
    | none => some m
    | some k => if (boxOf s m).waitSince.getD 0 ≤ (boxOf s k).waitSince.getD 0 then some m else some k

/-- The mailbox Hayward takes from next, where `m` offers a request (R332). -/
def chosen (s : State) (m : Nat) : Option Nat :=
  let cand := (List.range 7).filter (fun k => takeable s k && (k != 5 || m == 5))
  match oldest s (cand.filter (fun k => (boxOf s k).promoted)) with
  | some k => some k
  | none =>
    match rrNext s.mbx.lastHigh [0, 5] cand with
    | some k => some k
    | none => rrNext s.mbx.lastNormal [1, 2, 3, 4, 6] cand

/-- The 64 bytes of the request that `m` offers. -/
def offered (s : State) (a : MbxArgs) : Nat :=
  if a.mb ≤ 4 then leNat (winRead s a.mb (64 * ((boxOf s a.mb).reqHead % 16)) 64)
  else if a.mb == 5 then a.slot % 2 ^ 512
  else s.mbx.i3cReq.getD 0

/-- A request, decoded (Table 13-6), with its payload. -/
structure Req where
  mb : Nat
  opcode : Nat
  seq : Nat
  len : Nat
  ploc : Nat
  buf : Nat
  part : Nat
  respMax : Nat
  hostAddr : Nat
  params : Nat
  payload : List Byte
  deriving DecidableEq, Repr

/-- `n` bytes of a list, zeros where it is shorter. -/
def fit (n : Nat) (l : List Byte) : List Byte := l.take n ++ List.replicate (n - l.length) 0

/-- The request behind a slot: its payload inline, in a window buffer, in host memory, or after the slot on the
management port (R338 to R340, R345). -/
def decodeReq (s : State) (a : MbxArgs) (w : Nat) : Req :=
  let len := bits w 32 28
  let ploc := bits w 60 2
  { mb := a.mb, opcode := bits w 0 16, seq := bits w 16 16, len := len, ploc := ploc, buf := bits w 64 4,
    part := bits w 72 3, respMax := bits w 128 28, hostAddr := bits w 192 64, params := bits w 256 256,
    payload :=
      if ploc == 1 then (if len ≤ 4096 then winRead s a.mb (0x1000 * bits w 64 4) len else [])
      else if ploc == 2 || 32 < len then fit len a.data
      else leBytes len (bits w 256 256) }

/-- The sender is the operator (mailboxes 0 and 5). -/
def Req.op (r : Req) : Bool := r.mb == 0 || r.mb == 5

/-- The sender is a tenant (mailboxes 1 to 4). -/
def Req.tenant (r : Req) : Bool := 1 ≤ r.mb && r.mb ≤ 4

/-- A field of PARAMS (15 R360). -/
def Req.f (r : Req) (lo w : Nat) : Nat := bits r.params lo w

/-- Hayward takes the request: the ring moves on, the age restarts, the class's turn passes (R332, R337). -/
def take (s : State) (m : Nat) : State :=
  let b := boxOf s m
  let b1 := if m ≤ 4 then { b with reqHead := (b.reqHead + 1) % 2 ^ 32 } else b
  let b2 := { b1 with lastTaken := some s.now, promoted := false,
                      waitSince := if m ≤ 4 && 0 < reqHeld b1 then some s.now else none }
  let s1 := setBox s m b2
  { s1 with mbx := { s1.mbx with
      i3cReq := if m == 6 then none else s1.mbx.i3cReq,
      lastHigh := if m == 0 || m == 5 then m else s1.mbx.lastHigh,
      lastNormal := if m == 0 || m == 5 then s1.mbx.lastNormal else m,
      quietSince := s1.now } }

/-! ## Posting a response (R337, R339) -/

/-- Response slot: the header fields of Table 13-6, the status, the estimate, and a payload of up to 32 bytes. -/
def rspSlot (f : InFlight) (status est : Nat) (bytes : List Byte) : List Byte :=
  leBytes 64 (packBits [(f.opcode, 16), (f.seq, 16), (bytes.length, 28), (f.ploc, 2), (0, 2), (f.buf, 4), (0, 4),
    (f.part, 3), (0, 5), (status, 8), (0, 8), (est, 32), (0, 64), (0, 64),
    (if f.ploc == 0 && bytes.length ≤ 32 then leNat bytes else 0, 256)])

/-- The mailbox-response source of mailbox `m` (Tables 14-1 and 14-2). -/
def rspSource (m : Nat) : Nat := if m == 0 then 12 else 128 + 96 * (m - 1)

/-- One slot goes into mailbox `m`'s response ring, and the response source fires (R337). -/
def ringPut (s : State) (m : Nat) (slot : List Byte) : State :=
  let b := boxOf s m
  let s1 := setBox (winWrite s m (0x400 + 64 * (b.rspTail % 16)) slot) m { b with rspTail := (b.rspTail + 1) % 2 ^ 32 }
  if b.irqEn then fire s1 (rspSource m) else s1

/-- Waiting IN_PROGRESS responses of mailbox `m` are posted while a slot is free that is not reserved for a command in
flight (R337, R341). -/
def drainRsp (s : State) (m : Nat) : List (Nat × List Byte) → State
  | [] => setBox s m { boxOf s m with rspWait := [] }
  | (k, bs) :: r =>
    if rspHeld (boxOf s m) + inFlight s m < 16 then drainRsp (ringPut s m bs) m r
    else setBox s m { boxOf s m with rspWait := (k, bs) :: r }

/-- Post one response slot on a mailbox: ring, management port or I3C (R337, R345, R346). -/
def postSlot (s : State) (m : Nat) (slot : List Byte) (inline : List Byte) : State :=
  if m ≤ 4 then ringPut s m slot
  else if m == 5 then s.emit (.mgmtRsp (leNat slot) inline)
  else { s with mbx := { s.mbx with i3cRsp := some (leNat slot) } }.emit (.i3cIbi 0x4D)

/-- A final response with its payload in its place; a return to host memory that fails loses the payload and answers
TIMEOUT (R339, R340). -/
def postFinal (s : State) (f : InFlight) (status : Nat) (bytes : List Byte) (returnOk : Bool) : State :=
  if f.discarded then s
  else if f.ploc == 1 && f.mb ≤ 4 then
    postSlot (winWrite s f.mb (0x1000 * f.buf) bytes) f.mb (rspSlot f status 0 bytes) []
  else if f.ploc == 2 && f.mb ≤ 4 && bytes ≠ [] then
    if returnOk && canMaster s f.mb then
      postSlot (s.emit (.hostWrite f.mb f.hostAddr bytes)) f.mb (rspSlot f status 0 bytes) []
    else postSlot s f.mb (rspSlot f 0x40 0 []) []
  else postSlot s f.mb (rspSlot f status 0 bytes) (if 32 < bytes.length then bytes else [])

/-- ESTIMATE_MS of a command in flight (R341): a replay's is the remaining suspects' time (20 R476); any other is open. -/
def estimateOf (s : State) (f : InFlight) : Nat :=
  match f.kind, mfind s.faults.replays f.part with
  | .replay, some r => (r.suspects.length - r.next) * r.ms
  | _, _ => Config.estimateMs s.freeCtr % 2 ^ 32

/-- An IN_PROGRESS response with an estimate (R341). -/
def postProgress (s : State) (f : InFlight) : State :=
  let est := estimateOf s f
  let g := { f with estEnd := some (s.now + 1000000 * est) }
  let s1 := { s.drawn with mbx := { s.mbx with flight := s.mbx.flight.map (fun h => if h == f then g else h) } }
  if f.discarded then s1
  else if f.mb ≤ 4 then drainRsp s1 f.mb ((boxOf s1 f.mb).rspWait ++ [(f.seq, rspSlot f 1 est [])])
  else postSlot s1 f.mb (rspSlot f 1 est []) []

/-- The first command in flight that `sel` accepts ends with a final response (R341). -/
def finish (s : State) (sel : InFlight → Bool) (status : Nat) (bytes : List Byte) (returnOk : Bool) : State :=
  match s.mbx.flight.find? sel with
  | none => s
  | some f =>
    let s1 := { s with mbx := { s.mbx with flight := s.mbx.flight.erase f, quietSince := s.now } }
    let b := boxOf s1 f.mb
    postFinal (setBox s1 f.mb { b with rspWait := b.rspWait.filter (fun w => w.1 != f.seq) }) f status bytes returnOk

/-! ## The checks (R342, R362, R363, R366, R367) -/

/-- Package states a row of the catalogue requires. -/
inductive PkgReq where
  | any | uc | u | c
  deriving DecidableEq, Repr

/-- How a command carries its partition (15 R362). -/
inductive PartUse where
  /-- package-wide: PART 4 from O and I -/
  | pkg
  /-- PART 0 to 3 -/
  | one
  /-- the row says which -/
  | free
  deriving DecidableEq, Repr

/-- A row of the catalogue. -/
structure Cmd where
  opcode : Nat
  /-- rights: O 1, T 2, I 4 -/
  rights : Nat
  pkg : PkgReq
  partUse : PartUse
  /-- the partition states required; none where no partition is needed -/
  parts : Option (List PState) := none
  /-- lengths the request allows -/
  lenOk : Nat → Bool := (· == 0)
  /-- the request's payload comes beside PARAMS (R363) -/
  usesParams : Bool := true
  /-- response bytes -/
  resp : Nat := 0

/-- What a row's own conditions say of a request, in the order of Table 13-7, and its response length where it varies. -/
structure Chk where
  badLen : Bool := false
  bad : Bool := false
  exceeds : Bool := false
  denied : Bool := false
  wrong : Bool := false
  resp : Option Nat := none
  deriving DecidableEq, Repr

/-- A command's answer: a final status with its payload, or IN_PROGRESS. -/
inductive Ans where
  | done (status : Nat) (bytes : List Byte)
  | prog (kind : BgKind)
  deriving DecidableEq, Repr

def ok : Ans := .done 0 []

/-- BAD_FIELD of the header and of PART (Table 13-7, R362, R363). -/
def headBad (s : State) (c : Cmd) (r : Req) : Bool :=
  r.ploc == 3 || (5 ≤ r.mb && r.ploc ≠ 0) || (r.ploc == 1 && r.buf == 0) || 5 ≤ r.part
    || (r.tenant && r.part ≠ r.mb - 1)
    || (s.mbx.flight.any (fun f => f.mb == r.mb && f.seq == r.seq))
    || (r.ploc == 2 && r.hostAddr % 64 ≠ 0)
    || (0 < r.len && r.ploc == 0 && r.mb ≠ 5 && c.usesParams)
    || (match c.partUse with
        | .pkg => !r.tenant && r.part ≠ 4
        | .one => r.part == 4
        | .free => false)

/-- LENGTH_EXCEEDS of the places (R339). -/
def placeExceeds (r : Req) (resp : Nat) : Bool :=
  let top := if r.mb == 5 then 2 ^ 28 - 1 else if r.ploc == 0 then 32 else if r.ploc == 1 then 4096 else 2 ^ 28 - 1
  decide (top < r.len) || decide (top < resp) || decide (r.respMax < resp)

/-- NOT_PERMITTED of the Rights column (R331, R361). -/
def noRight (c : Cmd) (r : Req) : Bool :=
  !(if r.op then bit c.rights 0 else if r.tenant then bit c.rights 1 else bit c.rights 2)

/-- The credential of mailbox `m`'s path is live (19 R437, Table 19-1): blank ownership fuses need none on PF0, and the I3C
target has none. -/
def credLive (s : State) (m : Nat) : Bool :=
  if m == 0 then s.fuses.anchor.isNone || (mget {} s.keys.spdm 0).live
  else if m ≤ 4 then (mget {} s.keys.spdm m).live
  else if m == 5 then s.mbx.mgmtLive
  else true

/-- The path's credential is not live; the identity and status commands need none (19 R437). -/
def noCred (s : State) (c : Cmd) (r : Req) : Bool := c.opcode / 256 != 1 && !credLive s r.mb

/-- The package's state does not take the command (R366). -/
def pkgWrong (s : State) (c : Cmd) : Bool :=
  match c.pkg, s.sess.pkg with
  | .any, _ => false
  | .uc, some .unconfigured => false
  | .uc, some .configured => false
  | .u, some .unconfigured => false
  | .c, some .configured => false
  | _, _ => true

/-- The partition's state does not allow the command, or the tenant's partition is FREE (R367). -/
def partWrong (s : State) (c : Cmd) (r : Req) : Bool :=
  (r.tenant && 0x200 ≤ c.opcode && pstate s r.part == .free) ||
  match c.parts with
  | none => false
  | some l => !(l.contains (pstate s r.part)) && pstate s r.part ≠ .resetting && pstate s r.part ≠ .winnowing

/-- The partition is held (R333, R367). -/
def partBusy (s : State) (c : Cmd) (r : Req) : Bool :=
  c.parts.isSome && (pstate s r.part == .resetting || pstate s r.part == .winnowing)

/-- The status the checks give, 0 where all pass (R342). `fetched` false: the payload did not arrive (R340). -/
def check (s : State) (c : Cmd) (k : Chk) (r : Req) (fetched hwFault : Bool) : Nat :=
  if !c.lenOk r.len || k.badLen then 0x11
  else if headBad s c r || (fetched && k.bad) then 0x12
  else if placeExceeds r (k.resp.getD c.resp) || (fetched && k.exceeds) then 0x13
  else if noRight c r || noCred s c r || (fetched && k.denied) then 0x20
  else if pkgWrong s c || partWrong s c r || (fetched && k.wrong) then 0x21
  else if partBusy s c r || (r.mb == 5 && 16 ≤ inFlight s 5) then 0x30
  else if !fetched then 0x40
  else if hwFault then 0x50
  else 0

/-- The statuses marked as violations in Table 13-7. -/
def isViolation (st : Nat) : Bool := 0x10 ≤ st && st ≤ 0x20

/-- The flight record of a request. -/
def flightOf (s : State) (r : Req) (kind : BgKind) : InFlight :=
  { mb := r.mb, opcode := r.opcode, seq := r.seq, ploc := r.ploc, buf := r.buf, part := r.part,
    hostAddr := r.hostAddr, kind := kind, takenAt := s.now, params := r.params }

/-- Answer a request at once with a final status. -/
def answer (s : State) (r : Req) (status : Nat) (bytes : List Byte) (returnOk : Bool) : State :=
  let s1 := if isViolation status then violation s r.mb else s
  postFinal s1 (flightOf s1 r .storeWait) status bytes returnOk

/-- The request that a mailbox command is about: Hayward's next choice, with the row's opcode (R332). -/
def nextReq (s : State) (a : MbxArgs) : Option Req :=
  if chosen s a.mb == some a.mb then some (decodeReq s a (offered s a)) else none

/-- One command of the catalogue: taken, checked and answered. `sel` says whether the row is the request's, `chk` the
row's own conditions, `body` its effect. Where the row is not the request Hayward takes next, only time passes. -/
def mbxCmd (c : Cmd) (sel : Req → Bool) (chk : Req → State → Chk) (body : Req → State → State × Ans)
    (t : Nat) (a : MbxArgs) (s : State) : Out :=
  run t s fun s =>
    match nextReq s a with
    | none => s
    | some r =>
      if r.opcode == c.opcode && sel r then
        let s1 := take s a.mb
        let fetched := !(r.ploc == 2 && 0 < r.len) || (a.fetchOk && canMaster s1 a.mb)
        match check s1 c (chk r s1) r fetched a.hwFault with
        | 0 =>
          match body r s1 with
          | (s2, .done st bytes) => answer s2 r st bytes a.returnOk
          | (s2, .prog kind) =>
            let f := flightOf s2 r kind
            postProgress { s2 with mbx := { s2.mbx with flight := s2.mbx.flight ++ [f] } } f
        | st => answer s1 r st [] a.returnOk
      else s

/-- Every request is the row's. -/
def anyReq : Req → Bool := fun _ => true

/-- No conditions of its own. -/
def noChk : Req → State → Chk := fun _ _ => {}

/-- The assigned opcodes of chapter 15. -/
def opcodes : List Nat :=
  span 0x100 5 ++ span 0x200 6 ++ [0x220, 0x221, 0x222, 0x230, 0x231, 0x232, 0x234, 0x235] ++ span 0x300 7 ++
  span 0x400 7 ++ span 0x500 9 ++ span 0x600 10 ++ span 0x700 7 ++ span 0x800 7 ++ span 0x900 5 ++ span 0xA00 5 ++
  [0xB00]

/-- UNKNOWN_OPCODE (R342): the command is taken, answered 0x10, and counted as a violation. -/
def execUnknownOpcode (t : Nat) (a : MbxArgs) (s : State) : Out :=
  run t s fun s =>
    match nextReq s a with
    | none => s
    | some r => if opcodes.contains r.opcode then s else answer (take s a.mb) r 0x10 [] a.returnOk

/-! ## The ring registers (R335 to R344) -/

/-- MBX_DOORBELL (R336): REQ_TAIL is written. -/
def execMbxDoorbell (t f v : Nat) (s : State) : Out :=
  run t s fun s => gate (barOpen s f 0x1000) (fun s =>
    let b := boxOf s f
    let ahead := (v % 2 ^ 32 + 2 ^ 32 - b.reqHead) % 2 ^ 32
    if 16 < ahead || ahead < reqHeld b then violation (setBox s f { b with overrun := true }) f
    else setBox s f { b with reqTail := v % 2 ^ 32,
                             waitSince := if ahead == 0 then none else some (b.waitSince.getD s.now) }) s

/-- MBX_RSP_HEAD_WRITE (R337): responses consumed make room for those that wait. -/
def execMbxRspHeadWrite (t f v : Nat) (s : State) : Out :=
  run t s fun s => gate (barOpen s f 0x100C) (fun s =>
    let b := boxOf s f
    drainRsp (setBox s f { b with rspHead := v % 2 ^ 32 }) f b.rspWait) s

/-- The rings of a mailbox are reset (R344): unread requests are never taken, unconsumed responses are discarded, and
the responses of commands in flight will be. -/
def resetRings (s : State) (m : Nat) : State :=
  let b := boxOf s m
  let s1 := setBox s m { b with reqHead := b.reqTail, rspHead := b.rspTail, rspWait := [], waitSince := none, promoted := false }
  { s1 with mbx := { s1.mbx with
      flight := s1.mbx.flight.map (fun f => if f.mb == m then { f with discarded := true } else f) } }

/-- MBX_CTRL.RESET, and what a PCIe reset does to a function's mailbox (R335, R344): the ring counts by R344, the other
fields to their reset values. -/
def resetBox (s : State) (m : Nat) : State :=
  let s1 := resetRings s m
  setBox s1 m { boxOf s1 m with overrun := false, irqEn := true, violCount := 0 }

/-- MBX_RESET (R344); RSP_IRQ_EN written with the RESET bit then holds. -/
def execMbxReset (t f : Nat) (irqEn : Bool) (s : State) : Out :=
  run t s fun s => gate (barOpen s f 0x1014) (fun s =>
    let s1 := resetBox s f
    setBox s1 f { boxOf s1 f with irqEn := irqEn }) s

/-- MBX_AGE_PROMOTE (R332): a mailbox whose command has waited MBX_AGE is promoted for one command. -/
def execMbxAgePromote (t m : Nat) (s : State) : Out :=
  run t s fun s =>
    let b := boxOf s m
    gate (decide (m < 7) && !b.promoted &&
        (match b.waitSince with | none => false | some w => decide (w + 1000 * cfg s 0x31 4 ≤ s.now)))
      (fun s => setBox s m { b with promoted := true }) s

/-- MBX_PROGRESS_UPDATE (R341): a further IN_PROGRESS, with a new estimate, before the previous one runs out. -/
def execMbxProgressUpdate (t m seq : Nat) (s : State) : Out :=
  run t s fun s =>
    match s.mbx.flight.find? (fun f => f.mb == m && f.seq == seq) with
    | none => s
    | some f => gate (serving s && (match f.estEnd with | none => true | some e => decide (s.now ≤ e)))
        (fun s => postProgress s f) s

/-- MBX_THROTTLE_END (R343): the 1 s period is over. -/
def execMbxThrottleEnd (t m : Nat) (s : State) : Out :=
  run t s fun s =>
    let b := boxOf s m
    gate (match b.throttledUntil with | none => false | some e => decide (e ≤ s.now))
      (fun s => setBox s m { b with throttledUntil := none }) s

/-! ## The management port and I3C (R345, R346) -/

/-- Commands in flight of a mailbox run to completion and their responses are discarded. -/
def discardFlight (s : State) (m : Nat) : State :=
  { s with mbx := { s.mbx with
      flight := s.mbx.flight.map (fun f => if f.mb == m then { f with discarded := true } else f) } }

/-- MGMT_SESSION_CLOSE (R345): the TLS session ends, and with it the operator's credential on that path (19 R437). -/
def execMgmtSessionClose (t : Nat) (s : State) : Out :=
  run t s fun s => gate s.mbx.mgmtLive (fun s =>
    let s1 := discardFlight s 5
    { s1 with mbx := { s1.mbx with mgmtLive := false }, keys := { s1.keys with spdm := mdel s1.keys.spdm 5 } }) s

/-- I3C_PRIVATE_WRITE (R346): a request of 64 bytes is taken in; NACKed while a command is in flight or a response is
unread; any other length is NACKed and a violation. -/
def execI3cPrivateWrite (t : Nat) (data : List Byte) (s : State) : Out :=
  run t s fun s =>
    if s.sess.pkg.isNone then s
    else if s.mbx.i3cReq.isSome || s.mbx.i3cRsp.isSome || 0 < inFlight s 6 then s.emit .i3cNack
    else if data.length ≠ 64 then violation (s.emit .i3cNack) 6
    else
      let s1 := { s with mbx := { s.mbx with i3cReq := some (leNat data) } }
      setBox s1 6 { boxOf s1 6 with waitSince := some s.now }

/-- I3C_PRIVATE_READ (R346): 64 bytes return the response. -/
def execI3cPrivateRead (t : Nat) (s : State) : Out :=
  run t s fun s =>
    match s.mbx.i3cRsp with
    | none => s.emit .i3cNack
    | some r => { s with mbx := { s.mbx with i3cRsp := none } }.emit (.i3cRead r)

end Sys2Proof.Machine
end

