-- ==== Sys2Proof/Machine/Reset.lean ====
section
/-!
DEFINITION. Machine/Reset.lean: the reset of every block but the AON island, the pins that report it, the energy check of
the store, and the voltage of a quadrant, shared by bring-up, power and firmware.
-/
namespace Sys2Proof.Machine

/-- PKG_ALERT_N: asserted while bring-up is stopped or a lost rail holds the reset (22 R512), the package is headless,
THERM_TRIP_N is asserted or the flow state is
STOPPED (22 R522). Table 17-2 codes STOPPED as 5. -/
def refreshAlert (s : State) : State :=
  { s with boot := { s.boot with
    pkgAlertN := !(s.boot.stopped.isSome || s.boot.pgLost || s.mbx.headless || !s.boot.thermTripN ||
      s.heat.flowState == 5) } }

/-- Every block except the AON island returns to reset and VR_EN falls (18 R416); the AON island keeps the bring-up record,
the pin filters, the fault buffer, the rail fits and ageing trims, the trial target and the window. `kind` is the reset
kind that the next S0 takes. -/
def aonReset (s : State) (kind : Nat) : State :=
  let b := s.boot
  { State.reset with
    now := s.now, powerUpAt := s.powerUpAt, pending := s.pending, freeCtr := s.freeCtr, outbox := s.outbox, fuses := s.fuses,
    boot := {
      coldRstN := b.coldRstN, resetKind := b.resetKind, fullPassAt := b.fullPassAt,
      s6Unfinished := if b.stage.isNone then b.s6Unfinished else b.stage == some 6, tripOrStop := b.tripOrStop, nextKind := kind, posId := b.posId,
      holdupUf := b.holdupUf, holdupMv := b.holdupMv, holdupValid := b.holdupValid, reports := b.reports,
      pgLost := b.pgLost,
      vrLoweredAt := if b.vrEn == 0 then b.vrLoweredAt else some s.now },
    evt := { pins := mmap s.evt.pins (fun _ p => { p with glitches := 0 }) },
    power := { rails := mmap s.power.rails (fun _ r => { g := r.g, o := r.o }),
               quads := mmap s.power.quads (fun _ q => { trim := q.trim, maxMHz := q.maxMHz }),
               minute := { number := s.power.minute.number, startNs := s.power.minute.startNs },
               shedOn := !(mget {} s.evt.pins 1).level },
    heat := { flowLowSince := s.heat.flowLowSince, flowHighSince := s.heat.flowHighSince },
    keys := { drbgFailed := s.keys.drbgFailed },
    faults := { buffer := s.faults.buffer, dropped := s.faults.dropped, nextSeq := s.faults.nextSeq, store := s.faults.store,
                boot := s.faults.boot },
    fw := { slotA := s.fw.slotA, slotB := s.fw.slotB, recordSeq := s.fw.recordSeq, trial := s.fw.trial,
            fallback := s.fw.fallback, windowEnd := s.fw.windowEnd, windowMin := s.fw.windowMin } }

/-- Stage S0 begins once the filtered PG_IN and COLD_RST_N are high (18 R416), unless a lost rail holds the reset
(22 R512). -/
def tryStartS0 (s : State) : State :=
  let b := s.boot
  if (mget {} s.evt.pins 2).level && b.coldRstN && b.stage.isNone && b.stopped.isNone && !b.pgLost then
    { s with
      boot := { b with
        stage := some 0, reached := 0, bootStage := 0, stageStart := s.now, s0Start := s.now, resetKind := b.nextKind,
        reports := [], testFull := true, resumed := false },
      faults := { s.faults with boot := s.faults.boot + 1 } }
  else s

/-! ## The energy check (21 R496) -/

/-- Energy in mJ that the bank gives above 36 V, at a voltage in mV. -/
def holdupMJ (s : State) (mv : Nat) : Nat := s.boot.holdupUf * (mv * mv - 36000 * 36000) / 2000000000

/-- Energy a program and an erase require, in mJ (Table 21-3). -/
def programMJ : Nat := 12
def eraseMJ : Nat := 4000

/-- The check passes: C valid and the energy at least that required. -/
def energyOk (s : State) (mv need : Nat) : Bool := s.boot.holdupValid && need ≤ holdupMJ s mv

/-- A failed check fires source 3 and is logged, and the operation waits (R496, R503). -/
def energyFail (s : State) (what mv : Nat) : State :=
  let s1 := faultLog (fire s 3) 0x67 4 [what, mv, holdupMJ s mv]
  let since := match s.fw.heldOp with
    | some (w, a, _) => if w == what then a else s.now
    | none => s.now
  { s1 with fw := { s1.fw with heldOp := some (what, since, s1.now) } }

/-! ## Voltage of a quadrant (16 R388) -/

/-- Table 16-5 in mV, interpolated, rounded up to a whole mV. -/
def vfPoint (mhz : Nat) : Nat :=
  if mhz ≤ 1200 then 600
  else if mhz ≤ 1500 then 600 + ((mhz - 1200) * 40 + 299) / 300
  else if mhz ≤ 1800 then 640 + ((mhz - 1500) * 60 + 299) / 300
  else 700 + ((mhz - 1800) * 80 + 299) / 300

def quadOf (s : State) (q : Nat) : Quad := mget {} s.power.quads q
def setQuad (s : State) (q : Nat) (v : Quad) : State := { s with power := { s.power with quads := mset s.power.quads q v } }

/-- The setpoint of a quadrant at a clock: the point, the fused offset and the ageing trim, within 0.60 V to 0.90 V. -/
def quadSetpoint (s : State) (q mhz : Nat) : Nat :=
  let v := ((vfPoint mhz + (quadOf s q).trim : Nat) : Int) + mget 0 s.fuses.vOffset q
  max 600 (min 900 v.toNat)

/-! ## The tile map (18 R427) -/

/-- Physical rows of a column that are not defective, in increasing order. -/
def goodRows (s : State) (col : Nat) : List Nat :=
  (List.range 13).filter (fun r => !s.boot.defective.contains (13 * col + r))

/-- A column has two or more defects. -/
def columnFailed (s : State) (col : Nat) : Bool := (goodRows s col).length < 12

/-- Partition that owns column 12 * die + c. -/
def partOfColumn (col : Nat) : Nat := col / 6

/-- The map of every column, from the defects known. -/
def buildMap (s : State) : State :=
  let cols := List.range 24
  let m := cols.flatMap (fun col =>
    if columnFailed s col then [] else ((goodRows s col).take 12).zipIdx.map (fun e => (12 * col + e.2, e.1)))
  { s with boot := { s.boot with tileMap := m, failedCols := cols.filter (columnFailed s), mapBuilt := true } }

/-- Partitions that own a failed column enter FAILED. -/
def failColumns (s : State) : State :=
  s.boot.failedCols.foldl (fun s col => setPState s (partOfColumn col) .failed) s

end Sys2Proof.Machine
end

