-- ==== Sys2Proof/Machine/BootOps.lean ====
section
/-!
DEFINITION. Machine/BootOps.lean: the stages' shared parts: limits, reports, the stop of bring-up, and the record writes of the
package store (18 R418 to R431, 21 R492, R496).
-/
namespace Sys2Proof.Machine

/-- Milliseconds between two instants. -/
def msFrom (a b : Nat) : Nat := (b - a) / 1000000

/-- Limits of Table 18-1, ns. -/
def stageLimit (n : Nat) (full : Bool) : Nat :=
  match n with
  | 0 => 100000000
  | 1 | 2 | 3 => 1000000000
  | 4 => 5000000000
  | 5 => 100000000
  | 6 => if full then 160000000000 else 30000000000
  | _ => 12000000000

/-- The filtered FLOW_OK is high. -/
def flowPin (s : State) : Bool := (mget {} s.evt.pins 0).level

/-- The instant a stage's limit runs from: S3 does not count its wait for FLOW_OK (R425). -/
def limitFrom (s : State) (n : Nat) : Nat :=
  if n == 3 then max s.boot.stageStart (s.heat.flowHighSince.getD s.boot.stageStart) else s.boot.stageStart

/-- Stage `n` is in progress and within its limit; after S2 a Hayward is needed (R434). -/
def inStage (s : State) (n : Nat) : Bool :=
  s.boot.stage == some n && s.boot.stopped.isNone && !s.boot.poweredOff && !(3 ≤ n && s.mbx.headless) &&
  (n == 7 || s.now ≤ limitFrom s n + stageLimit n s.boot.testFull)

/-- A stage's report is stored (R431). -/
def storeReport (s : State) (n result cause body : Nat) : State :=
  let b := s.boot
  { s with boot := { b with reports := mset b.reports n {
      result := result, cause := cause, startMs := msFrom b.s0Start b.stageStart, durationMs := msFrom b.stageStart s.now,
      body := body, resetKind := b.resetKind, testFull := b.testFull, slot := if n == 0 then 0 else s.fw.running,
      fwVersion := if n == 0 then 0 else s.fw.runningVersion } } }

/-- A stage's report, laid out (Tables 18-2, 18-4). -/
def reportBytes (n : Nat) (r : StageReport) : List Byte :=
  leBytes 128 (packBits [(n, 4), (r.result, 2), (r.resetKind, 2), (r.cause, 8), (b2n r.testFull, 1), (r.slot, 1), (0, 14),
    (r.startMs, 32), (r.durationMs, 32), (r.fwVersion, 32), (r.body, 896)])

/-- Bring-up stops in its stage with a cause (R418 to R420). -/
def stopBringUp (s : State) (n cause body : Nat) : State :=
  let s1 := storeReport s n 2 cause body
  let s2 := { s1 with boot := { s1.boot with stopped := some cause, bootStage := 0xF, reached := n,
                                             grangerFailN := s1.boot.grangerFailN && cause != 0x20 } }
  refreshAlert (faultLog s2 0x50 4 [n, cause])

/-- A stage ends and the next begins. -/
def endStage (s : State) (n result cause body : Nat) : State :=
  let s1 := storeReport s n result cause body
  { s1 with boot := { s1.boot with stage := some (n + 1), bootStage := BitVec.ofNat 4 (n + 1), reached := n + 1,
                                   stageStart := s.now } }

/-- 50 ms have passed since a VR_EN was last lowered (22 R513). -/
def mayRaise (s : State) : Bool :=
  match s.boot.vrLoweredAt with
  | none => true
  | some t => decide (t + 50000000 ≤ s.now)

/-! ## The slot record (21 R492) -/

def slotOf (s : State) (k : Nat) : FwSlot := if k == 0 then s.fw.slotA else s.fw.slotB

def setSlot (s : State) (k : Nat) (v : FwSlot) : State :=
  { s with fw := if k == 0 then { s.fw with slotA := v } else { s.fw with slotB := v } }

/-- A new copy of the record is written, with a slot's new state. -/
def writeRecord (s : State) (k : Nat) (v : FwSlot) : State :=
  let s1 := setSlot s k v
  { s1 with fw := { s1.fw with recordSeq := s1.fw.recordSeq + 1 } }

/-- The fuse counter is raised to the SEC_VERSION of a CONFIRMED running slot when that is higher (21 R497, Table 21-5). -/
def raiseCounter (s : State) : State :=
  let v := slotOf s s.fw.running
  if v.state == .confirmed && s.fuses.secCounter < v.secVersion then
    let s1 := faultLog s 0x66 4 [s.fuses.secCounter, v.secVersion]
    { s1 with fuses := { s1.fuses with secCounter := v.secVersion } }.emit (.fuseBurn 1 v.secVersion)
  else s

/-- The slots to be rejected are marked in the record (21 R497). -/
def markRejected (s : State) : State :=
  let s1 := s.fw.toReject.foldl (fun s k => writeRecord s k { slotOf s k with state := .rejected }) s
  { s1 with fw := { s1.fw with toReject := [] } }

/-! ## The PART_STATE outputs -/

/-- PART_STATEp[1:0] as a function of the state: 0b11 until the start of S8 and in Off, else the partition's state (19 R460,
22 R520, R521). -/
def partStatePin (s : State) (p : Nat) : BitVec 2 :=
  if s.boot.stage != some 8 || s.boot.poweredOff then 3
  else match pstate s p with
    | .free => 0
    | .assigned | .running => 1
    | .winnowing => 2
    | .fenced | .resetting | .failed | .dormant => 3

end Sys2Proof.Machine
end

