-- ==== Sys2Proof/Machine/CmdBase.lean ====
section
/-!
DEFINITION. Machine/CmdBase.lean: what the mailbox commands share beyond taking and answering: AT_TICK (15 R365), sessions,
and numbers in responses.
-/
namespace Sys2Proof.Machine

/-- AT_TICK is too near or too far (R365). -/
def tickBad (s : State) (at_ : Nat) : Bool :=
  at_ != 0 && s.tick.countValid && (at_ ≤ s.tick.count.toNat + 1 || s.tick.count.toNat + 2 ^ 20 < at_)

/-- AT_TICK while COUNT_VALID is 0 (R365). -/
def tickWrong (s : State) (at_ : Nat) : Bool := at_ != 0 && !s.tick.countValid

/-- The checks of AT_TICK alone. -/
def tickChk (s : State) (r : Req) : Chk := { bad := tickBad s (r.f 0 64), wrong := tickWrong s (r.f 0 64) }

/-- A change is staged and answered with COMMIT_TICK; a sixty-fifth staged command is answered NO_RESOURCE (R365). -/
def stageAns (s : State) (at_ : Nat) (c : Change) : State × Ans :=
  if 64 ≤ s.sess.staged.length then (s, .done 0x31 [])
  else (stage s (if at_ == 0 then none else some at_) c, .done 0 (leBytes 8 (commitTick s at_)))

/-- Session value of a partition; 0 where it holds none. -/
def sessionOf (s : State) (p : Nat) : Nat := (partOf s p).session

/-- The session's partitions of this package, as a 4-bit mask. -/
def partMask (l : List Nat) : Nat := packBits ((List.range 4).map (fun p => (b2n (l.contains p), 1)))

/-- Partitions of this package that carry a session value. -/
def partsWith (s : State) (ses : Nat) : List Nat :=
  if ses == 0 then [] else (List.range 4).filter (fun q => sessionOf s q == ses)

/-- A member of a list that the package chooses (log 7); `i` separates the choices of one draw. -/
def choose {α : Type} (s : State) (i : Nat) (l : List α) : Option α := l[Config.choice s.freeCtr i % l.length]?

/-- A record of `n` bytes. -/
def rec (n v : Nat) : List Byte := leBytes n v

/-- Source of a flight: mailbox and SEQ. -/
def flightKey (f : InFlight) : Nat := 65536 * f.mb + f.seq

/-- Package states U and C, and C. -/
def pkgU (s : State) : Bool := s.sess.pkg == some .unconfigured || s.sess.pkg == some .configured

end Sys2Proof.Machine
end

