-- ==== Sys2Proof/Machine/Numbers.lean ====
section
/-!
DEFINITION. Machine/Numbers.lean: the number formats, exact values, roundings, conversions, MX and T2 blocks, the
stochastic-rounding generator and the approximate functions (03).
-/
namespace Sys2Proof.Machine

/-! ## Values and formats (R55) -/

/-- A value: NaN, an infinity, or (-1)^neg * m * 2^e. -/
inductive FVal where
  | nan
  | inf (neg : Bool)
  | fin (neg : Bool) (m : Nat) (e : Int)
  deriving DecidableEq, Repr

/-- A floating-point format: exponent and mantissa bits, bias, and what the top exponent code holds: 0 infinity and NaN,
1 the single NaN of E4M3, 2 ordinary values only. -/
structure FloatFmt where
  eb : Nat
  mb : Nat
  bias : Int
  top : Nat
  deriving DecidableEq, Repr

def fp32 : FloatFmt := ⟨8, 23, 127, 0⟩
def bf16 : FloatFmt := ⟨8, 7, 127, 0⟩
def fp16 : FloatFmt := ⟨5, 10, 15, 0⟩
def e4m3 : FloatFmt := ⟨4, 3, 7, 1⟩
def e5m2 : FloatFmt := ⟨5, 2, 15, 0⟩
def e3m2 : FloatFmt := ⟨3, 2, 3, 2⟩
def e2m3 : FloatFmt := ⟨2, 3, 1, 2⟩
def e2m1 : FloatFmt := ⟨2, 1, 1, 2⟩

/-- Value of a code (Table 3-1). -/
def FloatFmt.dec (f : FloatFmt) (w : Nat) : FVal :=
  let m := bits w 0 f.mb
  let e := bits w f.mb f.eb
  let neg := bit w (f.mb + f.eb)
  if f.top == 0 && e + 1 == 2 ^ f.eb then (if m == 0 then .inf neg else .nan)
  else if f.top == 1 && e + 1 == 2 ^ f.eb && m + 1 == 2 ^ f.mb then .nan
  else if e == 0 then .fin neg m (1 - f.bias - f.mb)
  else .fin neg (2 ^ f.mb + m) (e - f.bias - f.mb)

/-- The canonical NaN (R74). -/
def FloatFmt.nan (f : FloatFmt) : Nat :=
  if f.top == 1 then 2 ^ (f.eb + f.mb) - 1 else (2 ^ f.eb - 1) * 2 ^ f.mb + 2 ^ (f.mb - 1)

/-- Code of an infinity. -/
def FloatFmt.infCode (f : FloatFmt) (neg : Bool) : Nat := b2n neg * 2 ^ (f.eb + f.mb) + (2 ^ f.eb - 1) * 2 ^ f.mb

/-- Code of the largest finite magnitude. -/
def FloatFmt.maxCode (f : FloatFmt) (neg : Bool) : Nat :=
  b2n neg * 2 ^ (f.eb + f.mb) +
  (if f.top == 0 then (2 ^ f.eb - 1) * 2 ^ f.mb - 1 else if f.top == 1 then 2 ^ (f.eb + f.mb) - 2 else 2 ^ (f.eb + f.mb) - 1)

/-! ## Flags (Table 3-7) -/

def fInvalid : BitVec 8 := 0x01
def fOverflow : BitVec 8 := 0x02
def fSaturated : BitVec 8 := 0x04
def fInexact : BitVec 8 := 0x08
def fTrunc : BitVec 8 := 0x10
def fNanIn : BitVec 8 := 0x20
def fT2Code : BitVec 8 := 0x40
def fSpMeta : BitVec 8 := 0x80

/-- A flag where a condition holds. -/
def flagIf (b : Bool) (f : BitVec 8) : BitVec 8 := if b then f else 0

/-! ## Exact arithmetic -/

/-- Exponent of the leading bit of a non-zero m * 2^e. -/
def topExp (m : Nat) (e : Int) : Int := (Nat.log2 m : Int) + e

/-- A signed magnitude as an integer multiple of 2^q, for q at most e. -/
def scaled (neg : Bool) (m : Nat) (e q : Int) : Int :=
  let n : Int := ((m * 2 ^ (e - q).toNat : Nat) : Int)
  if neg then -n else n

/-- n * 2^q as a value; an exact zero is +0 unless `negZero`. -/
def ofScaled (n q : Int) (negZero : Bool) : FVal := if n == 0 then .fin negZero 0 0 else .fin (decide (n < 0)) n.natAbs q

/-- A result with the flags it raised before rounding. -/
structure FRes where
  v : FVal
  fl : BitVec 8 := 0
  deriving DecidableEq, Repr

def FVal.isNan (a : FVal) : Bool := a == .nan

/-- NAN_IN where an input is a NaN. -/
def nanIn (l : List FVal) : BitVec 8 := flagIf (l.any (·.isNan)) fNanIn

/-- Exact sum (IEEE 754; R76). -/
def addV (a b : FVal) : FRes :=
  match a, b with
  | .nan, _ => ⟨.nan, fNanIn⟩
  | _, .nan => ⟨.nan, fNanIn⟩
  | .inf s, .inf u => if s == u then ⟨.inf s, 0⟩ else ⟨.nan, fInvalid⟩
  | .inf s, .fin _ _ _ => ⟨.inf s, 0⟩
  | .fin _ _ _, .inf u => ⟨.inf u, 0⟩
  | .fin s m e, .fin u n f =>
    let q := min e f
    ⟨ofScaled (scaled s m e q + scaled u n f q) q (s && u), 0⟩

def negV : FVal → FVal
  | .nan => .nan
  | .inf s => .inf !s
  | .fin s m e => .fin (!s) m e

def absV : FVal → FVal
  | .nan => .nan
  | .inf _ => .inf false
  | .fin _ m e => .fin false m e

/-- Exact product. -/
def mulV (a b : FVal) : FRes :=
  match a, b with
  | .nan, _ => ⟨.nan, fNanIn⟩
  | _, .nan => ⟨.nan, fNanIn⟩
  | .inf s, .inf u => ⟨.inf (s != u), 0⟩
  | .inf s, .fin u n _ => if n == 0 then ⟨.nan, fInvalid⟩ else ⟨.inf (s != u), 0⟩
  | .fin s m _, .inf u => if m == 0 then ⟨.nan, fInvalid⟩ else ⟨.inf (s != u), 0⟩
  | .fin s m e, .fin u n f => ⟨.fin (s != u) (m * n) (e + f), 0⟩

/-- Exact a * b + c; an invalid product stands even beside a NaN addend's flag. -/
def fmaV (a b c : FVal) : FRes :=
  let p := mulV a b
  if p.v.isNan then ⟨.nan, p.fl ||| nanIn [c]⟩
  else
    let r := addV p.v c
    ⟨r.v, p.fl ||| r.fl⟩

/-- a < b for values neither of which is a NaN; -0 and +0 are equal. -/
def ltV (a b : FVal) : Bool :=
  match a, b with
  | .inf s, .inf u => s && !u
  | .inf s, .fin _ _ _ => s
  | .fin _ _ _, .inf u => !u
  | .fin s m e, .fin u n f => decide (scaled s m e (min e f) < scaled u n f (min e f))
  | _, _ => false

def eqV (a b : FVal) : Bool := !a.isNan && !b.isNan && !ltV a b && !ltV b a

/-- The sign of a value. -/
def FVal.neg : FVal → Bool
  | .nan => false
  | .inf s => s
  | .fin s _ _ => s

/-- Minimum, with -0 below +0 and NaN for a NaN input (R76). -/
def minV (a b : FVal) : FRes :=
  if a.isNan || b.isNan then ⟨.nan, fNanIn⟩
  else if ltV a b || (!ltV b a && a.neg) then ⟨a, 0⟩ else ⟨b, 0⟩

def maxV (a b : FVal) : FRes :=
  if a.isNan || b.isNan then ⟨.nan, fNanIn⟩
  else if ltV b a || (!ltV a b && !a.neg) then ⟨a, 0⟩ else ⟨b, 0⟩

/-! ## Rounding (R78 to R81) -/

/-- Rounding modes; stochastic rounding carries bits 31:0 of its lane's output. -/
inductive Rnd where
  | rne | rtz
  | sr (r : Nat)
  deriving DecidableEq, Repr

/-- Trailing zero bits of a number, at most `n`. -/
def trailing : Nat → Nat → Nat
  | 0, _ => 0
  | n + 1, m => if m % 2 == 1 then 0 else 1 + trailing n (m / 2)

/-- Whether rounding goes to the neighbour away from zero: `low` is the destination's integer, `d` the field of `sh` bits
below it. The width n of R78 runs to the lowest set bit of the source (log 16). -/
def roundUpBit (rnd : Rnd) (low d sh : Nat) : Bool :=
  match rnd with
  | .rtz => false
  | .rne => 2 ^ sh < 2 * d || (2 * d == 2 ^ sh && low % 2 == 1)
  | .sr r =>
    let z := trailing sh d
    let n := min 32 (sh - z)
    let top := d / 2 ^ (sh - n)
    d != 0 && 2 ^ n ≤ top + r % 2 ^ n

/-- A magnitude m * 2^e rounded to a multiple of 2^q: the multiple, whether it is inexact, and the field below. -/
def roundMag (rnd : Rnd) (m : Nat) (e q : Int) : Nat × Bool :=
  if q ≤ e then (m * 2 ^ (e - q).toNat, false)
  else
    let sh := (q - e).toNat
    let low := m / 2 ^ sh
    let d := m % 2 ^ sh
    (if roundUpBit rnd low d sh then low + 1 else low, d != 0)

/-- Largest finite magnitude as (m, e). -/
def FloatFmt.maxMag (f : FloatFmt) : Nat × Int :=
  let top : Int := 2 ^ f.eb - (if f.top == 0 then 2 else 1) - f.bias
  (if f.top == 1 then 2 ^ (f.mb + 1) - 2 else 2 ^ (f.mb + 1) - 1, top - f.mb)

/-- n * 2^q above Max, both magnitudes. -/
def overMax (f : FloatFmt) (n : Nat) (q : Int) : Bool :=
  let (m, e) := f.maxMag
  let b := min q e
  decide (m * 2 ^ (e - b).toNat < n * 2 ^ (q - b).toNat)

/-- The code of n * 2^q, a value the format holds. -/
def FloatFmt.code (f : FloatFmt) (neg : Bool) (n : Nat) (q : Int) : Nat :=
  let s := b2n neg * 2 ^ (f.eb + f.mb)
  if n == 0 then s
  else
    let ex := topExp n q
    let emin : Int := 1 - f.bias
    if ex < emin then s + n * 2 ^ (q - (emin - f.mb)).toNat
    else
      let lsb := ex - f.mb
      let frac := if q ≤ lsb then n / 2 ^ (lsb - q).toNat else n * 2 ^ (q - lsb).toNat
      s + ((ex + f.bias).toNat * 2 ^ f.mb + (frac - 2 ^ f.mb))

/-- A finite overflow (Table 3-5, R81): FP32 as IEEE 754 has it, whatever SAT (log 17). -/
def overflowCode (f : FloatFmt) (rnd : Rnd) (sat neg : Bool) : Nat × BitVec 8 :=
  let isF32 := f == fp32
  let toMax := f.top != 0 || (sat && !isF32) || rnd == .rtz
  if toMax then (f.maxCode neg, fSaturated ||| fInexact) else (f.infCode neg, fOverflow ||| fInexact)

/-- A source at the tie between Max and the next value, or above it, overflows under RNE (R81). -/
def tieOver (f : FloatFmt) (rnd : Rnd) (m : Nat) (e q : Int) : Bool :=
  let (mm, me) := f.maxMag
  rnd == .rne && decide (e < q) && me == q && m / 2 ^ (q - e).toNat == mm && 2 ^ (q - e).toNat ≤ 2 * (m % 2 ^ (q - e).toNat)

/-- A value converted to a format (R79 to R81): its code and the flags the conversion raises. -/
def FloatFmt.enc (f : FloatFmt) (rnd : Rnd) (sat : Bool) (v : FVal) : Nat × BitVec 8 :=
  match v with
  | .nan => (f.nan, fNanIn)
  | .inf neg => if f.top == 0 then (f.infCode neg, 0) else (f.maxCode neg, fSaturated)
  | .fin neg m e =>
    if m == 0 then (b2n neg * 2 ^ (f.eb + f.mb), 0)
    else
      let q := max (topExp m e - f.mb) (1 - f.bias - f.mb)
      let (n, inexact) := roundMag rnd m e q
      if overMax f n q || tieOver f rnd m e q then overflowCode f rnd sat neg
      else (f.code neg n q, flagIf inexact fInexact)

/-- A result rounded once, with the flags of both; a NaN that arose is not a NaN that was read. -/
def roundRes (f : FloatFmt) (rnd : Rnd) (sat : Bool) (r : FRes) : Nat × BitVec 8 :=
  if r.v.isNan then (f.nan, r.fl)
  else
    let (c, fl) := f.enc rnd sat r.v
    (c, r.fl ||| fl)

/-! ## Blocks (R56 to R62) -/

/-- Exponent of an E8M0 scale; none for NaN (R56). -/
def scaleExp (b : Nat) : Option Int := if b % 256 == 255 then none else some ((b % 256 : Nat) - 127)

/-- Value of an MX INT8 element (R55). -/
def int8Val (w : Nat) : FVal := let n := sx 8 w; .fin (decide (n < 0)) n.natAbs (-6)

/-- Shared exponent of a block (R60): the largest magnitude's leading exponent less e_max, within -127 to 127. -/
def sharedExp (emax : Int) (l : List FVal) : Option Int :=
  let tops := l.filterMap (fun v => match v with | .fin _ m e => if m == 0 then none else some (topExp m e) | _ => none)
  match tops with
  | [] => none
  | t :: r => some (max (-127) (min 127 (r.foldl max t - emax)))

/-- A value times 2^k. -/
def scaleV (v : FVal) (k : Int) : FVal :=
  match v with
  | .fin s m e => .fin s m (e + k)
  | x => x

/-- An INT8 element: the nearest multiple of 2^-6 in the mode, within -128 to 127 (Table 3-5). -/
def encInt8 (rnd : Rnd) (v : FVal) : Nat × BitVec 8 :=
  match v with
  | .fin neg m e =>
    let (n, inexact) := roundMag rnd m e (-6)
    let top := if neg then 128 else 127
    let c := min n top
    (unsx 8 (if neg then -(c : Int) else c), if top < n then fSaturated ||| fInexact else flagIf inexact fInexact)
  | _ => (0, 0)

/-- Element formats of an MX block: a float format, or none for INT8. -/
def encElem (f : Option FloatFmt) (rnd : Rnd) (v : FVal) : Nat × BitVec 8 :=
  match f with
  | some g => g.enc rnd true v
  | none => encInt8 rnd v

/-- Conversion of a block of values to an MX format (R60): element codes, scale byte, flags. `rnds` gives each element's mode. -/
def encBlock (f : Option FloatFmt) (emax : Int) (rnds : List Rnd) (l : List FVal) : List Nat × Nat × BitVec 8 :=
  if l.any (fun v => match v with | .fin _ _ _ => false | _ => true) then (l.map (fun _ => 0), 255, nanIn l)
  else
    match sharedExp emax l with
    | none => (l.map (fun _ => 0), 0, 0)
    | some s =>
      let es := List.zipWith (fun r v => encElem f r (scaleV v (-s))) rnds l
      (es.map (·.1), (s + 127).toNat, es.foldl (fun a e => a ||| e.2) 0)

/-- The `i`-th of a byte's base-3 digits as -1, 0 or 1 (R61); 0 for an invalid code (R62). -/
def t2Digit (byte i : Nat) : Int := if 243 ≤ byte then 0 else ((byte / 3 ^ i % 3 : Nat) : Int) - 1

/-- The 32 elements of a T2 block's eight bytes (R61, R62). -/
def t2Elems (bs : List Nat) : List FVal :=
  (List.range 32).map (fun k => let d := t2Digit (bs.getD (k / 5) 0) (k % 5); .fin (decide (d < 0)) d.natAbs 0)

/-- A T2 block's flags: T2_CODE for an invalid byte among 0 to 6. -/
def t2Flags (bs : List Nat) : BitVec 8 := flagIf ((bs.take 7).any (243 ≤ ·)) fT2Code

/-- An element of `w` bits at position `i` of a packed array (R57). -/
def packedElem (bs : List Byte) (w i : Nat) : Nat :=
  let lo := w * i / 8
  bits (leNat ((bs.drop lo).take 5)) (w * i % 8) w

/-! ## The generator (R82 to R84) -/

def genStep (s : BitVec 64) : BitVec 64 := s + 0x9E3779B97F4A7C15

def genOut (s : BitVec 64) : BitVec 64 :=
  let z1 := (s ^^^ (s >>> 30)) * 0xBF58476D1CE4E5B9
  let z2 := (z1 ^^^ (z1 >>> 27)) * 0x94D049BB133111EB
  z2 ^^^ (z2 >>> 31)

/-- The states a write of VSEED sets (R83). -/
def seedGens (vseed tile : Nat) : List (BitVec 64) :=
  (List.range 64).map (fun lane =>
    BitVec.ofNat 64 vseed ^^^ (BitVec.ofNat 64 tile <<< 48) ^^^ (BitVec.ofNat 64 lane <<< 40))

/-! ## The approximate functions (R76, R529) -/

/-- Integer square root, bit by bit from 2^n down. -/
def isqrtN : Nat → Nat → Nat → Nat
  | 0, _, r => r
  | n + 1, v, r => let c := r + 2 ^ n; isqrtN n v (if c * c ≤ v then c else r)

/-- Binary logarithm of w / 2^p, in [1, 2), as `n` bits below the point: squaring, one bit at a time. -/
def logBits (p : Nat) : Nat → Nat → Nat
  | 0, _ => 0
  | n + 1, w =>
    let sq := w * w / 2 ^ p
    if 2 ^ (p + 1) ≤ sq then 2 ^ n + logBits p n (sq / 2) else logBits p n sq

/-- 2^f for a fraction of `n` bits, times 2^p, the roots of 2 taken in turn. -/
def expBits (p : Nat) : Nat → Nat → Nat → Nat
  | 0, _, _ => 2 ^ p
  | n + 1, root, f =>
    let r := isqrtN (p + 1) (root * 2 ^ p) 0
    let rest := expBits p n r (f % 2 ^ n)
    if f / 2 ^ n % 2 == 1 then rest * r / 2 ^ p else rest

/-- A close value of a function at m * 2^e, as n * 2^q: relative error far below the bounds of R76. -/
def rcpNear (m : Nat) (e : Int) : Nat × Int := (2 ^ 200 / m, -200 - e)

def rsqrtNear (m : Nat) (e : Int) : Nat × Int :=
  let (m2, e2) := if e % 2 == 0 then (m, e) else (2 * m, e - 1)
  (isqrtN 120 (2 ^ 230 / m2) 0, -115 - e2 / 2)

def exp2Near (neg : Bool) (m : Nat) (e : Int) : Nat × Int :=
  let x := roundMag .rtz m e (-64)
  let n : Int := if neg then -(x.1 : Int) else x.1
  let k := n / 2 ^ 64
  (expBits 96 64 (2 ^ 97) (n % 2 ^ 64).toNat, k - 96)

def log2Near (m : Nat) (e : Int) : Bool × Nat × Int :=
  let ex := topExp m e
  let l := Nat.log2 m
  let n : Int := ex * 2 ^ 100 + logBits 256 100 (m * 2 ^ (256 - l))
  (decide (n < 0), n.natAbs, -100)

/-- The FP32 result of an approximate function (log 7): the fixed function's bits, where they lie within `ulps` of the close
value n * 2^q (with a margin for its own error), else the close value itself. -/
def pickNear (free : Nat) (ulps : Nat) (neg : Bool) (n : Nat) (q : Int) : Nat :=
  let near := (fp32.enc .rtz false (.fin neg n q)).1
  match fp32.dec (free % 2 ^ 32) with
  | .fin s m e =>
    let u := max (topExp n q - 23) (-149)
    let b := min (min e q) (u - 16)
    let d := (scaled s m e b - scaled neg n q b).natAbs
    if n != 0 && d ≤ ulps * 2 ^ (u - b).toNat + 2 ^ (u - 16 - b).toNat then free % 2 ^ 32 else near
  | _ => near

/-- An approximate function: 0 RCP, 1 RSQRT, 2 EXP2, 3 LOG2, on FP32 bits: its FP32 bits and flags (R76, R529, Table 3-8). -/
def approxFn (op x : Nat) : Nat × BitVec 8 :=
  let free := Config.approx op x
  match op, fp32.dec x with
  | _, .nan => (fp32.nan, fNanIn)
  | 0, .inf s => (b2n s * 2 ^ 31, 0)
  | 0, .fin s m e =>
    if m == 0 then (fp32.infCode s, 0)
    else
      let (n, q) := rcpNear m e
      if overMax fp32 n q then (fp32.infCode s, fOverflow)
      else
        let c := pickNear free 1 s n q
        (c, flagIf ((mulV (fp32.dec c) (.fin s m e)).v.isNan || !eqV (mulV (fp32.dec c) (.fin s m e)).v (.fin false 1 0)) fInexact)
  | 1, .inf s => if s then (fp32.nan, fInvalid) else (0, 0)
  | 1, .fin s m e =>
    if m == 0 then (fp32.infCode s, 0)
    else if s then (fp32.nan, fInvalid)
    else
      let (n, q) := rsqrtNear m e
      let c := pickNear free 1 false n q
      let v := fp32.dec c
      (c, flagIf (!eqV (mulV (mulV v v).v (.fin false m e)).v (.fin false 1 0)) fInexact)
  | 2, .inf s => if s then (0, 0) else (fp32.infCode false, 0)
  | 2, .fin s m e =>
    let v := FVal.fin s m e
    if !ltV v (.fin false 128 0) then (fp32.infCode false, fOverflow)
    else if ltV v (.fin true 150 0) then (0, fInexact)
    else
      let (n, q) := exp2Near s m e
      let c := pickNear free 2 false n q
      let whole := 0 ≤ e || m % 2 ^ (-e).toNat == 0
      (c, flagIf (!(whole && eqV (fp32.dec c) (.fin false 1 (q + 96)))) fInexact)
  | _, .inf s => if s then (fp32.nan, fInvalid) else (fp32.infCode false, 0)
  | _, .fin s m e =>
    if m == 0 then (fp32.infCode true, 0)
    else if s then (fp32.nan, fInvalid)
    else if eqV (.fin false m e) (.fin false 1 0) then (0, 0)
    else
      let (sn, n, q) := log2Near m e
      let c := pickNear free 2 sn n q
      let ex := topExp m e
      (c, flagIf (!(m == 2 ^ Nat.log2 m && eqV (fp32.dec c) (.fin (decide (ex < 0)) ex.natAbs 0))) fInexact)

end Sys2Proof.Machine
end

