-- ==== Sys2Proof/Machine/HeatOps.lean ====
section
/-!
DEFINITION. Machine/HeatOps.lean: what the temperature sensors say of a spot, a stack and a tile (17 R401 to R404).
Readings are in 0.1 degrees.
-/
namespace Sys2Proof.Machine

def sensorOf (s : State) (spot i : Nat) : Sensor := mget {} s.heat.sensors (2 * spot + i)

/-- The latest reading of a sensor in use. -/
def sensorNow (s : State) (spot i : Nat) : Option Int :=
  let a := sensorOf s spot i
  if a.quarantined then none else a.hist.head?

/-- A twin pair's reading: the higher, or a lone twin's plus 5 degrees (R403). -/
def pairReading (s : State) (spot : Nat) : Option Int :=
  match sensorNow s spot 0, sensorNow s spot 1 with
  | some a, some b => some (max a b)
  | some a, none => some (a + 50)
  | none, some b => some (b + 50)
  | none, none => none

/-- A stack's reading: the higher of its base and top spots (R404). -/
def stackReading (s : State) (k : Nat) : Option Int :=
  match pairReading s (40 + k), sensorNow s (52 + k) 0 with
  | some b, some t => some (max b t)
  | some b, none => some (b + 50)
  | none, some t => some t
  | none, none => none

/-- A stack at or above a limit; one without any reading counts as at its hard limit (R404). -/
def stackAtLeast (s : State) (k : Nat) (limit : Int) : Bool :=
  match stackReading s k with
  | some r => decide (limit ≤ r)
  | none => (sensorOf s (40 + k) 0).quarantined

/-- The pair nearest a physical tile of a column 12 * die + c. -/
def tilePair (s : State) (col row : Nat) : Option Int :=
  pairReading s (16 * (col / 12) + Config.nearSpot (13 * col + row) % 16)

end Sys2Proof.Machine
end

