-- ==== Sys2Proof/Machine/Fabric.lean ====
section
/-!
DEFINITION. Machine/Fabric.lean: packets, the Logical Package Table, routes, output queues, credits, the checks of a
received packet, requests and answers (10), shared by every command that sends or receives.
-/
namespace Sys2Proof.Machine

/-! ## The header (Table 10-1) -/

def hOp (h : Nat) : Nat := bits h 0 8
def hVc (h : Nat) : Nat := bits h 8 3
def hHop (h : Nat) : Nat := bits h 11 1
def hRoute (h : Nat) : Nat := bits h 12 2
def hEnc (h : Nat) : Bool := bit h 14
def hLen (h : Nat) : Nat := bits h 16 6
def hEpoch (h : Nat) : Nat := bits h 22 1
def hCe (h : Nat) : Bool := bit h 23
def hEcho (h : Nat) : Bool := bit h 24
def hVia (h : Nat) : Nat := bits h 25 7
def hSrcPos (h : Nat) : Nat := bits h 32 7
def hDcc (h : Nat) : Bool := bit h 39
def hDestPos (h : Nat) : Nat := bits h 40 7
def hDestEid (h : Nat) : Nat := bits h 48 16
def hSrcEid (h : Nat) : Nat := bits h 64 16
def hSeq (h : Nat) : Nat := bits h 80 16
def hCc (h : Nat) : Nat := bits h 96 12
def hStatus (h : Nat) : Nat := bits h 108 4
def hJob (h : Nat) : Nat := bits h 112 16
def hGroup (h : Nat) : Nat := bits h 128 12
def hAddr (h : Nat) : Nat := bits h 144 48
def hOperand (h : Nat) : Nat := bits h 192 32

/-- A field of a number takes a value. -/
def setBits (v lo w x : Nat) : Nat := v - bits v lo w * 2 ^ lo + (x % 2 ^ w) * 2 ^ lo

/-- One byte into the register of R240. -/
def crcByte : Nat → Nat → Nat
  | 0, c => c
  | n + 1, c => crcByte n (if c % 2 == 1 then (c / 2) ^^^ 0x8408 else c / 2)

/-- The CRC-16 of a list of bytes (R240). -/
def crc16 (l : List Byte) : Nat := l.foldl (fun c b => crcByte 8 (c ^^^ b.toNat)) 0xFFFF

/-- HCRC over bytes 0 to 29 of a header or link flit. -/
def hcrcOf (h : Nat) : Nat := crc16 (leBytes 30 h)

/-- A header with its HCRC computed. -/
def sealHdr (h : Nat) : Nat := setBits h 240 16 (hcrcOf h)

def hcrcOk (h : Nat) : Bool := bits h 240 16 == hcrcOf h

/-- Flits of a packet (R238). -/
def pktFlits (h : Nat) : Nat := 1 + hLen h + b2n (hEnc h)

/-- The pair of VC and hop class of a header (Table 10-7). -/
def pairOf (h : Nat) : Nat := 2 * hVc h + hHop h

/-- The fields of a new header; everything not named is 0. -/
structure Hdr where
  op : Nat
  vc : Nat
  route : Nat := 0
  via : Nat := 0
  len : Nat := 0
  echo : Bool := false
  srcPos : Nat := 0
  dcc : Bool := false
  destPos : Nat := 0
  destEid : Nat := 0
  srcEid : Nat := 0
  seq : Nat := 0
  cc : Nat := 0
  status : Nat := 0
  job : Nat := 0
  group : Nat := 0
  addr : Nat := 0
  operand : Nat := 0
  deriving DecidableEq, Repr

def Hdr.word (h : Hdr) : Nat :=
  sealHdr (packBits [(h.op, 8), (h.vc, 3), (0, 1), (h.route, 2), (0, 2), (h.len, 6), (0, 1), (0, 1), (b2n h.echo, 1),
    (h.via, 7), (h.srcPos, 7), (b2n h.dcc, 1), (h.destPos, 7), (0, 1), (h.destEid, 16), (h.srcEid, 16), (h.seq, 16),
    (h.cc, 12), (h.status, 4), (h.job, 16), (h.group, 12), (0, 4), (h.addr, 48), (h.operand, 32), (0, 32)])

/-! ## The Logical Package Table (R246, R247) -/

/-- Position of a logical package in the table in force. -/
def lptPos (s : State) (l : Nat) : Option Nat :=
  match s.fab.lpt[l]? with
  | none => none
  | some e => if bit e 7 then some (e % 128) else none

/-- Logical package mapped to a position. -/
def lpkgOf (s : State) (pos : Nat) : Option Nat :=
  (List.range 64).find? (fun l => lptPos s l == some pos)

/-- The own logical package; 0 where the position carries none. -/
def ownLpkg (s : State) : Nat := (lpkgOf s s.boot.posId).getD 0

/-- An own endpoint's ID. -/
def ownEid (s : State) (ep : Nat) : Nat := 1024 * ownLpkg s + ep

/-- Logical packages valid in the table in force other than the own. -/
def otherLpkgs (s : State) : List Nat :=
  (List.range 64).filter (fun l => (lptPos s l).isSome && lptPos s l != some s.boot.posId)

/-! ## Links -/

def linkOf (s : State) (k : Nat) : Link := mget {} s.fab.links k
def setLink (s : State) (k : Nat) (v : Link) : State := { s with fab := { s.fab with links := mset s.fab.links k v } }
def laneOf (s : State) (n : Nat) : Lane := mget {} s.fab.lanes n
def setLane (s : State) (n : Nat) (v : Lane) : State := { s with fab := { s.fab with lanes := mset s.fab.lanes n v } }

/-- The own link toward a position; 71 for the own position (09 R220). -/
def linkTo (s : State) (q : Nat) : Nat := (q + 143 - s.boot.posId) % 72

/-- The position at the far end of a link (09 R220). -/
def farEnd (s : State) (k : Nat) : Nat := (s.boot.posId + k + 1) % 72

/-- A link is usable for sending (R252). -/
def usable (s : State) (k : Nat) : Bool := k < 71 && ((linkOf s k).state == .up || (linkOf s k).state == .degraded)

/-- A link is live (R251). -/
def live (s : State) (k : Nat) : Bool := usable s k && !(linkOf s k).quarantined

/-- A port's DISCARDS count one (R266). -/
def discard (s : State) (k : Nat) : State :=
  let l := linkOf s k
  setLink s k { l with port := { l.port with discards := satAdd max16 l.port.discards 1 } }

/-! ## Partition fabric records (Table 10-10) -/

def partRec (s : State) (p : Nat) : PartRec := mget {} s.fab.parts p
def setPartRec (s : State) (p : Nat) (v : PartRec) : State := { s with fab := { s.fab with parts := mset s.fab.parts p v } }

/-- Partition of a local endpoint, if it has one: tiles, Gleaners, Wain engines, host queues. -/
def partOfEp (ep : Nat) : Option Nat :=
  if ep < 288 then some (ep / 72)
  else if ep < 300 then some ((ep - 288) / 3)
  else if 308 ≤ ep && ep < 340 then some ((ep - 308) / 8)
  else if 340 ≤ ep && ep < 344 then some (ep - 340)
  else none

/-! ## Output queues (R253 to R259) -/

/-- Flits waiting on a VC of a link. -/
def depth (l : Link) (vc : Nat) : Nat :=
  ((l.queue.filter (fun e => hVc e.pkt.hdr == vc)).map (fun e => pktFlits e.pkt.hdr)).sum

/-- LOFT_DEPTH of a link. -/
def loftDepth (l : Link) : Nat := (l.queue.map (fun e => pktFlits e.pkt.hdr)).sum

/-- The threshold K in force (R259). -/
def markK (s : State) (l : Link) : Nat := l.markK.getD (cfg s 0x1C 4)

/-- Shared flits of a receive link's share now free (R253). -/
def sharedFree (l : Link) : Nat := 19664 - ((List.range 12).map (fun i => (mget {} l.pairs i).held - 68)).sum

/-- A link runs sealed: the package-wide mode (19 R455). -/
def encrypted (s : State) : Bool := s.keys.linkEnc

/-- A link's current key. -/
def LinkKey.current (k : LinkKey) : Option Nat := if k.cur == 0 then k.k0 else k.k1

/-- A link holds keys of both epochs. -/
def LinkKey.both (k : LinkKey) : Bool := k.k0.isSome && k.k1.isSome

/-- Every packet but KEY_XCHG is sealed on an encrypted link (R241). -/
def sealed (s : State) (h : Nat) : Bool := encrypted s && hOp h != 0x30

/-- Flits of a packet as it leaves on a link: header, payload, and the tail of a sealed one. -/
def outFlits (s : State) (h : Nat) : Nat := 1 + hLen h + b2n (sealed s h)

/-- A packet can start: credits for every flit and a lane the far end accepts (R255). TRUNCATE needs no credit. On an
encrypted link with no current key, only KEY_XCHG can (19 R453). -/
def canStart (s : State) (l : Link) (e : OutPkt) : Bool :=
  (l.state == .up || l.state == .degraded) && l.txLanes ≠ 0 && (!sealed s e.pkt.hdr || l.key.current.isSome) &&
  (hOp e.pkt.hdr == 0 || outFlits s e.pkt.hdr ≤ (mget {} l.pairs (pairOf e.pkt.hdr)).credits)

/-- The oldest packet of a VC and hop class, where it can start. -/
def classHead (s : State) (l : Link) (vc hop : Nat) : Option OutPkt :=
  (l.queue.find? (fun e => hVc e.pkt.hdr == vc && hHop e.pkt.hdr == hop)).filter (canStart s l)

/-- The packet of a VC that starts next: VC0 in arrival order; on the others the hop classes alternate while both wait
(R257). -/
def vcHead (s : State) (l : Link) (vc : Nat) : Option OutPkt :=
  if vc == 0 then l.queue.find? (fun e => hVc e.pkt.hdr == 0 && classHead s l 0 (hHop e.pkt.hdr) == some e)
  else
    let h := 1 - mget 1 l.lastHop vc
    match classHead s l vc h with
    | some e => some e
    | none => classHead s l vc (1 - h)

def vcReady (s : State) (l : Link) (vc : Nat) : Bool := (vcHead s l vc).isSome

/-- Bring a link's ages and window times to now; called before and after its queue, credits or lanes change. -/
def touch (s : State) (l : Link) : Link :=
  let k := markK s l
  let dt := s.now - l.touched
  { l with
    touched := s.now,
    overK := (List.range 6).foldl (fun m vc => if k < depth l vc then mset m vc (mget 0 m vc + dt) else m) l.overK,
    since := (List.range 6).foldl (fun m vc =>
      if vcReady s l vc then (if (mfind m vc).isSome then m else mset m vc s.now) else mdel m vc) l.since,
    port := { l.port with
      curPeak := max l.port.curPeak (loftDepth l),
      stall := (List.range 6).foldl (fun m vc =>
        match mfind l.since vc with
        | none => m
        | some _ => mset m vc (satAdd (0xFFFFFF) (mget 0 m vc) (dt / 10))) l.port.stall } }

/-- A header with CE set and its HCRC computed anew (R240, R259). -/
def withCe (h : Nat) : Nat := sealHdr (setBits h 23 1 1)

/-- A packet enters a link's output queue, marked where the depth on its VC exceeds K or the share that holds it runs low
(R259). -/
def enqueue (s : State) (k : Nat) (p : Pkt) (from_ : Option Nat) (heldFlits : Nat := 0) : State :=
  let l := touch s (linkOf s k)
  let vc := hVc p.hdr
  let low := match from_ with | none => false | some i => decide (sharedFree (linkOf s i) < 1024)
  let mark := 1 ≤ vc && vc ≤ 4 && (decide (markK s l < depth l vc) || low)
  let p1 := if mark then { p with hdr := withCe p.hdr } else p
  let l1 := { l with
    queue := l.queue ++ [{ pkt := p1, entered := s.now, from_ := from_, heldFlits := heldFlits }],
    winMarked := l.winMarked + b2n mark,
    port := { l.port with ceMarked := satAdd max32 l.port.ceMarked (b2n mark) } }
  setLink s k (touch s l1)

/-! ## Routes (R249 to R252) -/

/-- Position `m` is an eligible intermediate toward `d` (R250). -/
def eligible (s : State) (d m : Nat) : Bool :=
  m ≠ s.boot.posId && m ≠ d && live s (linkTo s m) &&
  (match mfind s.fab.maps m with
   | none => false
   | some (bitsLive, at_) => s.now ≤ at_ + 2000000 && bit bitsLive d)

/-- The least of a list by a measure, the first among equals. -/
def leastBy (f : Nat → Nat) : List Nat → Option Nat
  | [] => none
  | a :: r =>
    match leastBy f r with
    | none => some a
    | some b => if f a ≤ f b then some a else some b

/-- The intermediate a sprayed packet takes: the fewest flits queued on its VC, ties by the rotating pointer (R250). -/
def sprayChoice (s : State) (d vc : Nat) : Option Nat :=
  let order := (List.range 72).map (fun i => (s.fab.sprayPtr + i) % 72)
  leastBy (fun m => depth (linkOf s (linkTo s m)) vc) (order.filter (eligible s d))

/-- Where a packet of the own endpoints goes: its header as sent and its link; none is NO_ROUTE (R249, R252). -/
def routeOut (s : State) (h : Nat) : Option (Nat × Nat) :=
  let d := hDestPos h
  let direct := (sealHdr (setBits (setBits h 12 2 0) 25 7 0), linkTo s d)
  let spray := (sprayChoice s d (hVc h)).map (fun m => (sealHdr (setBits (setBits h 12 2 1) 25 7 m), linkTo s m))
  match hRoute h with
  | 0 => if usable s (linkTo s d) then some direct else spray
  | 1 => match spray with
         | some r => some r
         | none => if usable s (linkTo s d) then some direct else none
  | _ =>
    if hVia h == s.boot.posId || hVia h == d then
      (if usable s (linkTo s d) then some direct else spray)
    else if usable s (linkTo s (hVia h)) then some (sealHdr h, linkTo s (hVia h)) else none

/-- A packet of an own endpoint finds no route: discarded at the source (R252, R266). -/
def noRoute (s : State) (h : Nat) : State :=
  let s1 := discard s (linkTo s (hDestPos h))
  match partOfEp (hSrcEid h % 1024) with
  | none => s1
  | some p => setPartRec s1 p { partRec s1 p with noRoute := satAdd max16 (partRec s1 p).noRoute 1 }

/-- An own packet takes its route into an output queue. -/
def sendRouted (s : State) (p : Pkt) : State :=
  match routeOut s p.hdr with
  | none => noRoute s p.hdr
  | some (h, k) =>
    let s1 := if hRoute h == 1 then { s with fab := { s.fab with sprayPtr := (s.fab.sprayPtr + 1) % 72 } } else s
    enqueue s1 k { p with hdr := h } none

/-- An own packet waits to be injected (R246, R261); one for an endpoint of this package never meets a link. -/
def queueInject (s : State) (p : Pkt) : State :=
  if hDestPos p.hdr == s.boot.posId then { s with fab := { s.fab with local_ := s.fab.local_ ++ [p] } }
  else { s with fab := { s.fab with inject := s.fab.inject ++ [(p, s.now)] } }

/-- A packet built from its fields, with the own position stamped. -/
def mkPkt (s : State) (h : Hdr) (pay : List Byte) : Pkt :=
  { hdr := { h with srcPos := s.boot.posId, len := (pay.length + 31) / 32 }.word,
    pay := pay ++ List.replicate (roundUp pay.length 32 - pay.length) 0 }

/-- A control packet to an endpoint of another logical package, on VC `vc` by the direct route (02 R52, 20 R468). -/
def sendTo (s : State) (l ep : Nat) (h : Hdr) (pay : List Byte) : State :=
  match lptPos s l with
  | none => s
  | some pos => queueInject s (mkPkt s { h with destPos := pos, destEid := 1024 * l + ep } pay)

/-! ## Limiters (R261) -/

def limiterOf (s : State) (l : Nat) : Limiter := mget { rate := cfg s 0x1F 4 } s.fab.limiters l
def setLimiter (s : State) (l : Nat) (v : Limiter) : State :=
  { s with fab := { s.fab with limiters := mset s.fab.limiters l v } }

/-- The bucket filled up to now at RATE. -/
def fillBucket (s : State) (v : Limiter) : Limiter :=
  { v with bucket := min 16384 (v.bucket + ((v.rate * (s.now - v.filledAt) : Nat) : Int)), filledAt := s.now }

/-- An echo from destination `l` reaches its limiter (R260, R261). -/
def echoFrom (s : State) (l : Nat) : State :=
  let v := fillBucket s (limiterOf s l)
  let v1 := { v with echo := true }
  let due := match v.lastDec with | none => true | some t => decide (t + 1000 * cfg s 0x24 4 ≤ s.now)
  setLimiter s l (if due then
    { v1 with rate := max (cfg s 0x20 4) (v.rate - v.rate / 2 ^ cfg s 0x23 4), lastDec := some s.now } else v1)

/-! ## Sequence numbers and requests (R264, R265) -/

/-- A SEQ of an endpoint that is neither outstanding nor held. -/
def seqFree (s : State) (ep q : Nat) : Bool :=
  !(s.fab.reqs.any (fun r => r.ep == ep && r.seq == q)) && !(s.fab.holds.any (fun h => h.ep == ep && h.seq == q))

/-- The SEQ an endpoint draws: counting up, past values in use or held. -/
def drawSeq (s : State) (ep : Nat) : Option Nat :=
  let n := mget 0 s.fab.nextSeq ep
  ((List.range (s.fab.reqs.length + s.fab.holds.length + 1)).map (fun i => (n + i) % 65536)).find? (seqFree s ep)

/-- The partition's default job domain, stamped in a packet (R246). -/
def stampJob (s : State) (p : Nat) : Nat := (partOf s p).defaultJob

/-- A request of a local endpoint: a SEQ is drawn, the packet waits to be injected, and the answer is awaited. None where
no SEQ is free. -/
def sendReq (s : State) (ep part : Nat) (kind : ReqKind) (l destEp : Nat) (h : Hdr) (pay : List Byte) (bytes : Nat)
    (owner : ReqOwner) (limit : Nat) : Option (State × Nat) :=
  match drawSeq s ep, lptPos s l with
  | some q, some pos =>
    let p := mkPkt s { h with destPos := pos, destEid := 1024 * l + destEp, srcEid := ownEid s ep, seq := q,
                              job := stampJob s part } pay
    let r : OutReq := { ep := ep, seq := q, kind := kind, dest := l, part := part, bytes := bytes, owner := owner,
                        at_ := s.now, limit := limit }
    let s1 := { s with fab := { s.fab with
      reqs := s.fab.reqs ++ [r], nextSeq := mset s.fab.nextSeq ep ((q + 1) % 65536) } }
    some (queueInject s1 p, q)
  | _, _ => none

/-- FAB_TIMEOUT of a partition in ns. -/
def fabTimeout (s : State) (p : Nat) : Nat := 1000 * cfg s 0x10 p

/-- The request an answer names. -/
def findReq (s : State) (ep seq : Nat) : Option OutReq := s.fab.reqs.find? (fun r => r.ep == ep && r.seq == seq)

def dropReq (s : State) (r : OutReq) : State := { s with fab := { s.fab with reqs := s.fab.reqs.erase r } }

/-- An opcode that answers a request (R246). -/
def isAnswerOp (op : Nat) : Bool := op == 3 || op == 4 || op == 7 || op == 9 || op == 0x0A

/-- The packet is the request `r`. -/
def isReqPkt (r : OutReq) (p : Pkt) : Bool := !isAnswerOp (hOp p.hdr) && hSrcEid p.hdr % 1024 == r.ep && hSeq p.hdr == r.seq

/-- The request has left its injection queue, and its timer runs (R265). -/
def injected (s : State) (r : OutReq) : Bool := !s.fab.inject.any (fun e => isReqPkt r e.1)

/-- An arrival dropped under R265 counts in LATE_COMPLETION. -/
def lateCount (s : State) (p : Nat) : State :=
  setPartRec s p { partRec s p with late := satAdd max32 (partRec s p).late 1 }

/-- A request times out: counted, and its SEQ is held (R264, R265). -/
def timeoutReq (s : State) (r : OutReq) : State :=
  let s1 := dropReq s r
  let s2 := setPartRec s1 r.part { partRec s1 r.part with timeouts := satAdd max32 (partRec s1 r.part).timeouts 1 }
  { s2 with fab := { s2.fab with holds := s2.fab.holds ++
    [{ ep := r.ep, seq := r.seq, until_ := r.at_ + (if r.kind == .gleaner then 1005000000 else 3000000), part := r.part }] } }

/-- An answer to a received request: back to its source position and endpoint, with ECHO for a marked request
(R246, R260). -/
def answerPkt (s : State) (h : Nat) (op vc status : Nat) (pay : List Byte) : State :=
  queueInject s (mkPkt s
    { op := op, vc := vc, route := hRoute h, via := hVia h, echo := hCe h, destPos := hSrcPos h, destEid := hSrcEid h,
      srcEid := hDestEid h, seq := hSeq h, cc := hCc h, status := status } pay)

/-- A request is answered with NACK (R243, R248), counted for the endpoint's partition. -/
def nack (s : State) (h status : Nat) : State :=
  let s1 := answerPkt s h 0x0A 0 status []
  match partOfEp (hDestEid h % 1024) with
  | none => s1
  | some p => setPartRec s1 p { partRec s1 p with nackTx := satAdd max16 (partRec s1 p).nackTx 1 }

/-! ## Checks of a received packet (R267) -/

/-- VCs and LEN range of an assigned opcode (Table 10-2, 11 Table 11-4). -/
def opForm (op : Nat) : Option (List Nat × Nat × Nat) :=
  match op with
  | 0x00 => some ([0, 1, 2, 3, 4, 5], 0, 0)
  | 0x01 => some ([2, 3], 1, 32)
  | 0x02 => some ([2, 3], 0, 0)
  | 0x03 => some ([2, 3], 0, 32)
  | 0x04 => some ([0], 0, 1)
  | 0x05 | 0x06 | 0x07 | 0x09 | 0x0A => some ([0], 0, 0)
  | 0x08 => some ([4], 2, 2)
  | 0x10 | 0x15 | 0x16 => some ([0], 0, 0)
  | 0x11 | 0x12 => some ([1], 1, 1)
  | 0x13 | 0x14 => some ([1], 1, 32)
  | 0x20 | 0x21 => some ([0], 1, 1)
  | 0x30 | 0x33 => some ([5], 1, 32)
  | 0x31 | 0x32 => some ([5], 1, 1)
  | _ => none

/-- Class 2, form. -/
def badForm (h : Nat) : Bool :=
  bit h 15 || 6 ≤ hVc h || hRoute h == 3 || 71 < hVia h || 71 < hSrcPos h || 71 < hDestPos h || 32 < hLen h ||
  (match opForm (hOp h) with
   | none => true
   | some (vcs, lo, hi) => !vcs.contains (hVc h) || hLen h < lo || hi < hLen h) ||
  (hOp h == 1 && (let n := bits (hOperand h) 0 11; n == 0 || 1024 < n || (n + 31) / 32 ≠ hLen h)) ||
  (hOp h == 0x0A && (hStatus h == 0 || 4 < hStatus h))

/-- Class 3, hop: judged against the link's far end and the own position. -/
def badHop (s : State) (k h : Nat) : Bool :=
  let far := farEnd s k
  let me := s.boot.posId
  if hHop h == 0 then
    hSrcPos h ≠ far || (hDestPos h ≠ me && !((hRoute h == 1 || hRoute h == 2) && hVia h == me))
  else hVia h ≠ far || hDestPos h ≠ me

/-- Class 4, endpoint. -/
def badEndpoint (h : Nat) : Bool :=
  let ep := hDestEid h % 1024
  345 ≤ ep ||
  ((hOp h == 1 || hOp h == 2) && ((340 ≤ ep && ep ≤ 343 && ep ≠ 340 + bits (hAddr h) 38 2) || (288 ≤ ep && ep ≤ 339) || ep == 344))

/-- Class 5, credit: more flits than the receiver has granted. -/
def badCredit (l : Link) (h : Nat) : Bool :=
  hOp h ≠ 0 && hVc h < 6 && (let p := mget {} l.pairs (pairOf h); p.outstanding < p.held + pktFlits h)

/-- Class 6, encryption. `opened` is what the AES-256-GCM check gave for a sealed packet (log 8). -/
def badSeal (s : State) (k h : Nat) (opened : Option (List Byte)) : Bool :=
  let lk := (linkOf s k).key
  if hEnc h then
    (!encrypted s && s.keys.graceTicks == 0) || opened.isNone || (if hEpoch h == 0 then lk.k0.isNone else lk.k1.isNone)
  else encrypted s && s.keys.graceTicks == 0 && hOp h ≠ 0x30

/-- An answer whose SEQ is neither outstanding nor held (class 9). -/
def unsolicited (s : State) (h : Nat) : Bool :=
  isAnswerOp (hOp h) && hDestPos h == s.boot.posId &&
  hDestEid h / 1024 == ownLpkg s && seqFree s (hDestEid h % 1024) (hSeq h)

/-- The violation class of a head flit that arrived on link `k`, the first of Table 10-6 that holds; none is a good packet
or link flit. -/
def classify (s : State) (k h : Nat) (opened : Option (List Byte)) : Option Nat :=
  if bits h 0 16 == 0xFFFF then
    if !hcrcOk h then some 7 else if bits h 16 8 == 0 || 4 < bits h 16 8 then some 8 else none
  else if !hcrcOk h then some 1
  else if badForm h then some 2
  else if hOp h != 0 && badHop s k h then some 3
  else if hOp h != 0 && badEndpoint h then some 4
  else if badCredit (linkOf s k) h then some 5
  else if badSeal s k h opened then some 6
  else if unsolicited s h then some 9
  else none

/-- Classes that count toward quarantine (Table 10-6). -/
def towardQuarantine (cls : Nat) : Bool := cls ≠ 1 && cls ≠ 7

/-- A violation on a link: counted, captured, and the link quarantined at VIOL_LIMIT (R267, R268). -/
def violate (s : State) (k cls h : Nat) : State :=
  let l := linkOf s k
  let ms := (s.now - s.powerUpAt) / 1000000
  let n := if l.capMs == ms then l.capN else 0
  let q := if towardQuarantine cls then l.viols + 1 else l.viols
  let trip := !l.quarantined && cfg s 0x25 4 ≤ q
  let s1 := setLink s k { l with
    viols := q, capMs := ms, capN := n + 1, quarantined := l.quarantined || trip,
    port := { l.port with violations := satAdd max16 l.port.violations 1 } }
  let cap : Capture := { hdr := h, link := k, cls := cls, tick := s.tick.count.toNat }
  let s2 := { s1 with fab := { s1.fab with
    classes := mset s1.fab.classes cls (satAdd max32 (mget 0 s1.fab.classes cls) 1),
    captures := if n < 4 then (if 256 ≤ s1.fab.captures.length then s1.fab.captures.drop 1 else s1.fab.captures) ++ [cap]
                else s1.fab.captures,
    mapDirty := s1.fab.mapDirty || trip } }
  if trip then fire (faultLog s2 0x41 4 (k :: (List.range 9).map (fun c => mget 0 s2.fab.classes (c + 1)))) 19 else s2

/-! ## Taking an arrived packet off a lane, and its credits (R254) -/

/-- Running counts of all pairs, as a CREDIT flit's body (Table 10-7). -/
def creditBody (l : Link) : Nat := packBits ((List.range 12).map (fun i => ((mget {} l.pairs i).count, 12)))

/-- A link flit leaves on the accepted lanes of a link (09 Table 9-2); its word carries CTRL_LOST while the package is headless
(09 R235). -/
def sendFlit (s : State) (k kind body : Nat) : State :=
  s.emit (.flit k kind (sealHdr (packBits [(0xFFFF, 16), (kind, 8), (b2n s.mbx.headless, 1), (0, 7), (body, 208)])))

/-- The receiver's counts change, and a CREDIT flit says so within 200 ns (R254). -/
def sendCredit (s : State) (k : Nat) : State :=
  if (linkOf s k).rxLanes == 0 then s else sendFlit s k 3 (creditBody (linkOf s k))

/-- Flits that arrived on a pair and go at once are freed and granted again (R254). -/
def freeFlits (s : State) (k pair n : Nat) : State :=
  let l := linkOf s k
  let p := mget {} l.pairs pair
  sendCredit (setLink s k { l with pairs := mset l.pairs pair { p with count := (p.count + n) % 4096 } }) k

/-- Flits stay in the Loft: as many more are granted from the shared part of the link's share, while the pair's outstanding
flits are below CREDIT_CAP (R254; how many at a time is the model's, log 27). -/
def holdFlits (s : State) (k pair n : Nat) : State :=
  let l := linkOf s k
  let p := mget {} l.pairs pair
  let g := min n (min (cfg s 0x1B 4 - p.outstanding) (sharedFree l))
  let p1 : Pair := { p with held := p.held + n, outstanding := p.outstanding + g, count := (p.count + g) % 4096 }
  let s1 := setLink s k { l with pairs := mset l.pairs pair p1 }
  if g == 0 then s1 else sendCredit s1 k

/-- Flits held in the Loft leave it; what its reservation lacks is granted again (R254). -/
def releaseFlits (s : State) (k pair n : Nat) : State :=
  let l := linkOf s k
  let p := mget {} l.pairs pair
  let left := p.outstanding - n
  let back := 68 - left
  let p1 : Pair := { p with held := p.held - n, outstanding := left + back, count := (p.count + back) % 4096 }
  sendCredit (setLink s k { l with pairs := mset l.pairs pair p1 }) k

/-- A queued packet leaves its output queue: the share that held it is freed. -/
def releaseOut (s : State) (e : OutPkt) : State :=
  match e.from_ with
  | none => s
  | some k => releaseFlits s k (2 * hVc e.pkt.hdr) e.heldFlits

/-- The number that the commands give the packets of this package's own endpoints to each other. -/
def localLane : Nat := 255

/-- The first head flit that waits on a lane. -/
def laneHead (s : State) (n : Nat) : Option Pkt :=
  if n == localLane then s.fab.local_.head? else (laneOf s n).arrived.head?

/-- The head flit leaves the lane; a packet is counted as received. -/
def popLane (s : State) (n : Nat) : State :=
  if n == localLane then { s with fab := { s.fab with local_ := s.fab.local_.drop 1 } }
  else
    let a := laneOf s n
    setLane s n { a with arrived := a.arrived.drop 1 }

/-- A packet is counted as received on its port. -/
def countRx (s : State) (k h : Nat) : State :=
  let l := linkOf s k
  setLink s k { l with port := { l.port with rxPkts := satAdd max32 l.port.rxPkts 1,
                                             rxFlits := satAdd (2 ^ 48 - 1) l.port.rxFlits (pktFlits h) } }

/-- A quarantined link gives only VC0 and VC5 (R268). -/
def quarDrop (s : State) (k h : Nat) : Bool := (linkOf s k).quarantined && hVc h ≠ 0 && hVc h ≠ 5

/-- The payload of a packet in clear: opened, or as it arrived, cut to LEN flits. -/
def clearPay (p : Pkt) (opened : Option (List Byte)) : List Byte :=
  if hEnc p.hdr then (opened.getD []).take (32 * hLen p.hdr) else p.pay.take (32 * hLen p.hdr)

/-- A packet of opcode `op` for this position, first on lane `n`, passed every check of Table 10-6: it leaves the lane, its
flits are freed, and `k` handles it under R248, STALE_DEST first, which no KEY_XCHG (19 R453) and no LINKMAP, a message between
neighbours by position (log 38), can be. Packets within the package meet no link and no such check.
A packet of another kind stays. -/
def recvPkt (s : State) (n op : Nat) (opened : Option (List Byte)) (k : State → Nat → List Byte → State) : State :=
  match laneHead s n with
  | none => s
  | some p =>
    let h := p.hdr
    if bits h 0 16 == 0xFFFF || hOp h ≠ op || hDestPos h ≠ s.boot.posId then s
    else if n == localLane then k (popLane s n) h p.pay
    else
      let link := n / 3
      if (classify s link h opened).isSome || !usable s link then s
      else
        let s1 := freeFlits (countRx (popLane s n) link h) link (pairOf h) (if op == 0 then 0 else pktFlits h)
        if quarDrop s1 link h then discard s1 link
        else if lpkgOf s1 s1.boot.posId != some (hDestEid h / 1024) && op != 0x30 && op != 0x32 then discard s1 link
        else k s1 h (clearPay p opened)

end Sys2Proof.Machine
end

