-- ==== Sys2Proof/Machine/LineCode.lean ====
section
/-!
DEFINITION. Machine/LineCode.lean: where a line of a stack lies (07 R164), its Reed-Solomon codeword (R166, R168) and
what its decoder can give (R167).
-/
namespace Sys2Proof.Machine

/-- Pseudo-channel, bank, column and row of a line (R164). -/
def linePc (l : Nat) : Nat := bits l 0 6 ^^^ bits l 13 6
def lineBank (l : Nat) : Nat := bits l 6 4 ^^^ bits l 19 4
def lineCol (l : Nat) : Nat := bits l 10 3
def lineRow (l : Nat) : Nat := bits l 13 16

/-- Multiplication by the root of the field polynomial 0x1100B. -/
def gfTwice (a : Nat) : Nat := if 0x8000 ≤ a then (2 * a) ^^^ 0x1100B else 2 * a

/-- The product in GF(2^16), `n` bits of the second factor taken in turn. -/
def gfMulN : Nat → Nat → Nat → Nat
  | 0, _, _ => 0
  | n + 1, a, b => (if b % 2 == 1 then a else 0) ^^^ gfMulN n (gfTwice a) (b / 2)

def gfMul (a b : Nat) : Nat := gfMulN 16 a b

/-- The power of the root. -/
def gfPow : Nat → Nat
  | 0 => 1
  | n + 1 => gfTwice (gfPow n)

/-- A polynomial, highest coefficient first, times (x - r). -/
def gfLinear (g : List Nat) (r : Nat) : List Nat :=
  List.zipWith (fun a b => a ^^^ gfMul b r) (g ++ [0]) (0 :: g)

/-- The generator of R166, highest coefficient first. -/
def lineGen : List Nat := (List.range 8).foldl (fun g i => gfLinear g (gfPow i)) [1]

/-- One data symbol into the register of the division by the generator. -/
def lineStep (reg : List Nat) (d : Nat) : List Nat :=
  let f := d ^^^ reg.headD 0
  List.zipWith (fun a b => a ^^^ gfMul b f) (reg.drop 1 ++ [0]) (lineGen.drop 1)

/-- Symbols of a line's bytes (R166). -/
def lineSyms : List Byte → List Nat
  | a :: b :: r => (a.toNat + 256 * b.toNat) :: lineSyms r
  | _ => []

/-- The eight check symbols of a line (R166). -/
def lineCheck (l : List Byte) : List Nat := (lineSyms l).foldl lineStep (List.replicate 8 0)

/-- Check symbols of a poisoned line (R168). -/
def poisonCheck (l : List Byte) : List Nat := (lineCheck l).map (· ^^^ 0x5A5A)

/-- Lane of a symbol (R167). -/
def laneOfSym (i : Nat) : Nat := i / 2

/-- What the decoder gives (Table 7-3). -/
inductive Decoded where
  | clean | corrected | uncorrectable
  /-- more symbol errors than Table 7-2 detects: not defined -/
  | beyond
  deriving DecidableEq, Repr

/-- Wrong symbols outside the marked lanes, each once. -/
def symErrors (marked syms : List Nat) : List Nat :=
  syms.eraseDups.filter (fun i => i < 72 && !marked.contains (laneOfSym i))

/-- Decoder result by Table 7-2, with at most two marked lanes. -/
def decodeLine (marked syms : List Nat) : Decoded :=
  let n := (symErrors marked syms).length
  if n ≤ 2 then (if (syms.filter (· < 72)).isEmpty then .clean else .corrected)
  else if n ≤ 6 - 2 * marked.length then .uncorrectable
  else .beyond

end Sys2Proof.Machine
end

