-- ==== Sys2Proof/Machine/MemOps.lean ====
section
/-!
DEFINITION. Machine/MemOps.lean: reading and writing lines of the stacks (07), sectors of the Cellars, and memory
addresses (08), shared by every command that reaches stacked memory.
-/
namespace Sys2Proof.Machine

/-- Frame of 2 MiB, in bytes and in lines. -/
def frameBytes : Nat := 0x200000
def frameLines : Nat := 16384

/-! ## Lines of a stack (R166 to R171) -/

/-- Marked lanes of a pseudo-channel (R172). -/
def markedLanes (st : Stack) (pc : Nat) : List Nat :=
  (List.range 36).filter (fun l => (mget {} st.lanes (36 * pc + l)).marked != 0)

/-- A codeword read on a pseudo-channel: counted, with the lanes on which an error was located (R172). -/
def countCodeword (st : Stack) (pc now : Nat) (lanes : List Nat) : Stack :=
  let c : PseudoChan := mget {} st.pcs pc
  let n := c.cws + 1
  { st with
    pcs := mset st.pcs pc { c with cws := n, lastRead := now },
    lanes := lanes.eraseDups.foldl (fun m l =>
      mupd {} m (36 * pc + l) (fun a => { a with errAt := (a.errAt.filter (fun e => n < e + 65536)) ++ [n] })) st.lanes }

/-- Wrong symbols that a read of a line brings. -/
def symsOf (mi : MemIn) (k line : Nat) : List Nat :=
  (mi.errs.filter (fun e => e.stack == k && e.line == line)).flatMap (·.syms)

/-- One line operation on a frame, from side 0 die A, 1 die B, 2 fabric die (08 R201). -/
def heatCount (s : State) (side k line : Nat) : State :=
  { s with place := { s.place with heat := mupd {} s.place.heat (32768 * k + line / frameLines) (fun h =>
      match side with
      | 0 => { h with ca := h.ca + 1 }
      | 1 => { h with cb := h.cb + 1 }
      | _ => { h with cf := h.cf + 1 }) } }

/-- Heat key of a Cellar slot: above those of the frames. -/
def slotHeatKey (p n : Nat) : Nat := 12 * 32768 + 65536 * p + n

/-- One line operation on a Cellar page, from a side (08 R204). -/
def slotHeatCount (s : State) (side p n : Nat) : State :=
  { s with place := { s.place with heat := mupd {} s.place.heat (slotHeatKey p n) (fun h =>
      match side with
      | 0 => { h with ca := h.ca + 1 }
      | 1 => { h with cb := h.cb + 1 }
      | _ => { h with cf := h.cf + 1 }) } }

/-- The memory-uncorrectable event of a stack's partition (Table 7-3). -/
def uncorrEvent (s : State) (k : Nat) : State := firePart s (partOfStack k) 6

/-- An uncorrectable line was read (Table 7-3). -/
def uncorrRead (s : State) (k : Nat) : State :=
  let st := stackOf s k
  uncorrEvent (setStack s k { st with uncorrLines := satAdd max16 st.uncorrLines 1 }) k

/-- What a line's read found: usable, uncorrectable or poisoned. -/
inductive LineRead where
  | good | uncorrectable | poisoned
  deriving DecidableEq, Repr

/-- The decoder's work on one read of a line (R167 to R170, R172, Table 7-3). A patrol read counts and writes back as a demand
read does. Beyond detection the result is open (log 7): reported uncorrectable, or taken for the line's data. -/
def readLine (s : State) (k line : Nat) (mi : MemIn) : State × LineRead :=
  let st := stackOf s k
  let pc := linePc line
  if st.poisoned.contains line then
    (setStack s k { countCodeword st pc s.now [] with poisonReads := satAdd max16 st.poisonReads 1 }, .poisoned)
  else if st.failed || st.bad.contains line then
    (uncorrRead (setStack s k (countCodeword st pc s.now [])) k, .uncorrectable)
  else
    let syms := symsOf mi k line
    let marked := markedLanes st pc
    let located := (symErrors marked syms).map laneOfSym
    let corr : Stack → Stack := fun st => { st with
      corrLines := satAdd max32 st.corrLines 1, corrInterval := st.corrInterval + 1,
      writeBack := if st.writeBack.contains line then st.writeBack else st.writeBack ++ [line] }
    match decodeLine marked syms with
    | .clean => (setStack s k (countCodeword st pc s.now []), .good)
    | .corrected => (setStack s k (corr (countCodeword st pc s.now located)), .good)
    | .uncorrectable =>
      (uncorrRead (setStack s k { countCodeword st pc s.now [] with bad := st.bad ++ [line] }) k, .uncorrectable)
    | .beyond =>
      if Config.beyondReported s.freeCtr then
        (uncorrRead (setStack s.drawn k { countCodeword st pc s.now [] with bad := st.bad ++ [line] }) k, .uncorrectable)
      else
        let bytes := (List.range 128).map (Config.miscorrected s.freeCtr)
        (stkWrite (setStack s.drawn k (corr (countCodeword st pc s.now []))) k (128 * line) bytes, .good)

/-- Bytes of a line as stored. -/
def lineBytes (s : State) (k line : Nat) : List Byte := stkRead s k (128 * line) 128

/-- The line's queued write-back is dropped, because newer data reached it (R170). -/
def dropWriteBack (st : Stack) (line : Nat) : Stack := { st with writeBack := st.writeBack.filter (· != line) }

/-- The line takes new bytes whole: bad or poisoned no longer (R168, R169). -/
def putLine (s : State) (k line : Nat) (bs : List Byte) : State :=
  let st := dropWriteBack (stackOf s k) line
  setStack (stkWrite s k (128 * line) bs) k
    { st with bad := st.bad.filter (· != line), poisoned := st.poisoned.filter (· != line) }

/-- The line is left poisoned (R168). -/
def poisonLine (s : State) (k line : Nat) : State :=
  let st := dropWriteBack (stackOf s k) line
  setStack s k { st with bad := st.bad.filter (· != line),
                         poisoned := if st.poisoned.contains line then st.poisoned else st.poisoned ++ [line] }

/-- Bytes of a line after a write of some of them. -/
def mergeBytes (old : List Byte) (new : List (Option Byte)) : List Byte :=
  List.zipWith (fun o n => n.getD o) old new

/-- A write of a line (R171): whole, or read, merged and written; a partial write to a line that reads as uncorrectable or
poisoned leaves it poisoned and answers with an error. -/
def writeLine (s : State) (k line : Nat) (new : List (Option Byte)) (mi : MemIn) : State × Bool :=
  if new.all (·.isSome) then (putLine s k line (new.map (·.getD 0)), true)
  else
    match readLine s k line mi with
    | (s1, .good) => (putLine s1 k line (mergeBytes (lineBytes s1 k line) new), true)
    | (s1, _) => (poisonLine s1 k line, false)

/-- A write to a line of a frame whose copy has ended goes to the destination frame too (08 R205). -/
def mirrorLine (s : State) (k line : Nat) : State :=
  match s.place.moves.find? (fun m => m.srcStack == k && m.srcFrame == line / frameLines && m.endAt.isSome) with
  | none => s
  | some m =>
    let d := frameLines * m.dstFrame + line % frameLines
    if (stackOf s k).poisoned.contains line || (stackOf s k).bad.contains line then poisonLine s m.dstStack d
    else putLine s m.dstStack d (lineBytes s k line)

/-- A demand write of a line, from a side. -/
def demandWrite (s : State) (side k line : Nat) (new : List (Option Byte)) (mi : MemIn) : State × Bool :=
  let (s1, good) := writeLine (heatCount s side k line) k line new mi
  (mirrorLine s1 k line, good)

/-- A request that was translated just before a commit meets the stub (08 R206): which do is open (log 7). -/
def stubPass (s : State) (k line : Nat) : State :=
  match s.place.stubs.find? (fun b => b.dstStack == k && b.dstFrame == line / frameLines && s.now ≤ b.at_ + 1000) with
  | none => s
  | some b =>
    if Config.staleTranslation s.freeCtr then
      { s.drawn with place := { s.place with sessions := mupd {} s.place.sessions b.session (fun p =>
          { p with stubForwards := satAdd max32 p.stubForwards 1 }) } }
    else s.drawn

/-- A demand read of a line, from a side. -/
def demandRead (s : State) (side k line : Nat) (mi : MemIn) : State × LineRead :=
  readLine (stubPass (heatCount s side k line) k line) k line mi

/-! ## Sectors of a Cellar (R184 to R189) -/

/-- Lines 4i to 4i + 3 of each set bit of PMAP (Table 7-8). -/
def pmapLines (pmap : Nat) : Nat := packBits ((List.range 32).map (fun l => (b2n (bit pmap (l / 4)), 1)))

/-- PMAP of poisoned lines (Table 7-8). -/
def linesPmap (lines : Nat) : Nat := packBits ((List.range 8).map (fun i => (b2n (bits lines (4 * i) 4 != 0), 1)))

def cellarBuf (s : State) (p g : Nat) : Option SectorBuf := (cellarOf s p).buf.find? (fun b => b.sector == g)

def setCellarBuf (s : State) (p : Nat) (b : SectorBuf) : State :=
  let c := cellarOf s p
  setCellar s p { c with buf := c.buf.map (fun x => if x.sector == b.sector then b else x) }

/-- The write count that sealing a sector now gives (R186). -/
def nextCount (c : Cellar) (g : Nat) : Nat :=
  match mfind c.table g with
  | none => 0
  | some e => if e.epoch == c.cur then e.count + 1 else 0

/-- A sector is sealed under the current epoch and written to host memory (R185, R186). -/
def sealSector (s : State) (p g : Nat) (data : List Byte) (poison : Nat) : State :=
  let c := cellarOf s p
  let n := nextCount c g
  let e : Sector := { epoch := c.cur, count := n, pmap := linesPmap poison, data := data }
  let s1 := (setCellar s p { c with table := mset c.table g e }).emit (.cellarWrite p g c.cur n e.pmap)
  if n == 0x80000000 then firePart s1 p 8 else s1

/-- A dirty sector of the buffer is written to host memory. -/
def cleanSector (s : State) (p : Nat) (b : SectorBuf) : State :=
  if b.dirty then setCellarBuf (sealSector s p b.sector b.data b.poison) p { b with dirty := false, age := 0 } else s

/-- Every dirty sector is written (R187). -/
def cleanCellar (s : State) (p : Nat) : State := (cellarOf s p).buf.foldl (fun s b => cleanSector s p b) s

/-- A place in the buffer of 64: the first sector that waits for nothing gives way, written back where it is dirty; a dirty
one cannot give way while the function cannot master the link (12 R311). -/
def cellarRoom (s : State) (p : Nat) : State :=
  let c := cellarOf s p
  if c.buf.length < 64 then s
  else
    match c.buf.find? (fun b => !b.pending && (!b.dirty || canMaster s (p + 1))) with
    | none => s
    | some b =>
      let s1 := cleanSector s p b
      let c1 := cellarOf s1 p
      setCellar s1 p { c1 with buf := c1.buf.filter (fun x => x.sector != b.sector) }

/-- What a fetch returns (R186, R188, R450): zeros for an unwritten sector; poison in every line of one whose check fails or
that the counter table marks; else the sealed data with the lines PMAP marks poisoned. -/
def openSector (c : Cellar) (g : Nat) (good : Bool) : SectorBuf :=
  match mfind c.table g with
  | none => { sector := g, data := List.replicate 4096 0 }
  | some e =>
    if good && !e.poisoned then { sector := g, data := e.data, poison := pmapLines e.pmap }
    else { sector := g, data := e.data, poison := 2 ^ 32 - 1 }

/-- A failed check counts and raises the Cellar-integrity event (R188). -/
def integrityFail (s : State) (p : Nat) : State :=
  firePart (setPartRec s p { partRec s p with cellarInt := satAdd max16 (partRec s p).cellarInt 1 }) p 9

/-- A fetched sector enters the buffer. -/
def fetchInto (s : State) (p g : Nat) (good : Bool) : State :=
  let c := cellarOf s p
  let wr := (mfind c.table g).isSome
  let s1 := setCellar s p { c with buf := (c.buf.filter (fun x => x.sector != g)) ++ [openSector c g good] }
  if wr && !good then integrityFail s1 p else s1

/-- A sector is in the buffer, fetched where it is missing (R187). -/
def cellarTouch (s : State) (p g : Nat) (mi : MemIn) : State :=
  match cellarBuf s p g with
  | some _ => s
  | none =>
    let s1 := cellarRoom s p
    let s2 := if (mfind (cellarOf s1 p).table g).isSome then s1.emit (.cellarRead p g) else s1
    fetchInto s2 p g (!mi.badSectors.contains (p, g))

/-- A Cellar sector can be served: buffered, or with a place in the buffer and either never written or fetched by a function
that can ask the host (R186, 12 R311). -/
def sectorReady (s : State) (p g : Nat) : Bool :=
  match cellarBuf s p g with
  | some b => !b.pending
  | none =>
    let c := cellarOf s p
    ((mfind c.table g).isNone || canMaster s (p + 1)) &&
    (c.buf.length < 64 || c.buf.any (fun b => !b.pending && (!b.dirty || canMaster s (p + 1))))

/-- A read of line `l` of a sector in the buffer. -/
def cellarLine (s : State) (p g l : Nat) (mi : MemIn) : State × List Byte × LineRead :=
  let s1 := cellarTouch s p g mi
  match cellarBuf s1 p g with
  | none => (s1, List.replicate 128 0, .poisoned)
  | some b => (s1, (b.data.drop (128 * l)).take 128, if bit b.poison l then .poisoned else .good)

/-- A write of line `l` of a sector merges into the buffer (R168, R186, R187). -/
def cellarWriteLine (s : State) (p g l : Nat) (new : List (Option Byte)) (mi : MemIn) : State × Bool :=
  let s1 := cellarTouch s p g mi
  match cellarBuf s1 p g with
  | none => (s1, false)
  | some b =>
    let c := cellarOf s1 p
    if !b.dirty && nextCount c g == 2 ^ 32 then (s1, false)
    else
      let full := new.all (·.isSome)
      let bad := bit b.poison l && !full
      let old := (b.data.drop (128 * l)).take 128
      let data := if bad then b.data else b.data.take (128 * l) ++ mergeBytes old new ++ b.data.drop (128 * l + 128)
      (setCellarBuf s1 p { b with data := data, dirty := true, age := 0,
                                  poison := if full then setBits b.poison l 1 0 else b.poison }, !bad)

/-! ## Memory addresses (08 R190 to R199) -/

/-- Where a line lies. -/
inductive LineAt where
  | stk (k line : Nat)
  | cel (p sector l : Nat)
  deriving DecidableEq, Repr

/-- The stacks and frames of a group: byte `x` of it is on stack `k`-th of `w`, at an offset in that frame (07 R165). -/
def groupByte (w x : Nat) : Nat × Nat := (x / 4096 % w, x / 4096 / w * 4096 + x % 4096)

/-- The buffer of this package that holds a memory address. -/
def bufAt (s : State) (ma : Nat) : Option (Nat × Buf) :=
  s.place.bufs.find? (fun e => e.2.holder == ownLpkg s && e.2.base ≤ ma && ma < e.2.base + frameBytes * e.2.pages.length)

/-- Where byte `x` of a buffer lies: its page's place and the byte within it. -/
def bufByte (b : Buf) (x : Nat) : Option (PageAt × Nat) :=
  let w := max 1 b.width
  let g := x / (w * frameBytes)
  let (k, off) := groupByte w (x % (w * frameBytes))
  (b.pages[g * w + k]?).map (fun p => (p, off))

/-- Where the line of a memory address lies. -/
def lineAt (s : State) (ma : Nat) : Option LineAt :=
  match bufAt s ma with
  | none => none
  | some (_, b) =>
    match bufByte b (ma - b.base) with
    | none => none
    | some (.frame k f, off) => some (.stk k (frameLines * f + off / 128))
    | some (.slot n, off) => some (.cel b.owner (512 * n + off / 4096) (off % 4096 / 128))

/-- First addresses of the lines that `n` bytes from `ma` touch. -/
def linesOf (ma n : Nat) : List Nat := if n == 0 then [] else (span (ma / 128) ((ma + n - 1) / 128 - ma / 128 + 1)).map (128 * ·)

/-- Who reaches an address (Table 8-4). -/
inductive Who where
  /-- of this package: the session of the partition -/
  | own (session : Nat)
  /-- a tray-mate on VC3: the session its partition carries there (log 8) -/
  | mate (session : Nat)
  /-- any package on VC2: its JOB -/
  | job (j : Nat)
  deriving DecidableEq, Repr

/-- Table 8-4 for one address. -/
def mayReach (s : State) (who : Who) (write : Bool) (ma : Nat) : Bool :=
  decide (ma < 2 ^ 40) &&
  match bufAt s ma with
  | none => false
  | some (_, b) =>
    match who with
    | .own ses => b.session == ses && ses != 0
    | .mate ses => bit b.attr 2 && b.session == ses && ses != 0
    | .job j => (bits b.attr 5 2 == 2 || (bits b.attr 5 2 == 1 && !write)) && (partOf s b.owner).jobs.contains j

/-- Table 8-4 for `n` bytes: every page is reached before any data moves (R199). -/
def mayReachAll (s : State) (who : Who) (write : Bool) (ma n : Nat) : Bool :=
  (linesOf ma n).all (mayReach s who write)

/-- Every line can be served now: no stack in self-refresh, every Cellar sector ready. -/
def lineReady (s : State) (ma : Nat) : Bool :=
  match lineAt s ma with
  | some (.stk k _) => !(stackOf s k).selfRefresh
  | some (.cel p g _) => sectorReady s p g
  | none => true

def rangeReady (s : State) (ma n : Nat) : Bool := (linesOf ma n).all (lineReady s)

/-- One line read by memory address: its 128 bytes and what the read found. -/
def readAt (s : State) (side ma : Nat) (mi : MemIn) : State × List Byte × LineRead :=
  match lineAt s ma with
  | some (.stk k l) => let (s1, r) := demandRead s side k l mi; (s1, lineBytes s1 k l, r)
  | some (.cel p g l) => cellarLine (slotHeatCount s side p (g / 512)) p g l mi
  | none => (s, List.replicate 128 0, .uncorrectable)

/-- Lines read in order: their bytes, and the lines marked uncorrectable. -/
def readLines (side : Nat) (mi : MemIn) : List Nat → State → State × List Byte × List Nat
  | [], s => (s, [], [])
  | a :: r, s =>
    let (s1, bs, f) := readAt s side a mi
    let (s2, rest, bad) := readLines side mi r s1
    (s2, bs ++ rest, if f == .good then bad else a :: bad)

/-- `n` bytes from a memory address, and the lines marked uncorrectable. -/
def maRead (s : State) (side ma n : Nat) (mi : MemIn) : State × List Byte × List Nat :=
  let (s1, bs, bad) := readLines side mi (linesOf ma n) s
  (s1, (bs.drop (ma % 128)).take n, bad)

/-- One line written by memory address. -/
def writeAt (s : State) (side ma : Nat) (new : List (Option Byte)) (mi : MemIn) : State × Bool :=
  match lineAt s ma with
  | some (.stk k l) => demandWrite s side k l new mi
  | some (.cel p g l) => cellarWriteLine (slotHeatCount s side p (g / 512)) p g l new mi
  | none => (s, false)

/-- Bytes given by line: those of the write that fall in the line at `a`. -/
def lineSlice (ma : Nat) (bs : List (Option Byte)) (a : Nat) : List (Option Byte) :=
  (List.range 128).map (fun i => if a + i < ma then none else (bs[a + i - ma]?).join)

def writeLines (side ma : Nat) (bs : List (Option Byte)) (mi : MemIn) : List Nat → State → State × List Nat
  | [], s => (s, [])
  | a :: r, s =>
    let (s1, good) := writeAt s side a (lineSlice ma bs a) mi
    let (s2, bad) := writeLines side ma bs mi r s1
    (s2, if good then bad else a :: bad)

/-- Bytes written from a memory address, none where a byte is left unwritten; and the lines whose write ended in error. -/
def maWriteSome (s : State) (side ma : Nat) (bs : List (Option Byte)) (mi : MemIn) : State × List Nat :=
  writeLines side ma bs mi (linesOf ma bs.length) s

def maWrite (s : State) (side ma : Nat) (bs : List Byte) (mi : MemIn) : State × List Nat :=
  maWriteSome s side ma (bs.map some) mi

/-- The first address written to a line becomes poison at the destination (R168): a copy's line whose source was
uncorrectable. -/
def maPoison (s : State) (ma : Nat) : State :=
  match lineAt s ma with
  | some (.stk k l) => mirrorLine (poisonLine s k l) k l
  | some (.cel p g l) =>
    match cellarBuf s p g with
    | none => s
    | some b => setCellarBuf s p { b with dirty := true, age := 0, poison := setBits b.poison l 1 1 }
  | none => s

end Sys2Proof.Machine
end

