-- ==== Sys2Proof/Machine/Memory.lean ====
section
/-!
DEFINITION. Machine/Memory.lean: the steps of the stacks and the Cellars (07).
-/
namespace Sys2Proof.Machine

/-- A stack works: trained, not failed, not in self-refresh. -/
def stackAwake (st : Stack) : Bool := st.trained && !st.failed && !st.selfRefresh

/-- MEM_WRITEBACK (R170): the corrected line is written, and its entry leaves the queue. -/
def execMemWriteback (t k line : Nat) (s : State) : Out :=
  run t s fun s => gate (stackAwake (stackOf s k) && (stackOf s k).writeBack.contains line)
    (fun s => setStack s k (dropWriteBack (stackOf s k) line)) s

/-- Codewords with a located error on a lane, among the last 65,536 of its pseudo-channel (R172). -/
def laneErrors (st : Stack) (pc lane : Nat) : Nat :=
  ((mget {} st.lanes (36 * pc + lane)).errAt.filter (fun e => (mget {} st.pcs pc).cws < e + 65536)).length

/-- Eye width of a lane, in steps (R175). -/
def eyeWidth (l : StkLane) : Nat := 2 * l.offset

/-- The rule of R172: 1 by count, 2 by eye, 0 not met. -/
def markCause (st : Stack) (pc lane : Nat) : Nat :=
  if 256 ≤ laneErrors st pc lane then 1
  else if eyeWidth (mget {} st.lanes (36 * pc + lane)) < 6 then 2 else 0

/-- LANE_MARK (R172, R173): the lane is marked and the mark logged; the third lane of a pseudo-channel is not marked, and the
pseudo-channel is flagged degraded, with its event, once. -/
def execLaneMark (t k pc lane : Nat) (s : State) : Out :=
  run t s fun s =>
    let st := stackOf s k
    let a : StkLane := mget {} st.lanes (36 * pc + lane)
    let c := markCause st pc lane
    gate (decide (k < 12) && decide (pc < 64) && decide (lane < 36) && stackAwake st && a.marked == 0 && c != 0) (fun s =>
      if (markedLanes st pc).length < 2 then
        faultLog (setStack s k { st with lanes := mset st.lanes (36 * pc + lane) { a with marked := c } })
          0x20 (partOfStack k) [k, pc, lane, c]
      else if (mget {} st.pcs pc).degraded then s
      else firePart (setStack s k { st with pcs := mupd {} st.pcs pc (fun x => { x with degraded := true }) })
        (partOfStack k) 7) s

/-- The timing loop's step of one lane (R174): `e` and `lt` disagreements of the window. -/
def timingStep (a : StkLane) (e lt : Nat) : StkLane :=
  { a with
    delay := if lt + 32 < e then min 127 (a.delay + 1) else if e + 32 < lt then a.delay - 1 else a.delay,
    offset := if 64 < e + lt then max 1 (a.offset - 1) else if e + lt < 16 then min 32 (a.offset + 1) else a.offset }

/-- READ_TIMING_WINDOW (R174, R175): delay and offset move, and a narrow eye raises the margin event, at most once a second
for a stack. -/
def execReadTimingWindow (t k pc lane e lt : Nat) (s : State) : Out :=
  run t s fun s =>
    let st := stackOf s k
    gate (decide (k < 12) && decide (pc < 64) && decide (lane < 36) && decide (e ≤ 16384) && decide (lt ≤ 16384) && stackAwake st)
      (fun s =>
        let a := timingStep (mget {} st.lanes (36 * pc + lane)) e lt
        let st1 := { st with lanes := mset st.lanes (36 * pc + lane) a }
        let quiet := match st.lastMarginEvt with | none => true | some m => decide (m + 1000000000 ≤ s.now)
        if eyeWidth a < 8 && quiet then fire (setStack s k { st1 with lastMarginEvt := some s.now }) 20
        else setStack s k st1) s

/-- PROBE_READ (R176): a pseudo-channel without a read for 100 us reads its training region; `lanes` have a located error. -/
def execProbeRead (t k pc : Nat) (lanes : List Nat) (s : State) : Out :=
  run t s fun s =>
    let st := stackOf s k
    gate (decide (k < 12) && decide (pc < 64) && stackAwake st && decide ((mget {} st.pcs pc).lastRead + 100000 ≤ s.now))
      (fun s => setStack s k (countCodeword st pc s.now lanes)) s

/-- Lines of a stack. -/
def stackLines (s : State) : Nat := framesPerStack s * frameLines

/-- PATROL_READ (R178): the next line is read, and the position moves on. -/
def execPatrolRead (t k : Nat) (mi : MemIn) (s : State) : Out :=
  run t s fun s => gate (decide (k < 12) && stackAwake (stackOf s k)) (fun s =>
    let pos := (stackOf s k).patrolPos
    let s1 := (readLine s k pos mi).1
    setStack s1 k { stackOf s1 k with patrolPos := if pos + 1 < stackLines s then pos + 1 else 0 }) s

/-- Patrol limits of a stack: item 0x0040 without its stack number. -/
def patrolMin (s : State) (k : Nat) : Nat := bits (cfg s 0x40 k) 0 3
def patrolMax (s : State) (k : Nat) : Nat := bits (cfg s 0x40 k) 4 3

/-- A level within the limits (Table 15-6). -/
def patrolClamp (s : State) (k level : Nat) : Nat := max (patrolMin s k) (min (patrolMax s k) level)

/-- PATROL_LEVEL_UPDATE (R178): the end of a 60 s interval. -/
def execPatrolLevelUpdate (t k : Nat) (s : State) : Out :=
  run t s fun s =>
    let st := stackOf s k
    gate (decide (k < 12) && stackAwake st && decide (st.patrolAt + 60000000000 ≤ s.now)) (fun s =>
      let quiet := if st.corrInterval < 8 then st.quietRun + 1 else 0
      let fall := decide (10 ≤ quiet)
      let level := if 64 ≤ st.corrInterval then st.patrolLevel + 1 else if fall then st.patrolLevel - 1 else st.patrolLevel
      setStack s k { st with
        patrolAt := s.now, corrInterval := 0, quietRun := if fall then 0 else quiet,
        patrolLevel := patrolClamp s k level }) s

/-! ## The Cellar's own steps (R187, R188) -/

/-- A global sector number of the lent range. -/
def sectorLent (s : State) (p g : Nat) : Bool := (cellarOf s p).lent && decide (g < 512 * (cellarOf s p).slots)

/-- CELLAR_READ (R187): a hit is served from the buffer; a miss fetches the sector and its record from host memory, and an
unwritten sector is zeros without a fetch (19 R450). -/
def execCellarRead (t p g : Nat) (s : State) : Out :=
  run t s fun s => gate (sectorLent s p g && (cellarBuf s p g).isNone && sectorReady s p g) (fun s =>
    let s1 := cellarRoom s p
    let c := cellarOf s1 p
    if (mfind c.table g).isNone then fetchInto s1 p g true
    else (setCellar s1 p { c with buf := c.buf ++ [{ sector := g, data := List.replicate 4096 0, pending := true }] }).emit
      (.cellarRead p g)) s

/-- CELLAR_FETCH_COMPLETE (R186, R188): `good` is what the tag, epoch and count checks gave (log 8). -/
def execCellarFetchComplete (t p g : Nat) (good : Bool) (s : State) : Out :=
  run t s fun s => gate (match cellarBuf s p g with | some b => b.pending | none => false) (fun s => fetchInto s p g good) s

/-- Lines of a sector that bytes at an offset touch, written in turn. -/
def cellarWriteBytes (p g off : Nat) (bs : List Byte) (mi : MemIn) : List Nat → State → State
  | [], s => s
  | l :: r, s =>
    cellarWriteBytes p g off bs mi r (cellarWriteLine s p g l (lineSlice off (bs.map some) (128 * l)) mi).1

/-- CELLAR_WRITE (R187): the write merges into the buffered sector. -/
def execCellarWrite (t p g off : Nat) (bs : List Byte) (mi : MemIn) (s : State) : Out :=
  run t s fun s => gate (sectorLent s p g && sectorReady s p g && decide (off + bs.length ≤ 4096))
    (fun s => cellarWriteBytes p g off bs mi ((linesOf off bs.length).map (· / 128)) s) s

/-! ## The stack health record (R180) -/

/-- Lanes of a stack in order, with their numbers. -/
def allLanes (st : Stack) : List (Nat × StkLane) := (List.range 2304).map (fun i => (i, mget {} st.lanes i))

/-- The first lane of the smallest eye. -/
def minEye (st : Stack) : Nat × Nat :=
  (allLanes st).foldl (fun m e => if eyeWidth e.2 < m.2 then (e.1, eyeWidth e.2) else m) (0, 64)

/-- Table 7-5. -/
def healthRecord (st : Stack) : Nat :=
  let lanes := allLanes st
  let eye := if st.trained then minEye st else (0, 0)
  packBits [(st.corrLines, 32), (st.uncorrLines, 16), (st.poisonReads, 16), (st.patrolLevel, 3), (0, 5),
    (st.patrolPos / frameLines, 24), ((lanes.filter (fun e => e.2.marked != 0)).length, 8),
    ((st.pcs.filter (fun e => e.2.degraded)).length, 7), (0, 1), (eye.2, 7), (0, 9), (st.retired.length, 16),
    ((lanes.filter (fun e => e.2.delay == 0 || e.2.delay == 127)).length, 12), (0, 4), (st.testMismatch, 16),
    (eye.1, 12)]

/-- The RC fields of the record clear. -/
def clearHealth (s : State) (k : Nat) : State :=
  setStack s k { stackOf s k with corrLines := 0, uncorrLines := 0, poisonReads := 0 }

/-! ## Migration's copy (08 R205, R206, R208) -/

/-- One line of a migration: read at the source, written at the destination, poisoned there where it is uncorrectable. -/
def copyLine (s : State) (m : Migration) (mi : MemIn) (i : Nat) : State :=
  let a := frameLines * m.srcFrame + i
  let d := frameLines * m.dstFrame + i
  match readLine s m.srcStack a mi with
  | (s1, .good) => putLine s1 m.dstStack d (lineBytes s1 m.srcStack a)
  | (s1, _) => poisonLine s1 m.dstStack d

/-- MIGRATION_COPY_END (08 R205, R208): the 16,384 lines have been copied in ascending order; from here a write goes to both
frames, and the migration waits to commit. -/
def execMigrationCopyEnd (t k f : Nat) (mi : MemIn) (s : State) : Out :=
  run t s fun s =>
    match s.place.moves.find? (fun m => m.srcStack == k && m.srcFrame == f && m.endAt.isNone) with
    | none => s
    | some m =>
      let s1 := (List.range frameLines).foldl (fun s i => copyLine s m mi i) s
      { s1 with place := { s1.place with
          moves := s1.place.moves.map (fun x => if x == m then { m with endAt := some s1.now } else x) } }

/-- A frame begins its zero fill (08 R195). -/
def beginFill (s : State) (k f : Nat) : State :=
  { s with place := { s.place with filling := s.place.filling ++ [32768 * k + f] } }

/-- STUB_RETIRE (08 R206): two boundaries after the commit the stub goes and the source frame is filled. -/
def execStubRetire (t k f : Nat) (s : State) : Out :=
  run t s fun s =>
    match s.place.stubs.find? (fun b => b.stack == k && b.frame == f) with
    | none => s
    | some b => gate (decide (2 ≤ b.age)) (fun s =>
        beginFill { s with place := { s.place with stubs := s.place.stubs.filter (· != b) } } k f) s

/-- Zeros in a frame's lines, none of them bad or poisoned, and no heat of what lay there. -/
def zeroFrame (s : State) (k f : Nat) : State :=
  let st := stackOf s k
  let out : Nat → Bool := fun l => l / frameLines != f
  let s1 := { s with place := { s.place with heat := mdel s.place.heat (32768 * k + f) } }
  setStack (stkZero s1 k (frameBytes * f) frameBytes) k
    { st with bad := st.bad.filter out, poisoned := st.poisoned.filter out, writeBack := st.writeBack.filter out }

/-- FRAME_FILL_DONE (08 R195): the frame holds zeros and returns to the pool. -/
def execFrameFillDone (t k f : Nat) (s : State) : Out :=
  run t s fun s => gate (s.place.filling.contains (32768 * k + f) && !(stackOf s k).selfRefresh) (fun s =>
    zeroFrame { s with place := { s.place with filling := s.place.filling.filter (· != 32768 * k + f) } } k f) s

/-- FROZEN_EXPIRE (08 R211): the N ticks of Frozen are over. -/
def execFrozenExpire (t ses : Nat) (s : State) : Out :=
  run t s fun s =>
    match mfind s.place.sessions ses with
    | none => s
    | some p => gate (p.mode == 1 && p.left == 0) (fun s =>
        { s with place := { s.place with sessions := mset s.place.sessions ses { p with frozen := true } } }) s

end Sys2Proof.Machine
end

