-- ==== Sys2Proof/Machine/Placement.lean ====
section
/-!
DEFINITION. Machine/Placement.lean: logical buffers, the pool, migrations, movable tiles, and the placement and Cellar
commands (08, 07 R184, 15 R373).
-/
namespace Sys2Proof.Machine

/-! ## The pool (08 R195, 07 R183, R186) -/

/-- Frame key of a page's place. -/
def pageFrame : PageAt → Option Nat
  | .frame k f => some (32768 * k + f)
  | .slot _ => none

/-- Frames that are not in the pool: placed, being filled, reserved by migrations, behind stubs, retired, or a counter table. -/
def heldFrames (s : State) : List Nat :=
  s.place.bufs.flatMap (fun e => e.2.pages.filterMap pageFrame) ++ s.place.filling ++
  s.place.moves.map (fun m => 32768 * m.dstStack + m.dstFrame) ++ s.place.stubs.map (fun b => 32768 * b.stack + b.frame) ++
  (List.range 12).flatMap (fun k => (stackOf s k).retired.map (32768 * k + ·)) ++
  (List.range 4).flatMap (fun p => (cellarOf s p).tableAt)

/-- Free frames of a stack, `taken` set aside. -/
def freeFrames (s : State) (k : Nat) (taken : List Nat) : List Nat :=
  if (stackOf s k).failed then [] else
  let held := heldFrames s ++ taken
  (List.range (framesPerStack s)).filter (fun f => !held.contains (32768 * k + f))

/-- Stacks of a session's pool. -/
def poolStacks (s : State) (ses : Nat) : List Nat :=
  (partsWith s ses).flatMap stacksOf |>.filter (fun k => !(stackOf s k).failed)

/-- A page's slot is in use by a buffer of the partition. -/
def slotUsed (s : State) (p n : Nat) : Bool :=
  s.place.bufs.any (fun e => e.2.owner == p && e.2.pages.any (· == .slot n))

/-! ## Allocation (R192 to R197) -/

/-- What an allocation asks for. -/
structure AllocReq where
  handle : Nat
  session : Nat
  owner : Nat
  attr : Nat
  width : Nat
  stks : List Nat
  size : Nat
  deriving DecidableEq, Repr

def AllocReq.streaming (a : AllocReq) : Bool := bit a.attr 0
def AllocReq.resident (a : AllocReq) : Bool := bit a.attr 1
def AllocReq.shared (a : AllocReq) : Bool := bit a.attr 2
def AllocReq.pinned (a : AllocReq) : Bool := bit a.attr 3
def AllocReq.movable (a : AllocReq) : Bool := bit a.attr 4

/-- The interleave width (R194). -/
def AllocReq.w (a : AllocReq) (s : State) : Nat :=
  if a.pinned then a.width
  else if a.streaming then (if 2 ≤ (partsWith s a.session).length then 6 else 3)
  else 1

/-- Pages of the allocation: whole pages, and whole groups (R192, R194). -/
def AllocReq.pages (a : AllocReq) (s : State) : Nat := roundUp ((a.size + frameBytes - 1) / frameBytes) (a.w s)

/-- The attributes and the named width and stacks are allowed (Table 8-2, R194, 07 R165, 15 R373). -/
def allocBad (s : State) (a : AllocReq) : Bool :=
  bits a.attr 5 2 == 3 || bits a.attr 7 2 == 3 || (a.pinned && a.movable) || (!a.pinned && a.width != 0) ||
  (a.pinned &&
    (!([1, 2, 3, 6].contains a.width) || a.stks.eraseDups.length != a.width ||
     !(a.stks.all (fun k => k < 12 && (partsWith s a.session).contains (partOfStack k))) ||
     (a.width == 6 && (partsWith s a.session).length < 2))) ||
  s.place.bufs.any (fun e => e.2.session == a.session && e.2.handle == a.handle) ||
  ((mget {} s.place.sessions a.session).mode == 2 && !a.pinned)

/-- `n` different members of a list, chosen in turn (log 7). -/
def pickN (s : State) (i : Nat) : Nat → List Nat → List Nat
  | 0, _ => []
  | n + 1, l =>
    match choose s i l with
    | none => []
    | some k => k :: pickN s (i + 1) n (l.filter (· != k))

/-- A frame in each of the stacks. -/
def groupFrames (s : State) (i : Nat) (taken : List Nat) : List Nat → Option (List PageAt)
  | [] => some []
  | k :: r =>
    match choose s i (freeFrames s k taken), groupFrames s (i + 1) taken r with
    | some f, some l => some (.frame k f :: l)
    | _, _ => none

/-- One group: its stacks as named, or chosen from the pool with the preferred die first; a page of width 1 falls to a
Cellar slot where it may (R194 to R196). -/
def allocGroup (s : State) (a : AllocReq) (i : Nat) (taken slots : List Nat) : Option (List PageAt) :=
  let w := a.w s
  let cand := (poolStacks s a.session).filter (fun k => freeFrames s k taken != [])
  let die := bits a.attr 7 2
  let pref := cand.filter (fun k => die != 0 && k / 6 == die - 1)
  let ks := if a.pinned then a.stks else pickN s i w (if w ≤ pref.length then pref else cand)
  let frames := if ks.length == w then groupFrames s (i + 8) taken ks else none
  match frames with
  | some l => some l
  | none =>
    let c := cellarOf s a.owner
    if w == 1 && !a.resident && !a.pinned && !a.shared && c.lent && !c.releasing then
      (choose s i ((List.range c.slots).filter (fun n => !slotUsed s a.owner n && !slots.contains n))).map
        (fun n => [.slot n])
    else none

/-- All groups of a buffer, or nothing (R192). -/
def allocGroups (s : State) (a : AllocReq) : Nat → Nat → List Nat → List Nat → Option (List PageAt)
  | 0, _, _, _ => some []
  | n + 1, i, taken, slots =>
    match allocGroup s a i taken slots with
    | none => none
    | some g =>
      match allocGroups s a n (i + 16) (taken ++ g.filterMap pageFrame)
          (slots ++ g.filterMap (fun p => match p with | .slot m => some m | .frame _ _ => none)) with
      | none => none
      | some rest => some (g ++ rest)

/-- Page `i` of a region lies in a buffer of this package. -/
def pageTaken (s : State) (region i : Nat) : Bool := (bufAt s (region * 2 ^ 38 + frameBytes * i)).isSome

/-- Free pages of a region. -/
def freePages (s : State) (region : Nat) : Nat := ((List.range 131072).filter (fun i => !pageTaken s region i)).length

/-- Bases a buffer may take: multiples of the page and of the group's span, over free pages (R192). -/
def bases (s : State) (region w n : Nat) : List Nat :=
  (List.range 131072).filter (fun i => i % w == 0 && i + n ≤ 131072 && (List.range n).all (fun j => !pageTaken s region (i + j)))

/-- The buffer over the chosen places, at the page of its region that was chosen; none where either is missing. -/
def allocPlace (s : State) (a : AllocReq) : Option (List PageAt) → Option Nat → Option (State × Buf)
  | some pages, some i =>
    let b : Buf := { handle := a.handle, session := a.session, owner := a.owner, attr := a.attr, width := a.w s,
                     base := a.owner * 2 ^ 38 + frameBytes * i, size := a.size, holder := ownLpkg s, pages := pages }
    some ({ s.drawn with place := { s.place with
      bufs := s.place.bufs ++ [(s.place.nextBuf, b)], nextBuf := s.place.nextBuf + 1 } }, b)
  | _, _ => none

/-- The buffer is placed on this package, all of it, and reads as 0 (R192); none where it cannot be backed. -/
def allocHere (s : State) (a : AllocReq) : Option (State × Buf) :=
  allocPlace s a (allocGroups s a (a.pages s / a.w s) 1 [] []) (choose s 0 (bases s a.owner (a.w s) (a.pages s)))

/-- BASE of the response: a board address for BOARD_SHARED (R197, 01 R23). -/
def boardBase (pos base : Nat) : Nat := pos % 8 * 2 ^ 40 + base

/-- The response of R373. -/
def allocAnswer (base holder width : Nat) : List Byte := leBytes 16 (packBits [(base, 48), (holder, 6), (0, 2), (width, 3)])

/-! ## Messages between Haywards (10 R242, 15 R373): the layout is the model's (log 15) -/

/-- Kinds: 0 a request to hold a buffer, 1 its answer, 2 a free. -/
structure HayMsg where
  kind : Nat
  session : Nat
  handle : Nat
  attr : Nat := 0
  size : Nat := 0
  good : Bool := false
  base : Nat := 0
  width : Nat := 0
  deriving DecidableEq, Repr

def HayMsg.bytes (m : HayMsg) : List Byte :=
  leBytes 32 (packBits [(m.kind, 8), (m.session, 32), (m.handle, 32), (m.attr, 16), (m.size, 64), (b2n m.good, 8),
    (m.base, 48), (m.width, 8)])

def HayMsg.ofBytes (l : List Byte) : HayMsg :=
  let v := leNat (l.take 32)
  { kind := bits v 0 8, session := bits v 8 32, handle := bits v 40 32, attr := bits v 72 16, size := bits v 88 64,
    good := bit v 152, base := bits v 160 48, width := bits v 208 8 }

/-- A HAYWARD_MSG to a logical package. -/
def sendHay (s : State) (l : Nat) (m : HayMsg) : State :=
  sendTo s l 344 { op := 0x33, vc := 5, srcEid := ownEid s 344 } m.bytes

/-- The fields of a BUF_ALLOC request. -/
def allocReq (s : State) (part params : Nat) : AllocReq :=
  let w := bits params 48 3
  { handle := bits params 0 32, session := sessionOf s part, owner := part, attr := bits params 32 16, width := w,
    stks := (List.range w).map (fun i => bits params (64 + 4 * i) 4), size := bits params 128 64 }

/-- The tray-mate to ask next: the valid logical packages of the tray in increasing slot, those asked left out (R197). -/
def nextMate (s : State) (asked : List Nat) : Option Nat :=
  ((List.range 8).map (fun i => s.boot.posId / 8 * 8 + i)).find? (fun pos =>
    pos != s.boot.posId && (lpkgOf s pos).isSome && !asked.contains pos)

/-- A BOARD_SHARED allocation goes to the next candidate holder, or ends with NO_RESOURCE (R197, R373). -/
def askNext (s : State) (f : InFlight) (asked : List Nat) (returnOk : Bool) : State :=
  match nextMate s asked with
  | none => finish s (· == f) 0x31 [] returnOk
  | some pos =>
    let a := allocReq s f.part f.params
    let s1 := sendHay s ((lpkgOf s pos).getD 0) { kind := 0, session := a.session, handle := a.handle, attr := a.attr, size := a.size }
    let g := { f with kind := .bufAlloc (asked ++ [pos]) s.now }
    { s1 with mbx := { s1.mbx with flight := s1.mbx.flight.map (fun h => if h == f then g else h) } }

/-- BUF_ALLOC (15 R373, 08 R192 to R197). -/
def execBufAlloc (t : Nat) (a : MbxArgs) (s : State) : Out :=
  mbxCmd { opcode := 0x600, rights := 2, pkg := .c, partUse := .one, parts := some [.assigned, .running], resp := 16 } anyReq
    (fun r s =>
      let q := allocReq s r.part r.params
      { bad := q.size != 0 && allocBad s q, exceeds := q.size != 0 && freePages s q.owner < q.pages s })
    (fun r s =>
      let q := allocReq s r.part r.params
      if q.size == 0 then (s, .done 0 (allocAnswer 0 (ownLpkg s) 0))
      else
        match allocHere s q with
        | some (s1, b) =>
          (s1, .done 0 (allocAnswer (if q.shared then boardBase s.boot.posId b.base else b.base) b.holder b.width))
        | none =>
          if q.shared then
            match nextMate s [] with
            | none => (s, .done 0x31 [])
            | some pos =>
              (sendHay s ((lpkgOf s pos).getD 0)
                { kind := 0, session := q.session, handle := q.handle, attr := q.attr, size := q.size },
               .prog (.bufAlloc [pos] s.now))
          else (s, .done 0x31 []))
    t a s

/-- CANDIDATE_HOLDER_TIMEOUT (15 R373): a candidate that has not answered within 10 ms is passed over. -/
def execCandidateHolderTimeout (t m seq : Nat) (returnOk : Bool) (s : State) : Out :=
  run t s fun s =>
    match s.mbx.flight.find? (fun f => f.mb == m && f.seq == seq) with
    | none => s
    | some f =>
      match f.kind with
      | .bufAlloc asked at_ => gate (serving s && decide (at_ + 10000000 ≤ s.now)) (fun s => askNext s f asked returnOk) s
      | _ => s

/-! ## Migrations (R203 to R208, R212) -/

/-- A session's record changes. -/
def updSession (s : State) (ses : Nat) (f : Placement → Placement) : State :=
  { s with place := { s.place with sessions := mupd {} s.place.sessions ses f } }

/-- A FRAME_MOVE in flight ends with its 16 bytes: COMMIT_TICK and RESULT. -/
def endFrameMove (s : State) (flight : Option Nat) (tick result : Nat) : State :=
  match flight with
  | none => s
  | some k => finish s (fun f => flightKey f == k) 0 (leBytes 16 (packBits [(tick, 64), (result, 1)])) true

/-- A migration is abandoned: its reserved frame is filled, and the abandonment counts (R207). -/
def abandonMove (s : State) (m : Migration) : State :=
  let s1 := beginFill { s with place := { s.place with moves := s.place.moves.filter (· != m) } } m.dstStack m.dstFrame
  endFrameMove (updSession s1 m.session (fun p => { p with abandoned := satAdd max16 p.abandoned 1 })) m.flight 0 1

/-- Migrations that `sel` picks are abandoned. -/
def abandonMoves (s : State) (sel : Migration → Bool) : State := (s.place.moves.filter sel).foldl abandonMove s

/-- Line operations of a stack that migrations may take in a frame of T (R203): 64 pseudo-channels of 40 GB/s. -/
def migBudget (s : State) (ses : Nat) : Nat :=
  let p := (partsWith s ses).headD 0
  20000 * s.tick.periodUs * cfg s 0x60 p / 100

/-- Both stacks have the budget of one migration left in this frame (R203). -/
def budgetLeft (s : State) (ses src dst : Nat) : Bool :=
  mget 0 s.place.used src + frameLines ≤ migBudget s ses && mget 0 s.place.used dst + frameLines ≤ migBudget s ses

/-- Pages of a group, by the page index of one of them. -/
def groupOf (b : Buf) (page : Nat) : List PageAt :=
  let w := max 1 b.width
  ((List.range w).map (page / w * w + ·)).filterMap (b.pages[·]?)

/-- The die of a stack is in Fallow, or entering it: nothing moves in or out (Coincidences). -/
def dieAway (s : State) (k : Nat) : Bool := s.power.fallow.contains (k / 6) || (mfind s.power.entering (k / 6)).isSome

/-- A stack that a frame of a group may move to, heat aside (R202): in the pool, with a free frame, and holding no other
frame of the group. -/
def candidateStack (s : State) (b : Buf) (page k : Nat) : Bool :=
  (poolStacks s b.session).contains k && freeFrames s k [] != [] &&
  !(groupOf b page).any (fun p => match p with | .frame j _ => j == k | .slot _ => false)

/-- A migration starts: a free frame is reserved and both budgets are charged (R203, R205). -/
def startMove (s : State) (key : Nat) (b : Buf) (page dst : Nat) (tick flight : Option Nat) : State :=
  match b.pages[page]?, choose s 0 (freeFrames s dst []) with
  | some (.frame k f), some d =>
    let used := mupd 0 (mupd 0 s.place.used k (· + frameLines)) dst (· + frameLines)
    { s.drawn with place := { s.place with
        used := used,
        moves := s.place.moves ++ [{ session := b.session, buf := key, page := page, srcStack := k, srcFrame := f,
                                     dstStack := dst, dstFrame := d, tick := tick, flight := flight }] } }
  | _, _ => s

/-- The page moves to the destination frame with its heat, and a stub is set at the source (R201, R206). -/
def commitMove (s : State) (m : Migration) : State :=
  let src := 32768 * m.srcStack + m.srcFrame
  let s1 := { s with place := { s.place with
    moves := s.place.moves.filter (· != m),
    heat := mset (mdel s.place.heat src) (32768 * m.dstStack + m.dstFrame) (mget {} s.place.heat src),
    bufs := s.place.bufs.map (fun e =>
      if e.1 == m.buf then (e.1, { e.2 with pages := lset e.2.pages m.page (.frame m.dstStack m.dstFrame) }) else e),
    stubs := s.place.stubs ++ [{ stack := m.srcStack, frame := m.srcFrame, dstStack := m.dstStack, dstFrame := m.dstFrame,
                                 session := m.session, at_ := s.now }] } }
  endFrameMove (updSession s1 m.session (fun p => { p with migrations := satAdd max32 p.migrations 1 }))
    m.flight s.tick.count.toNat 0

/-! ## Freeing (R195, R198) -/

/-- A Cellar slot is free again: its sectors are unwritten, the buffer holds none of them, and its heat is gone. -/
def freeSlot (s : State) (p n : Nat) : State :=
  let c := cellarOf s p
  setCellar { s with place := { s.place with heat := mdel s.place.heat (slotHeatKey p n) } } p { c with table := mkeep c.table (fun g _ => g / 512 != n), buf := c.buf.filter (fun b => b.sector / 512 != n) }

/-- A buffer's pages go back: its migrations are abandoned, its frames filled, its slots freed; a buffer held on a tray-mate
is freed there by a message (15 R371). -/
def freeBuf (s : State) (key : Nat) (b : Buf) : State :=
  let s1 := abandonMoves s (fun m => m.buf == key)
  let s2 := b.pages.foldl (fun s p => match p with | .frame k f => beginFill s k f | .slot n => freeSlot s b.owner n) s1
  let s3 := { s2 with place := { s2.place with bufs := mdel s2.place.bufs key } }
  if b.holder == ownLpkg s then s3 else sendHay s3 b.holder { kind := 2, session := b.session, handle := b.handle }

/-- The buffer of a session by its handle. -/
def bufOf (s : State) (ses handle : Nat) : Option (Nat × Buf) :=
  s.place.bufs.find? (fun e => e.2.session == ses && ses != 0 && e.2.handle == handle)

/-- BUF_FREE (R198, 15 Table 15-13). -/
def execBufFree (t : Nat) (a : MbxArgs) (s : State) : Out :=
  mbxCmd { opcode := 0x601, rights := 2, pkg := .c, partUse := .one, parts := some [.assigned, .running, .fenced] } anyReq
    (fun r s => { bad := (bufOf s (sessionOf s r.part) (r.f 0 32)).isNone })
    (fun r s =>
      match bufOf s (sessionOf s r.part) (r.f 0 32) with
      | none => (s, ok)
      | some (key, b) => (freeBuf s key b, ok))
    t a s

def pagesStack (b : Buf) : Nat := (b.pages.filter (fun p => (pageFrame p).isSome)).length
def pagesCellar (b : Buf) : Nat := (b.pages.filter (fun p => (pageFrame p).isNone)).length

/-- A state other than FREE. -/
def notFree : List PState := [.assigned, .running, .fenced, .failed, .dormant]

/-- BUF_QUERY (R192). -/
def execBufQuery (t : Nat) (a : MbxArgs) (s : State) : Out :=
  mbxCmd { opcode := 0x602, rights := 3, pkg := .c, partUse := .one, parts := some notFree, resp := 32 } anyReq
    (fun r s => { bad := (bufOf s (sessionOf s r.part) (r.f 0 32)).isNone })
    (fun r s =>
      match bufOf s (sessionOf s r.part) (r.f 0 32) with
      | none => (s, ok)
      | some (_, b) =>
        let pos := (lptPos s b.holder).getD s.boot.posId
        let base := if bit b.attr 2 then boardBase pos b.base else b.base
        (s, .done 0 (leBytes 32 (packBits [(base, 48), (b.attr, 16), (b.size, 64), (pagesStack b, 32), (pagesCellar b, 24),
          (b.width, 3), (0, 5), (b.holder, 6)]))))
    t a s

/-! ## Modes, tiles, moves (R209 to R212) -/

/-- PLACEMENT_MODE (R211): staged for step 6. -/
def execPlacementMode (t : Nat) (a : MbxArgs) (s : State) : Out :=
  mbxCmd { opcode := 0x603, rights := 3, pkg := .c, partUse := .one, parts := some [.assigned, .running], resp := 8 } anyReq
    (fun r s => { bad := tickBad s (r.f 0 64) || r.f 64 2 == 3,
                  wrong := tickWrong s (r.f 0 64) ||
                    (r.f 64 2 == 2 && s.place.bufs.any (fun e => e.2.session == sessionOf s r.part && !bit e.2.attr 3)) })
    (fun r s => stageAns s (r.f 0 64) (.placement r.part (r.f 64 2) (r.f 80 16)))
    t a s

/-- TILE_MOVABLE (R209): staged for step 6. -/
def execTileMovable (t : Nat) (a : MbxArgs) (s : State) : Out :=
  mbxCmd { opcode := 0x604, rights := 3, pkg := .c, partUse := .one, parts := some [.assigned, .running], resp := 8 } anyReq
    (fun r s => { bad := tickBad s (r.f 0 64) ||
                    !((span (r.f 64 9) (r.f 73 9)).all (fun i => i < 288 && partOfTile i == r.part)),
                  wrong := tickWrong s (r.f 0 64) })
    (fun r s => stageAns s (r.f 0 64) (.movable r.part (r.f 64 9) (r.f 73 9) (bit r.params 82)))
    t a s

/-- FRAME_MOVE (R212): the copy starts at once and commits at the first boundary at or after the named tick. -/
def execFrameMove (t : Nat) (a : MbxArgs) (s : State) : Out :=
  mbxCmd { opcode := 0x605, rights := 3, pkg := .c, partUse := .one, parts := some [.running, .assigned], resp := 16 } anyReq
    (fun r s =>
      let dst := r.f 132 4
      { bad := tickBad s (r.f 0 64) ||
          (match bufOf s (sessionOf s r.part) (r.f 64 32) with
           | none => true
           | some (_, b) =>
             let page := r.f 96 32 * b.width + r.f 128 3
             b.width ≤ r.f 128 3 || b.pages.length ≤ page || !candidateStack s b page dst || dieAway s dst ||
               (match b.pages[page]? with
                | some (.frame k _) => dieAway s k
                | _ => true)),
        wrong := tickWrong s (r.f 0 64) || (mget {} s.place.sessions (sessionOf s r.part)).mode != 2 })
    (fun r s =>
      match bufOf s (sessionOf s r.part) (r.f 64 32) with
      | none => (s, ok)
      | some (key, b) =>
        (startMove s key b (r.f 96 32 * b.width + r.f 128 3) (r.f 132 4) (some (r.f 0 64)) (some (65536 * r.mb + r.seq)),
         .prog (.frameMove b.session (r.f 96 32) (r.f 128 3) (r.f 132 4))))
    t a s

/-- The placement record of a session (Table 8-6). -/
def placementRecord (s : State) (ses : Nat) : Nat :=
  let p : Placement := mget {} s.place.sessions ses
  let bs := (s.place.bufs.filter (fun e => e.2.session == ses)).map (·.2)
  packBits [((bs.map pagesStack).sum, 32), ((bs.map pagesCellar).sum, 24), (0, 8), (p.migrations, 32), (p.abandoned, 16),
    (p.tileMoves, 16), (p.stubForwards, 32), (p.cellarMoves, 32), (p.mode, 2), (b2n (p.mode == 1 && p.frozen), 1), (0, 13),
    (p.left, 16)]

/-- PLACEMENT_STATUS (R213): its RC fields clear for the operator only. -/
def execPlacementStatus (t : Nat) (a : MbxArgs) (s : State) : Out :=
  mbxCmd { opcode := 0x606, rights := 3, pkg := .c, partUse := .one, parts := some notFree, resp := 32 } anyReq noChk
    (fun r s =>
      let ses := sessionOf s r.part
      let bs := leBytes 32 (placementRecord s ses)
      (if r.op then updSession s ses (fun p =>
        { p with migrations := 0, abandoned := 0, tileMoves := 0, stubForwards := 0, cellarMoves := 0 }) else s, .done 0 bs))
    t a s

/-! ## The Cellar commands (07 R184, 19 R450) -/

/-- Frames of the counter table for a number of slots: 1,088 KiB for each GiB (07 R186). -/
def tableFrames (slots : Nat) : Nat := (2176 * slots + frameBytes - 1) / frameBytes

/-- That many free frames of the partition's own stacks. -/
def tablePlaces (s : State) (p n : Nat) : List Nat :=
  ((stacksOf p).flatMap (fun k => (freeFrames s k []).map (32768 * k + ·))).take n

/-- CELLAR_LEND (07 R184, 19 R450, R457): every sector is unwritten, and the epoch 0 key is drawn; HW_FAULT after a failed
DRBG health test. -/
def execCellarLend (t : Nat) (a : MbxArgs) (s : State) : Out :=
  mbxCmd { opcode := 0x607, rights := 2, pkg := .c, partUse := .one, parts := some [.assigned, .running] } anyReq
    (fun r s => { bad := r.f 0 64 % 4096 != 0 || r.f 64 17 == 0 || 65536 < r.f 64 17, wrong := (cellarOf s r.part).lent })
    (fun r s =>
      let n := tableFrames (r.f 64 17)
      let places := tablePlaces s r.part n
      if places.length < n then (s, .done 0x31 [])
      else if s.keys.drbgFailed then (s, .done 0x50 [])
      else (setCellar s.drawn r.part { lent := true, hostBase := r.f 0 64, slots := r.f 64 17, tableAt := places,
                                       k0 := some s.freeCtr }, ok))
    t a s

/-- A release that has no dirty sector left completes (07 R184): the keys are destroyed and the table's frames return. -/
def releaseStep (s : State) (p : Nat) (returnOk : Bool) : State :=
  let c := cellarOf s p
  if c.releasing && !c.buf.any (·.dirty) then
    let s1 := c.tableAt.foldl (fun s k => beginFill s (k / 32768) (k % 32768)) (setCellar s p {})
    finish s1 (fun f => f.kind == .cellarRelease && f.part == p) 0 [] returnOk
  else s

/-- The outcome of a command with a further effect. -/
def thenDo (o : Out) (f : State → State) : Out :=
  match o with
  | .next s => .next { f s with now := s.now, powerUpAt := s.powerUpAt, pending := s.pending }
  | x => x

/-- CELLAR_RELEASE (07 R184): the dirty sectors are written, and the release completes once none is left. -/
def execCellarRelease (t : Nat) (a : MbxArgs) (s : State) : Out :=
  thenDo
    (mbxCmd { opcode := 0x608, rights := 2, pkg := .c, partUse := .one, parts := some [.assigned, .running, .fenced] } anyReq
      (fun r s => { wrong := !(cellarOf s r.part).lent || (cellarOf s r.part).releasing ||
          s.place.bufs.any (fun e => e.2.owner == r.part && e.2.pages.any (fun p => (pageFrame p).isNone)) })
      (fun r s =>
        let s1 := setCellar s r.part { cellarOf s r.part with releasing := true }
        (if canMaster s1 (r.part + 1) then cleanCellar s1 r.part else s1, .prog .cellarRelease))
      t a s)
    (fun s => (List.range 4).foldl (fun s p => releaseStep s p a.returnOk) s)

/-- CELLAR_EVICT (07 R186, R187): a dirty sector is sealed and written; `leave` says whether its place is given up. The last
one of a Cellar being released completes the release. -/
def execCellarEvict (t p g : Nat) (leave : Bool) (s : State) : Out :=
  run t s fun s =>
    match cellarBuf s p g with
    | none => s
    | some b => gate (b.dirty && !b.pending && canMaster s (p + 1)) (fun s =>
        let s1 := cleanSector s p b
        let c := cellarOf s1 p
        let s2 := if leave then setCellar s1 p { c with buf := c.buf.filter (fun x => x.sector != g) } else s1
        releaseStep s2 p true) s

/-- STACK_HEALTH (07 R180). -/
def execStackHealth (t : Nat) (a : MbxArgs) (s : State) : Out :=
  mbxCmd { opcode := 0x609, rights := 3, pkg := .any, partUse := .pkg } anyReq
    (fun r s => { resp := some (if r.op then 384 else 96), wrong := decide (s.boot.stage.getD 0 < 7) })
    (fun r s =>
      let ks := if r.op then List.range 12 else stacksOf r.part
      let bs := ks.flatMap (fun k => leBytes 32 (healthRecord (stackOf s k)))
      (if r.op then ks.foldl clearHealth s else s, .done 0 bs))
    t a s

/-! ## Movable tiles (R209, R210) -/

/-- Column 12 * die + c of a logical tile. -/
def colOfTile (i : Nat) : Nat := i / 12

/-- Physical row of a logical tile. -/
def rowOfTile (s : State) (i : Nat) : Nat := mget (i % 12) s.boot.tileMap i

/-- The unused physical tile of a column, where no defect has taken the spare (R209). -/
def unusedRow (s : State) (col : Nat) : Option Nat :=
  (goodRows s col).find? (fun r => !(List.range 12).any (fun u => rowOfTile s (12 * col + u) == r))

/-- A work queue is EMPTY: nothing queued, and nothing issued but incomplete (04 Table 4-5). -/
def queueEmpty (c : Core) : Bool := c.queue.isEmpty && c.issued == c.completed

/-- Every core of the tile is stalled on SHEAF_NEXT or parked, and its queue EMPTY (R210). -/
def tileQuiet (s : State) (i : Nat) : Bool :=
  (List.range 4).all (fun c =>
    let k := coreOf s (4 * i + c)
    (k.stall == some .sheafNext || k.park) && queueEmpty k) && (tileOf s i).stream.jobs.isEmpty

/-- Placement moves are made for the session (Table 8-5). -/
def adaptive (s : State) (ses : Nat) : Bool :=
  let p : Placement := mget {} s.place.sessions ses
  p.mode == 0 || (p.mode == 1 && !p.frozen)

/-- The conditions of R209 and R210 for a tile and the row it would go to. -/
def tileMoveOk (s : State) (i row : Nat) : Bool :=
  let p := partOfTile i
  decide (i < 288) && (tileOf s i).movable && adaptive s (sessionOf s p) && sessionOf s p != 0 && tileQuiet s i &&
  s.now + 6000 ≤ nextBoundary s &&
  !s.place.tileMoves.any (fun m => colOfTile m.tile == colOfTile i) &&
  (s.place.tileMoves.filter (fun m => partOfTile m.tile == p)).length < 4 &&
  (match tilePair s (colOfTile i) (rowOfTile s i), tilePair s (colOfTile i) row with
   | some a, some b => decide (880 ≤ a) && decide (b + 60 ≤ a)
   | _, _ => false)

/-- TILE_MOVE_START (R210). -/
def execTileMoveStart (t i : Nat) (s : State) : Out :=
  run t s fun s =>
    match unusedRow s (colOfTile i) with
    | none => s
    | some row => gate (tileMoveOk s i row)
        (fun s => { s with place := { s.place with tileMoves := s.place.tileMoves ++ [{ tile := i, row := row, start := s.now }] } }) s

/-- A tile move ends without a move (R210). -/
def abandonTileMove (s : State) (i : Nat) : State :=
  let s1 := { s with place := { s.place with tileMoves := s.place.tileMoves.filter (fun m => m.tile != i) } }
  updSession s1 (sessionOf s (partOfTile i)) (fun p => { p with abandoned := satAdd max16 p.abandoned 1 })

/-- TILE_MOVE_ABANDON (R210): a core retires an instruction or takes a trap during the copy. -/
def execTileMoveAbandon (t i : Nat) (s : State) : Out :=
  run t s fun s => gate (s.place.tileMoves.any (fun m => m.tile == i && m.copyEnd.isNone)) (fun s => abandonTileMove s i) s

/-- TILE_COPY_END (R210): the copy's 2 us are over; the move commits at step 6 of the next boundary. -/
def execTileCopyEnd (t i : Nat) (s : State) : Out :=
  run t s fun s => gate (s.place.tileMoves.any (fun m => m.tile == i && m.copyEnd.isNone)) (fun s =>
    { s with place := { s.place with
        tileMoves := s.place.tileMoves.map (fun m => if m.tile == i then { m with copyEnd := some s.now } else m) } }) s

end Sys2Proof.Machine
end

