-- ==== Sys2Proof/Machine/TileOps.lean ====
section
/-!
DEFINITION. Machine/TileOps.lean: work queues and descriptors, their checks, issue and ends, scratchpad reads, address
spaces and counters, shared by the engines of a tile (04).
-/
namespace Sys2Proof.Machine

/-! ## Descriptors (Tables 4-10 to 4-20) -/

def dType (d : Nat) : Nat := bits d 0 4
def dWaitEn (d : Nat) : Bool := bit d 4
def dSigEn (d : Nat) : Bool := bit d 5
def dWaitCc (d : Nat) : Nat := bits d 8 12
def dSigCc (d : Nat) : Nat := bits d 20 12
def dWaitVal (d : Nat) : Nat := bits d 32 32

/-- Element width in bits of a format code; scales aside (Tables 3-1 and 4-11). -/
def fmtBits (c : Nat) : Nat :=
  match c with
  | 0 => 32 | 1 | 2 => 16 | 3 | 4 | 5 | 6 | 10 => 8 | 7 | 8 => 6 | 9 => 4
  | _ => 0

/-- A format code is an MX format. -/
def isMx (c : Nat) : Bool := 5 ≤ c && c ≤ 10

/-- Bytes of `n` elements: T2 takes 8 bytes for 32 (R57, R61). -/
def fmtBytes (c n : Nat) : Nat := if c == 11 then (n + 31) / 32 * 8 else (fmtBits c * n + 7) / 8

/-- Alignment of an array of a format (R106). -/
def fmtAlign (c : Nat) : Nat :=
  match c with
  | 0 => 4 | 1 | 2 => 2 | 3 | 4 | 5 | 6 | 10 => 1
  | _ => 8

/-- An extent lies within a scratchpad (R101); an empty one always does. -/
def spadFits (off n : Nat) : Bool := n == 0 || off + n ≤ spadBytes

/-- Reasons a list of (holds, code) gives, lowest first (R96). -/
def reasons (l : List (Bool × Nat)) : Option Nat := (l.find? (·.1)).map (·.2)

/-! ### MMA (Table 4-12) -/

def mA (d : Nat) : Nat := bits d 64 22
def mB (d : Nat) : Nat := bits d 86 22
def mAStride (d : Nat) : Nat := bits d 108 20
def mBStride (d : Nat) : Nat := bits d 128 20
def mAScale (d : Nat) : Nat := bits d 148 22
def mBScale (d : Nat) : Nat := bits d 170 22
def mMeta (d : Nat) : Nat := bits d 192 22
def mOut (d : Nat) : Nat := bits d 214 22
def mOutStride (d : Nat) : Nat := bits d 236 20
def mGroups (d : Nat) : Nat := bits d 256 11
def mAFmt (d : Nat) : Nat := bits d 267 4
def mBFmt (d : Nat) : Nat := bits d 271 4
def mOutFmt (d : Nat) : Nat := bits d 275 4
def mAcc (d : Nat) : Nat := bits d 279 2
def mAccZero (d : Nat) : Bool := bit d 281
def mWriteOut (d : Nat) : Bool := bit d 282
def mSparse (d : Nat) : Bool := bit d 283
def mSat (d : Nat) : Bool := bit d 284

/-- Operand pairs of Table 3-3, with SPARSE. -/
def pairOk (a b : Nat) (sparse : Bool) : Bool :=
  let fp8 : Nat → Bool := fun c => c == 3 || c == 4
  if sparse then (fp8 a && fp8 b) || (a == 9 && b == 9)
  else a == 1 && b == 1 || a == 2 && b == 2 || fp8 a && fp8 b || isMx a && a != 9 && isMx b || a == 9 && b == 9 ||
    fp8 a && b == 11 || a == 0 && b == 0

/-- Bytes of a row of A, and of a column of B. -/
def mRowA (d : Nat) : Nat := fmtBytes (mAFmt d) (32 * mGroups d)
def mColB (d : Nat) : Nat := fmtBytes (mBFmt d) (if mSparse d then 16 * mGroups d else 32 * mGroups d)

/-- Push reasons of an MMA (R96, R104). -/
def mmaReason (d : Nat) : Option Nat :=
  let k := mGroups d
  let ob := fmtBits (mOutFmt d) / 8
  reasons [
    (!pairOk (mAFmt d) (mBFmt d) (mSparse d) || (mWriteOut d && 4 < mOutFmt d), 2),
    (k != 0 && (!spadFits (mA d) (63 * mAStride d + mRowA d) || !spadFits (mB d) (127 * mBStride d + mColB d) ||
      (isMx (mAFmt d) && !spadFits (mAScale d) (64 * k)) || (isMx (mBFmt d) && !spadFits (mBScale d) (128 * k)) ||
      (mSparse d && !spadFits (mMeta d) (128 * 4 * k)) ||
      (mWriteOut d && !spadFits (mOut d) (63 * mOutStride d + 128 * ob))), 3),
    (mA d % 8 != 0 || mB d % 8 != 0 || mAStride d % 8 != 0 || mBStride d % 8 != 0 ||
      (isMx (mAFmt d) && mAScale d % 8 != 0) || (isMx (mBFmt d) && mBScale d % 8 != 0) ||
      (mSparse d && mMeta d % 8 != 0) || (mWriteOut d && (mOut d % 8 != 0 || mOutStride d % 8 != 0)), 4),
    (mAStride d < mRowA d || mBStride d < mColB d || (mWriteOut d && mOutStride d < 128 * ob), 9)]

/-! ### Vector (Table 4-14) -/

def vOp (d : Nat) : Nat := bits d 64 6
def vSrc (d : Nat) : Nat := bits d 70 4
def vDst (d : Nat) : Nat := bits d 74 4
def vRnd (d : Nat) : Nat := bits d 78 2
def vSat (d : Nat) : Bool := bit d 80
def vYImm (d : Nat) : Bool := bit d 81
def vX (d : Nat) : Nat := bits d 82 22
def vY (d : Nat) : Nat := bits d 104 22
def vZ (d : Nat) : Nat := bits d 126 22
def vD (d : Nat) : Nat := bits d 148 22
def vXScale (d : Nat) : Nat := bits d 170 22
def vDScale (d : Nat) : Nat := bits d 192 22
def vCount (d : Nat) : Nat := bits d 214 24
def vImm (d : Nat) : Nat := bits d 238 32

/-- The operation names Y, and Z (Table 4-15). -/
def namesY (op : Nat) : Bool := (1 ≤ op && op ≤ 6) || op == 0x0D || op == 0x0E
def namesZ (op : Nat) : Bool := op == 4

/-- Push reasons of a vector descriptor (R96, R106, R107). -/
def vecReason (d : Nat) : Option Nat :=
  let op := vOp d
  let n := vCount d
  let src := vSrc d
  let dst := vDst d
  let y := namesY op && !vYImm d
  let block := isMx src || src == 11 || isMx dst
  reasons [
    (0x0E < op || 11 < src || 10 < dst || vRnd d == 3 || (op != 0 && 1 < src), 2),
    (!spadFits (vX d) (fmtBytes src n) || (y && !spadFits (vY d) (fmtBytes src n)) ||
      (namesZ op && !spadFits (vZ d) (fmtBytes src n)) || !spadFits (vD d) (fmtBytes dst n) ||
      (isMx src && !spadFits (vXScale d) (n / 32)) || (isMx dst && !spadFits (vDScale d) (n / 32)), 3),
    (vX d % fmtAlign src != 0 || (y && vY d % fmtAlign src != 0) || (namesZ op && vZ d % fmtAlign src != 0) ||
      vD d % fmtAlign dst != 0, 4),
    (block && n % 32 != 0, 5)]

/-! ### Tile DMA (Table 4-16) -/

def cSrcSpace (d : Nat) : Nat := bits d 64 2
def cSrcEid (d : Nat) : Nat := bits d 66 16
def cSrc (d : Nat) : Nat := bits d 82 48
def cDstSpace (d : Nat) : Nat := bits d 130 2
def cDstEid (d : Nat) : Nat := bits d 132 16
def cDst (d : Nat) : Nat := bits d 148 48
def cLen (d : Nat) : Nat := bits d 196 24
def cLines (d : Nat) : Nat := bits d 220 16
def cSrcStride (d : Nat) : Int := sx 32 (bits d 236 32)
def cDstStride (d : Nat) : Int := sx 32 (bits d 268 32)
def cOp (d : Nat) : Nat := bits d 300 2
def cConv (d : Nat) : Nat := bits d 302 3
def cSat (d : Nat) : Bool := bit d 305
def cDccEn (d : Nat) : Bool := bit d 306
def cDcc (d : Nat) : Nat := bits d 307 12
def cRoute (d : Nat) : Nat := bits d 319 2
def cVia (d : Nat) : Nat := bits d 321 7

/-- Source and destination element sizes of a conversion (Table 4-18). -/
def convSizes (c : Nat) : Nat × Nat :=
  match c with
  | 1 => (4, 2) | 2 => (2, 4) | 3 | 4 => (4, 1) | 5 | 6 => (2, 1)
  | _ => (1, 1)

/-- Destination bytes of source bytes under a conversion. -/
def convBytes (c n : Nat) : Nat := n * (convSizes c).2 / (convSizes c).1

/-- Address of line `l`. -/
def lineAddr (a : Nat) (stride : Int) (l : Nat) : Int := a + l * stride

/-- Every line of a strided walk over a scratchpad lies within it (R101). -/
def walkFits (a : Nat) (stride : Int) (lines n : Nat) : Bool :=
  lines == 0 || n == 0 ||
  (let e := lineAddr a stride (lines - 1)
   0 ≤ e && (a : Int) + n ≤ spadBytes && e + n ≤ spadBytes)

/-- Push reasons of a tile DMA descriptor (R96, R108, R109). -/
def dmaReason (d : Nat) : Option Nat :=
  if cOp d == 1 then none
  else if cOp d != 0 then some 2
  else
    let (se, de) := convSizes (cConv d)
    let out := convBytes (cConv d) (cLen d)
    reasons [
      (cConv d == 7, 2),
      ((cSrcSpace d ≤ 1 && !walkFits (cSrc d) (cSrcStride d) (cLines d) (cLen d)) ||
        (cDstSpace d ≤ 1 && !walkFits (cDst d) (cDstStride d) (cLines d) out), 3),
      (cConv d != 0 && (cSrc d % se != 0 || cDst d % de != 0 || cSrcStride d % (se : Int) != 0 ||
        cDstStride d % (de : Int) != 0 || cLen d % se != 0), 4),
      (cSrcSpace d != 0 && cDstSpace d != 0, 6),
      (cRoute d == 3 || (cRoute d == 2 && 71 < cVia d), 7)]

/-! ### Sync (Table 4-19) -/

def yValue (d : Nat) : Nat := bits d 64 32
def yCc (d : Nat) : Nat := bits d 96 12
def yOp (d : Nat) : Nat := bits d 108 2
def yRemote (d : Nat) : Bool := bit d 110
def yEid (d : Nat) : Nat := bits d 112 16

/-! ### Stream-out (Table 4-20) -/

def oTarget (d : Nat) : Nat := bits d 64 2
def oSrc (d : Nat) : Nat := bits d 66 22
def oBlock (d : Nat) : Nat := bits d 88 20
def oBlocks (d : Nat) : Nat := bits d 108 16
def oTrigCc (d : Nat) : Nat := bits d 124 12
def oTrigBase (d : Nat) : Nat := bits d 136 32
def oJob (d : Nat) : Nat := bits d 168 16
def oGroup (d : Nat) : Nat := bits d 184 12
def oSeq (d : Nat) : Nat := bits d 196 16
def oOffset (d : Nat) : Nat := bits d 212 32
def oDstSpace (d : Nat) : Nat := bits d 168 2
def oDstEid (d : Nat) : Nat := bits d 170 16
def oDst (d : Nat) : Nat := bits d 186 48
def oDstStride (d : Nat) : Int := sx 32 (bits d 234 32)
def oDccEn (d : Nat) : Bool := bit d 266
def oDcc (d : Nat) : Nat := bits d 267 12
def oRoute (d : Nat) : Nat := bits d 279 2
def oVia (d : Nat) : Nat := bits d 281 7

/-- Push reasons of a stream-out (R96, R112). -/
def streamReason (d : Nat) : Option Nat :=
  let put := oTarget d == 1
  reasons [
    (2 ≤ oTarget d || (put && oDstSpace d == 0), 2),
    (!spadFits (oSrc d) (oBlock d * oBlocks d) ||
      (put && oDstSpace d == 1 && !walkFits (oDst d) (oDstStride d) (oBlocks d) (oBlock d)), 3),
    (put && (oRoute d == 3 || (oRoute d == 2 && 71 < oVia d)), 7),
    (oBlock d % 32 != 0, 8)]

/-- The queue's check of a pushed descriptor (R96): none accepts it. -/
def pushReason (d : Nat) : Option Nat :=
  match dType d with
  | 1 => mmaReason d
  | 2 => vecReason d
  | 3 => dmaReason d
  | 4 => if yOp d == 3 then some 2 else none
  | 5 => streamReason d
  | 6 => none
  | _ => some 1

/-! ## Queues (R95 to R99) -/

/-- Logical tile and partition of a core key 4 * tile + core. -/
def tileOfCore (c : Nat) : Nat := c / 4
def partOfCore (c : Nat) : Nat := partOfTile (c / 4)

/-- INFLIGHT of a queue. -/
def coreInflight (c : Core) : Nat := (c.issued + 65536 - c.completed) % 65536

/-- The tile of a core works: bring-up has ended, its partition does not halt it, and it is not stopped or out of power. -/
def coreLive (s : State) (c : Nat) : Bool :=
  decide (c < 1152) && pkgU s && !halts s (partOfCore c) && pstate s (partOfCore c) != .dormant &&
  !s.heat.stopped && !s.boot.poweredOff

/-- The core retires a CSR access now: it is live and not stalled. -/
def coreReady (s : State) (c : Nat) : Bool := coreLive s c && !refusing s (partOfCore c) && (coreOf s c).stall.isNone

/-- A trap of a core (R96, R89): it leaves the model as an output, and the trap CSRs hold it. -/
def coreTrap (s : State) (c cause tval : Nat) : State :=
  let k := coreOf s c
  (setCore s c { k with mepc := (Config.corePc c s.now).toNat, mcause := cause, mtval := tval }).emit (.trap c cause tval)

/-- A descriptor enters its queue. -/
def enqueueDesc (s : State) (c d : Nat) : State :=
  let k := coreOf s c
  setCore s c { k with queue := k.queue ++ [d] }

/-- A push (R95, R96): refused with mcause 24 and the reason, queued, or held while the queue is full. -/
def pushDesc (s : State) (c d : Nat) : State :=
  match pushReason d with
  | some r => coreTrap s c 24 r
  | none =>
    let k := coreOf s c
    if 32 ≤ k.queue.length then setCore s c { k with stall := some (.push d) } else enqueueDesc s c d

/-- The wait condition of R115. -/
def ccReached (s : State) (p c v : Nat) : Bool := (ccGet s p c + 2 ^ 32 - v) % 2 ^ 32 < 2 ^ 31

/-- The unit of a descriptor type: 1 matrix, 2 vector, 3 tile DMA, 4 queue logic, 5 stream-out, 6 forwarder. -/
def engineOf (t : Tile) (u : Nat) : Engine :=
  match u with
  | 1 => t.matrix | 2 => t.vector | 3 => t.dma | 4 => t.sync | 5 => t.stream
  | _ => t.fwd

def withEngine (t : Tile) (u : Nat) (e : Engine) : Tile :=
  match u with
  | 1 => { t with matrix := e } | 2 => { t with vector := e } | 3 => { t with dma := e } | 4 => { t with sync := e }
  | 5 => { t with stream := e }
  | _ => { t with fwd := e }

def setEngine (s : State) (i u : Nat) (e : Engine) : State := setTile s i (withEngine (tileOf s i) u e)

/-- Descriptors a unit can hold: two inputs and the one it executes for the matrix and vector units (R97). -/
def engineSpace (u : Nat) : Nat :=
  match u with
  | 1 | 2 => 3 | 3 => 8 | 4 => 256
  | _ => 4

/-- The head of a core's queue can issue (R97, R99). -/
def headReady (s : State) (c : Nat) : Bool :=
  let k := coreOf s c
  match k.queue.head? with
  | none => false
  | some d =>
    !k.halted && coreInflight k < 64 &&
    (!dWaitEn d || ccReached s (partOfCore c) (dWaitCc d) (dWaitVal d)) &&
    (engineOf (tileOf s (tileOfCore c)) (dType d)).jobs.length < engineSpace (dType d)

/-- The queue the unit takes from next, among those whose head is ready for it (R97). -/
def nextIssuer (s : State) (i u : Nat) : Option Nat :=
  let first := (engineOf (tileOf s i) u).nextCore
  ((List.range 4).map (fun n => (first + n) % 4)).find? (fun n =>
    headReady s (4 * i + n) && ((coreOf s (4 * i + n)).queue.head?.map dType) == some u)

/-- Progress of a queue and of a unit, for the watchdog and the stall detectors (R94, 20 R463). -/
def markProgress (s : State) (c u : Nat) : State :=
  let e := engineOf (tileOf s (tileOfCore c)) u
  setCore (setEngine s (tileOfCore c) u { e with progress := true }) c { coreOf s c with progress := true }

/-- A descriptor a unit holds, by core and index. -/
def jobOf (s : State) (c u index : Nat) : Option Issued :=
  (engineOf (tileOf s (tileOfCore c)) u).jobs.find? (fun j => j.core == c && j.index == index)

/-- A descriptor a unit holds changes. -/
def setJob (s : State) (u : Nat) (j : Issued) : State :=
  let i := tileOfCore j.core
  let e := engineOf (tileOf s i) u
  setEngine s i u { e with jobs := e.jobs.map (fun x => if x.core == j.core && x.index == j.index then j else x), progress := true }

/-- The core counts as done (R93). -/
def coreDone (k : Core) : Bool := k.park || (k.done && queueEmpty k)

/-- Where every core of the partition counts as done, its sheaf is complete, and a late one is late no longer (R93, 02 R50). -/
def sheafSettle (s : State) (p : Nat) : State :=
  let r : Release := mget {} s.tick.rel p
  if r.out && (span (288 * p) 288).all (fun c => coreDone (coreOf s c)) then
    { s with tick := { s.tick with rel := mset s.tick.rel p { r with out := false, late := false, lag := 0 } } }
  else s

/-- A descriptor leaves its unit and counts as ended (R99). -/
def endJob (s : State) (u : Nat) (j : Issued) : State :=
  let i := tileOfCore j.core
  let e := engineOf (tileOf s i) u
  let s1 := setEngine s i u { e with jobs := e.jobs.filter (fun x => !(x.core == j.core && x.index == j.index)), progress := true }
  let k := coreOf s1 j.core
  sheafSettle (setCore s1 j.core { k with completed := (k.completed + 1) % 65536, progress := true }) (partOfCore j.core)

/-- A descriptor completes: it signals under SIG_EN (R100). -/
def completeJob (s : State) (u : Nat) (j : Issued) : State :=
  let s1 := endJob s u j
  if dSigEn j.desc then ccAdd s1 (partOfCore j.core) (dSigCc j.desc) 1 else s1

/-- A descriptor fails (R99): its first failure halts the queue and is recorded. -/
def failJob (s : State) (u : Nat) (j : Issued) (cause : Nat) : State :=
  let s1 := endJob s u j
  let k := coreOf s1 j.core
  if k.halted then s1
  else setCore s1 j.core { k with halted := true, errCause := cause, errType := dType j.desc, errIndex := j.index }

/-- A failure held against a queue until a FENCE reports it (R110). -/
def holdFail (s : State) (c cause : Nat) : State :=
  let k := coreOf s c
  setCore s c { k with fails := k.fails ++ [cause] }

/-! ## Scratchpads (R117) -/

/-- Errors met by a read: counted in SPAD_ECC. -/
def eccCount (s : State) (i : Nat) (si : SpadIn) : State :=
  let t := tileOf s i
  setTile s i { t with eccCorr := satAdd max32 t.eccCorr si.corrected, eccUncorr := satAdd max16 t.eccUncorr si.bad.length }

/-- One of the words found bad lies in an extent. -/
def badIn (si : SpadIn) (off n : Nat) : Bool := n != 0 && si.bad.any (fun w => off < 8 * w + 8 && 8 * w < off + n)

/-- Flags raised by a unit (03 R86). -/
def raiseFlags (s : State) (i : Nat) (fl : BitVec 8) : State :=
  let t := tileOf s i
  setTile s i { t with flags := t.flags ||| fl }

/-! ## Address spaces (Table 4-17, 08 R191, R199) -/

/-- Where an access goes: a scratchpad or memory of this package, an endpoint of another, or nowhere, with its CAUSE. -/
inductive Tgt where
  | spad (tile off : Nat)
  | mem (ma : Nat)
  | far (l ep vc addr : Nat)
  | refused (cause : Nat)
  deriving DecidableEq, Repr

/-- Two partitions share a tenant session or a job domain (08 R199, 10 R248). -/
def related (s : State) (p q : Nat) : Bool :=
  p == q || (sessionOf s p != 0 && sessionOf s p == sessionOf s q) ||
  (partOf s p).jobs.any ((partOf s q).jobs.contains ·)

/-- Refusal of a local access to memory, if any: 5 fenced, 3 not permitted, 2 beyond the buffer (10 R248). -/
def memRefusal (s : State) (p : Nat) (write : Bool) (ma n : Nat) : Option Nat :=
  if 2 ^ 40 ≤ ma then some 3
  else if refuses s p (ma / 2 ^ 38) then some 5
  else
    match bufAt s ma with
    | none => some 3
    | some (_, b) =>
      if !mayReach s (.own (sessionOf s p)) write ma then some 3
      else if b.base + frameBytes * b.pages.length < ma + n then some 2 else none

/-- An access of partition `p` of this package to memory of a logical package. -/
def memTgt (s : State) (p : Nat) (write : Bool) (l vc ma n : Nat) : Tgt :=
  if l == ownLpkg s then
    match memRefusal s p write ma n with
    | some c => .refused c
    | none => .mem ma
  else if 2 ^ 40 ≤ ma || (lptPos s l).isNone then .refused 3
  else .far l (340 + ma / 2 ^ 38) vc ma

/-- Where an address of a space lies, for partition `p` and its own tile `i` (none: the space 0 is not offered). -/
def spaceTgt (s : State) (p : Nat) (i : Option Nat) (write : Bool) (space eid : Nat) (addr : Int) (n : Nat) : Tgt :=
  if addr < 0 then .refused 3
  else
    let a := addr.toNat
    match space, i with
    | 0, some t => .spad t a
    | 0, none => .refused 3
    | 1, _ =>
      let l := eid / 1024
      let ep := eid % 1024
      if 288 ≤ ep then .refused 3
      else if l == ownLpkg s then
        if refuses s p (partOfTile ep) then .refused 5
        else if !related s p (partOfTile ep) then .refused 3 else .spad ep a
      else if (lptPos s l).isNone then .refused 3
      else .far l ep 2 a
    | 2, _ =>
      let slot := a / 2 ^ 40
      if 8 ≤ slot then .refused 3
      else if slot == s.boot.posId % 8 then memTgt s p write (ownLpkg s) 3 (a % 2 ^ 40) n
      else
        match lpkgOf s (s.boot.posId / 8 * 8 + slot) with
        | none => .refused 3
        | some l => memTgt s p write l 3 (a % 2 ^ 40) n
    | _, _ => memTgt s p write (eid / 1024) 2 a n

/-- The CAUSE of a NACK's status (Table 10-3). -/
def nackCause (status : Nat) : Nat :=
  match status with
  | 1 => 5 | 2 => 3 | 3 => 2
  | _ => 1

/-- Element converter of tile DMA (Table 4-18), round to nearest even. -/
def convElem (c : Nat) (sat : Bool) (w : Nat) : Nat × BitVec 8 :=
  match c with
  | 1 => bf16.enc .rne sat (fp32.dec w)
  | 2 => fp32.enc .rne sat (bf16.dec w)
  | 3 => e4m3.enc .rne sat (fp32.dec w)
  | 4 => e5m2.enc .rne sat (fp32.dec w)
  | 5 => e4m3.enc .rne sat (bf16.dec w)
  | 6 => e5m2.enc .rne sat (bf16.dec w)
  | _ => (w, 0)

/-- Bytes converted, element by element. -/
def convLine (c : Nat) (sat : Bool) (bs : List Byte) : List Byte × BitVec 8 :=
  if c == 0 then (bs, 0)
  else
    let (se, de) := convSizes c
    (List.range (bs.length / se)).foldl (fun a i =>
      let (w, fl) := convElem c sat (leNat ((bs.drop (se * i)).take se))
      (a.1 ++ leBytes de w, a.2 ||| fl)) ([], 0)

/-- Pieces of at most 1,024 bytes: (offset, length). -/
def pieces (n : Nat) : List (Nat × Nat) := (List.range ((n + 1023) / 1024)).map (fun i => (1024 * i, min 1024 (n - 1024 * i)))

/-- Data lands in a scratchpad of this package (04 R110): the counter DCC advances by its bytes. -/
def landSpad (s : State) (tile off : Nat) (bs : List Byte) (dcc : Option Nat) : State :=
  let s1 := spadWrite s tile off bs
  match dcc with
  | none => s1
  | some c => ccAdd s1 (partOfTile tile) c bs.length

/-- Data lands in memory of this package, with the lines whose write ended in error. -/
def landMem (s : State) (side ma : Nat) (bs : List Byte) (dcc : Option Nat) (mi : MemIn) : State × Bool :=
  let (s1, bad) := maWrite s side ma bs mi
  if bad.isEmpty then
    (match dcc with
     | none => s1
     | some c => ccAdd s1 (ma / 2 ^ 38) c bs.length, true)
  else (s1, false)

/-- Side of line operations of a logical tile (08 R201). -/
def sideOfTile (i : Nat) : Nat := i / 144

end Sys2Proof.Machine
end

