-- ==== Sys2Proof/Machine/Matrix.lean ====
section
/-!
DEFINITION. Machine/Matrix.lean: the matrix unit (03 R64 to R75, 04 R103 to R105).
-/
namespace Sys2Proof.Machine

/-- Float format of a code of Table 4-11; none for MXINT8 and T2. -/
def fmtOf (c : Nat) : Option FloatFmt :=
  match c with
  | 0 => some fp32 | 1 => some bf16 | 2 => some fp16 | 3 | 5 => some e4m3 | 4 | 6 => some e5m2 | 7 => some e3m2
  | 8 => some e2m3 | 9 => some e2m1
  | _ => none

/-- Value of an element code. -/
def elemVal (c w : Nat) : FVal :=
  match fmtOf c with
  | some f => f.dec w
  | none => int8Val w

/-- One operand's 32 positions of a k-group: values, the scale's exponent (none is NaN), and flags. -/
structure GroupIn where
  vals : List FVal
  scale : Option Int := some 0
  fl : BitVec 8 := 0
  deriving DecidableEq, Repr

/-- Elements of a packed run. -/
def runVals (bs : List Byte) (c n : Nat) : List FVal := (List.range n).map (fun i => elemVal c (packedElem bs (fmtBits c) i))

/-- Positions of a 2:4 group by its code (03 R66): the stored values at idx0 and idx1, or four zeros. -/
def sparseGroup (code : Nat) (a b : FVal) : List FVal × BitVec 8 :=
  let i0 := code % 4
  let i1 := code / 4 % 4
  let z := FVal.fin false 0 0
  if i1 ≤ i0 then ([z, z, z, z], fSpMeta)
  else ((List.range 4).map (fun i => if i == i0 then a else if i == i1 then b else z), 0)

/-- The 32 positions of a sparse k-group from its 16 stored values and 4 bytes of codes. -/
def sparseVals (stored : List FVal) (codes : List Byte) : List FVal × BitVec 8 :=
  let z := FVal.fin false 0 0
  (List.range 8).foldl (fun acc g =>
    let code := bits (leNat codes) (4 * g) 4
    let (v, fl) := sparseGroup code (stored.getD (2 * g) z) (stored.getD (2 * g + 1) z)
    (acc.1 ++ v, acc.2 ||| fl)) ([], 0)

/-- A k-group of row m of A. -/
def groupA (s : State) (i d m g : Nat) : GroupIn :=
  let c := mAFmt d
  let n := fmtBytes c 32
  { vals := runVals (spadRead s i (mA d + m * mAStride d + g * n) n) c 32,
    scale := if isMx c then scaleExp (leNat (spadRead s i (mAScale d + m * mGroups d + g) 1)) else some 0 }

/-- A k-group of column n of B. -/
def groupB (s : State) (i d n g : Nat) : GroupIn :=
  let c := mBFmt d
  let base := mB d + n * mBStride d
  let scale := if isMx c then scaleExp (leNat (spadRead s i (mBScale d + n * mGroups d + g) 1)) else some 0
  if c == 11 then
    let bs := (spadRead s i (base + 8 * g) 8).map (·.toNat)
    { vals := t2Elems bs, scale := scaleExp (bs.getD 7 0), fl := t2Flags bs }
  else if mSparse d then
    let w := fmtBytes c 16
    let (v, fl) := sparseVals (runVals (spadRead s i (base + g * w) w) c 16)
      (spadRead s i (mMeta d + n * 4 * mGroups d + 4 * g) 4)
    { vals := v, scale := scale, fl := fl }
  else
    let w := fmtBytes c 32
    { vals := runVals (spadRead s i (base + g * w) w) c 32, scale := scale }

/-- FP32 split into BF16 hi and lo (03 R71, R72). -/
def splitHi (v : FVal) : FVal := bf16.dec (bf16.enc .rtz false v).1
def splitLo (v : FVal) : FVal :=
  match v with
  | .fin _ _ _ => bf16.dec (bf16.enc .rne false (addV v (negV (splitHi v))).v).1
  | _ => .fin false 0 0

/-- Products of one position: three passes for two finite FP32 operands, else the one product (03 R71, R72). -/
def products (split : Bool) (a b : FVal) : List FRes :=
  match a, b with
  | .fin _ _ _, .fin _ _ _ =>
    if split then [mulV (splitHi a) (splitHi b), mulV (splitHi a) (splitLo b), mulV (splitLo a) (splitHi b)] else [mulV a b]
  | _, _ => [mulV a b]

/-- Exponent of the leading bit of the largest-magnitude product (03 R68). -/
def groupTop : List FVal → Option Int
  | [] => none
  | v :: r =>
    let t := match v with | .fin _ m e => if m == 0 then none else some (topExp m e) | _ => none
    match t, groupTop r with
    | none, u => u
    | some a, none => some a
    | some a, some b => some (max a b)

/-- A magnitude truncated to a multiple of 2^q, signed, as that multiple; and whether a bit was lost. -/
def truncTo (q : Int) (v : FVal) : Int × Bool :=
  match v with
  | .fin neg m e =>
    let (n, lost) := roundMag .rtz m e q
    (if neg then -(n : Int) else n, lost)
  | _ => (0, false)

/-- A k-group's result g, an FP32 value, and its flags (03 R68, R73). -/
def groupSum (split : Bool) (a b : GroupIn) : FVal × BitVec 8 :=
  let ps := (List.zipWith (products split) a.vals b.vals).flatten
  let fl := a.fl ||| b.fl ||| (ps.foldl (fun f p => f ||| p.fl) 0)
  let nanScale := a.scale.isNone || b.scale.isNone
  let infs := ps.filterMap (fun p => match p.v with | .inf s => some s | _ => none)
  if nanScale then (.nan, a.fl ||| b.fl ||| fNanIn)
  else if ps.any (fun p => p.fl == fNanIn) then (.nan, fl)
  else if ps.any (fun p => p.v.isNan) then (.nan, fl)
  else if infs.contains true && infs.contains false then (.nan, fl ||| fInvalid)
  else
    match infs with
    | x :: _ => (.inf x, fl)
    | [] =>
      match groupTop (ps.map (·.v)) with
      | none => (.fin false 0 0, fl)
      | some e =>
        let ts := ps.map (fun p => truncTo (e - 47) p.v)
        let sum := (ts.map (·.1)).sum
        let k := a.scale.getD 0 + b.scale.getD 0
        let (c, f2) := fp32.enc .rne false (ofScaled sum (e - 47 + k) false)
        (fp32.dec c, fl ||| f2 ||| flagIf (ts.any (·.2)) fTrunc)

/-- acc + g, rounded once (03 R68, R73): a NaN already in the accumulator is not one that was read. -/
def accStep (acc : BitVec 32 × BitVec 8) (g : FVal × BitVec 8) : BitVec 32 × BitVec 8 :=
  let a := fp32.dec acc.1.toNat
  let r := addV a g.1
  let fl := if a.isNan || g.1.isNan then 0 else r.fl
  let (c, f2) := roundRes fp32 .rne false { r with fl := fl }
  (BitVec.ofNat 32 c, acc.2 ||| g.2 ||| f2)

/-- One output element: every k-group in increasing order (03 R68). -/
def mmaElem (s : State) (i d m n : Nat) (acc0 : BitVec 32) : BitVec 32 × BitVec 8 :=
  let split := mAFmt d == 0
  (List.range (mGroups d)).foldl (fun a g => accStep a (groupSum split (groupA s i d m g) (groupB s i d n g))) (acc0, 0)

/-- Number of an accumulator element. -/
def accKey (acc m n : Nat) : Nat := 8192 * acc + 128 * m + n

/-- An accumulator element; +0 where none is listed. -/
def accGet (t : Tile) (acc m n : Nat) : BitVec 32 := mget 0 t.accs (accKey acc m n)

/-- An accumulator element takes a value; +0 leaves the list. -/
def accPut (l : SMap (BitVec 32)) (k : Nat) (v : BitVec 32) : SMap (BitVec 32) := if v == 0 then mdel l k else mset l k v

/-- All output elements in turn: the accumulator, the bytes written and the flags. -/
def mmaRows (s : State) (i d : Nat) : List Nat → Tile × Mem × BitVec 8 → Tile × Mem × BitVec 8
  | [], x => x
  | e :: r, (t, mem, fl) =>
    let m := e / 128
    let n := e % 128
    let (v, f1) := mmaElem s i d m n (if mAccZero d then 0 else accGet (tileOf s i) (mAcc d) m n)
    let t1 := { t with accs := accPut t.accs (accKey (mAcc d) m n) v }
    if mWriteOut d then
      match fmtOf (mOutFmt d) with
      | none => mmaRows s i d r (t1, mem, fl ||| f1)
      | some f =>
        let (c, f2) := roundRes f .rne (mSat d) ⟨fp32.dec v.toNat, 0⟩
        let w := fmtBits (mOutFmt d) / 8
        mmaRows s i d r (t1, spadPuts mem (spadBytes * i + mOut d + m * mOutStride d + n * w) (leBytes w c), fl ||| f1 ||| f2)
    else mmaRows s i d r (t1, mem, fl ||| f1)

/-- Extents an MMA reads (04 R104). -/
def mmaBad (si : SpadIn) (d : Nat) : Bool :=
  (List.range 64).any (fun m => badIn si (mA d + m * mAStride d) (mRowA d)) ||
  (List.range 128).any (fun n => badIn si (mB d + n * mBStride d) (mColB d)) ||
  (isMx (mAFmt d) && badIn si (mAScale d) (64 * mGroups d)) || (isMx (mBFmt d) && badIn si (mBScale d) (128 * mGroups d)) ||
  (mSparse d && badIn si (mMeta d) (512 * mGroups d))

/-- The unit executes: its partition runs and its die has power. -/
def unitLive (s : State) (i : Nat) : Bool := coreLive s (4 * i)

/-- MMA_COMPLETE (04 R105, 03 R68 to R75): the descriptor the unit executes finishes, or fails on an uncorrectable operand. -/
def execMmaComplete (t i : Nat) (si : SpadIn) (s : State) : Out :=
  run t s fun s =>
    match (tileOf s i).matrix.jobs with
    | [] => s
    | j :: _ => gate (unitLive s i) (fun s =>
        let d := j.desc
        if mGroups d == 0 then completeJob s 1 j
        else
          let s1 := eccCount s i si
          if mmaBad si d then failJob s1 1 j 1
          else
            let (t1, mem, fl) := mmaRows s1 i d (List.range 8192) (tileOf s1 i, s1.mem, 0)
            completeJob (raiseFlags (setTile { s1 with mem := mem } i t1) i fl) 1 j) s

end Sys2Proof.Machine
end

