-- ==== Sys2Proof/Machine/Vector.lean ====
section
/-!
DEFINITION. Machine/Vector.lean: the vector unit (03 R60, R76 to R85, R529; 04 R106, R107).
-/
namespace Sys2Proof.Machine

/-- Values of an operand array: blocks scaled, T2 decoded (03 R56, R58, R62), with the flags reading them raises. A NaN scale
makes every element of its block NaN. -/
def loadArray (s : State) (i c off scaleOff n : Nat) : List FVal × BitVec 8 :=
  if c == 11 then
    (List.range (n / 32)).foldl (fun acc b =>
      let bs := (spadRead s i (off + 8 * b) 8).map (·.toNat)
      let v := match scaleExp (bs.getD 7 0) with
        | none => List.replicate 32 FVal.nan
        | some k => (t2Elems bs).map (fun v => scaleV v k)
      (acc.1 ++ v, acc.2 ||| t2Flags bs)) ([], 0)
  else
    let vs := runVals (spadRead s i off (fmtBytes c n)) c n
    if isMx c then
      (vs.zipIdx.map (fun e =>
        match scaleExp (leNat (spadRead s i (scaleOff + e.2 / 32) 1)) with
        | none => .nan
        | some k => scaleV e.1 k), 0)
    else (vs, 0)

/-- Result of an exact operation or of one that R76 rounds once, before its rounding (Table 4-15). -/
def vecExact (op : Nat) (x y z : FVal) : FRes :=
  match op with
  | 0 => ⟨x, nanIn [x]⟩
  | 1 => addV x y
  | 2 => addV x (negV y)
  | 3 => mulV x y
  | 4 => fmaV x y z
  | 5 => minV x y
  | 6 => maxV x y
  | 7 => ⟨absV x, nanIn [x]⟩
  | 8 => ⟨negV x, nanIn [x]⟩
  | 0x0D => ⟨if ltV y x then .fin false 1 0 else .fin false 0 0, nanIn [x, y]⟩
  | 0x0E => ⟨if eqV x y then .fin false 1 0 else .fin false 0 0, nanIn [x, y]⟩
  | _ => ⟨x, 0⟩

/-- One element's result before its conversion: the exact result, or the FP32 output of an approximate function (03 R76). -/
def vecValue (op : Nat) (x y z : FVal) : FRes :=
  if 9 ≤ op && op ≤ 0x0C then
    let (c, fl) := approxFn (op - 9) (fp32.enc .rne false x).1
    ⟨fp32.dec c, fl⟩
  else vecExact op x y z

/-- The states of the 64 lanes (03 R83). -/
def gensOf (s : State) (i : Nat) : List (BitVec 64) := ((tileOf s i).gens).getD (seedGens 0 i)

/-- The lanes' states after `n` elements, each stepping its lane once (03 R84). -/
def gensAfter (gens : List (BitVec 64)) (n : Nat) : List (BitVec 64) :=
  gens.zipIdx.map (fun e => e.1 + (0x9E3779B97F4A7C15 : BitVec 64) * BitVec.ofNat 64 ((n + 63 - e.2) / 64))

/-- Rounding mode of element `e`: under SR, bits 31:0 of its lane's step (03 R78, R84). -/
def elemRnd (gens : List (BitVec 64)) (rnd e : Nat) : Rnd :=
  match rnd with
  | 0 => .rne
  | 1 => .rtz
  | _ =>
    let st := (gens.getD (e % 64) 0) + (0x9E3779B97F4A7C15 : BitVec 64) * BitVec.ofNat 64 (e / 64 + 1)
    .sr ((genOut st).toNat % 2 ^ 32)

/-- e_max of an MX element format (03 R60). -/
def emaxOf (c : Nat) : Int :=
  match c with
  | 5 => 8 | 6 => 15 | 7 => 4 | 8 => 2 | 9 => 2
  | _ => 0

/-- A number list packed into bytes, `w` bits each. -/
def packElems (w : Nat) (l : List Nat) : List Byte := leBytes ((w * l.length + 7) / 8) (packBits (l.map (fun v => (v, w))))

/-- Results to a plain format, element by element. -/
def storePlain (c : Nat) (sat : Bool) (rnds : List Rnd) (rs : List FRes) : List Byte × BitVec 8 :=
  match fmtOf c with
  | none => ([], 0)
  | some f =>
    let es := List.zipWith (fun r v => roundRes f r sat v) rnds rs
    (packElems (fmtBits c) (es.map (·.1)), es.foldl (fun a e => a ||| e.2) 0)

/-- Results to MX blocks: elements and scales (03 R60). -/
def storeBlocks (c : Nat) : Nat → List Rnd → List FRes → List Byte × List Byte × BitVec 8
  | 0, _, _ => ([], [], 0)
  | n + 1, rnds, rs =>
    let b := rs.take 32
    let (es, sc, fl) := encBlock (fmtOf c) (emaxOf c) (rnds.take 32) (b.map (·.v))
    let (es2, sc2, fl2) := storeBlocks c n (rnds.drop 32) (rs.drop 32)
    (packElems (fmtBits c) es ++ es2, leBytes 1 sc ++ sc2, fl ||| fl2 ||| (b.foldl (fun a r => a ||| r.fl) 0))

/-- Extents a vector descriptor reads. -/
def vecBad (si : SpadIn) (d : Nat) : Bool :=
  let n := fmtBytes (vSrc d) (vCount d)
  badIn si (vX d) n || (namesY (vOp d) && !vYImm d && badIn si (vY d) n) || (namesZ (vOp d) && badIn si (vZ d) n) ||
  (isMx (vSrc d) && badIn si (vXScale d) (vCount d / 32))

/-- The whole effect of a vector descriptor on its tile: D, its scales, the flags and the generators (R106, R107). -/
def vecRun (s : State) (i d : Nat) : State :=
  let n := vCount d
  let c := vSrc d
  let (xs, f1) := loadArray s i c (vX d) (vXScale d) n
  let imm := FVal.fin false 0 0
  let ys := if namesY (vOp d) then
      (if vYImm d then List.replicate n (fp32.dec (vImm d)) else (loadArray s i c (vY d) 0 n).1) else List.replicate n imm
  let zs := if namesZ (vOp d) then (loadArray s i c (vZ d) 0 n).1 else List.replicate n imm
  let rs := List.zipWith (fun x yz => vecValue (vOp d) x yz.1 yz.2) xs (ys.zip zs)
  let gens := gensOf s i
  let rnds := (List.range n).map (elemRnd gens (vRnd d))
  let t := tileOf s i
  let s1 := if vRnd d == 2 && n != 0 then setTile s i { t with gens := some (gensAfter gens n) } else s
  if isMx (vDst d) then
    let (es, sc, fl) := storeBlocks (vDst d) (n / 32) rnds rs
    raiseFlags (spadWrite (spadWrite s1 i (vD d) es) i (vDScale d) sc) i (f1 ||| fl)
  else
    let (es, fl) := storePlain (vDst d) (vSat d) rnds rs
    raiseFlags (spadWrite s1 i (vD d) es) i (f1 ||| fl)

/-- The descriptor that the vector unit executes completes as operation `op`, or fails on an uncorrectable operand. -/
def vecComplete (op t i : Nat) (si : SpadIn) (s : State) : Out :=
  run t s fun s =>
    match (tileOf s i).vector.jobs with
    | [] => s
    | j :: _ => gate (unitLive s i && vOp j.desc == op) (fun s =>
        if vCount j.desc == 0 then completeJob s 2 j
        else
          let s1 := eccCount s i si
          if vecBad si j.desc then failJob s1 2 j 1 else completeJob (vecRun s1 i j.desc) 2 j) s

/-- VOP_CONVERT (R107). -/
def execVopConvert (t i : Nat) (si : SpadIn) (s : State) : Out := vecComplete 0x00 t i si s
/-- VOP_ADD (03 R76). -/
def execVopAdd (t i : Nat) (si : SpadIn) (s : State) : Out := vecComplete 0x01 t i si s
/-- VOP_SUB (03 R76). -/
def execVopSub (t i : Nat) (si : SpadIn) (s : State) : Out := vecComplete 0x02 t i si s
/-- VOP_MUL (03 R76). -/
def execVopMul (t i : Nat) (si : SpadIn) (s : State) : Out := vecComplete 0x03 t i si s
/-- VOP_FMA (03 R76). -/
def execVopFma (t i : Nat) (si : SpadIn) (s : State) : Out := vecComplete 0x04 t i si s
/-- VOP_MIN (03 R76). -/
def execVopMin (t i : Nat) (si : SpadIn) (s : State) : Out := vecComplete 0x05 t i si s
/-- VOP_MAX (03 R76). -/
def execVopMax (t i : Nat) (si : SpadIn) (s : State) : Out := vecComplete 0x06 t i si s
/-- VOP_ABS (03 R76). -/
def execVopAbs (t i : Nat) (si : SpadIn) (s : State) : Out := vecComplete 0x07 t i si s
/-- VOP_NEG (03 R76). -/
def execVopNeg (t i : Nat) (si : SpadIn) (s : State) : Out := vecComplete 0x08 t i si s
/-- VOP_RCP (03 R529). -/
def execVopRcp (t i : Nat) (si : SpadIn) (s : State) : Out := vecComplete 0x09 t i si s
/-- VOP_RSQRT (03 R529). -/
def execVopRsqrt (t i : Nat) (si : SpadIn) (s : State) : Out := vecComplete 0x0A t i si s
/-- VOP_EXP2 (03 R529). -/
def execVopExp2 (t i : Nat) (si : SpadIn) (s : State) : Out := vecComplete 0x0B t i si s
/-- VOP_LOG2 (03 R529). -/
def execVopLog2 (t i : Nat) (si : SpadIn) (s : State) : Out := vecComplete 0x0C t i si s
/-- VOP_CMPGT (R107). -/
def execVopCmpgt (t i : Nat) (si : SpadIn) (s : State) : Out := vecComplete 0x0D t i si s
/-- VOP_CMPEQ (R107). -/
def execVopCmpeq (t i : Nat) (si : SpadIn) (s : State) : Out := vecComplete 0x0E t i si s

end Sys2Proof.Machine
end

