-- ==== Sys2Proof/Machine/GleanerOps.lean ====
section
/-!
DEFINITION. Machine/GleanerOps.lean: the Gleaner command body, its checks, its operands, and the arithmetic of its
operations (06).
-/
namespace Sys2Proof.Machine

/-! ## The body (Table 6-2) -/

def gEid (b : Nat) : Nat := bits b 64 16
def gAuto (b : Nat) : Bool := bit b 80
def gPrio (b : Nat) : Bool := bit b 81
def gOp (b : Nat) : Nat := bits b 82 4
def gASpad (b : Nat) : Bool := bit b 86
def gOutSpad (b : Nat) : Bool := bit b 87
def gA (b : Nat) : Nat := bits b 88 48
def gB (b : Nat) : Nat := bits b 136 48
def gC (b : Nat) : Nat := bits b 184 48
def gD (b : Nat) : Nat := bits b 232 48
def gTile (b : Nat) : Nat := bits b 280 16
def gCount (b : Nat) : Nat := bits b 296 32
def gRow (b : Nat) : Nat := bits b 328 20
def gStride (b : Nat) : Int := sx 32 (bits b 348 32)
def gFmtA (b : Nat) : Nat := bits b 380 4
def gFmtB (b : Nat) : Nat := bits b 384 4
def gFmtOut (b : Nat) : Nat := bits b 388 4
def gRnd (b : Nat) : Nat := bits b 392 2
def gSat (b : Nat) : Bool := bit b 394
def gSub (b : Nat) : Nat := bits b 395 3
def gQ (b : Nat) : Nat := bits b 398 5
def gScalar (b : Nat) : Nat := bits b 404 32
def gRec (b : Nat) : Nat := bits b 436 48
def gRecEn (b : Nat) : Bool := bit b 484

/-- The command completes at once (R143). -/
def glnAtOnce (b : Nat) : Bool :=
  let op := gOp b
  gCount b == 0 || (gRow b == 0 && [1, 2, 5, 6].contains op) || (gQ b == 0 && [1, 2].contains op)

/-- Bytes of an element of FMT_OUT; 12 for Bushel. -/
def outBytes (c : Nat) : Nat := if c == 0xC then 12 else fmtBits c / 8

/-- Alignment of an array of a format; a Bushel element is three 4-byte words (log 18). -/
def glnAlign (c : Nat) : Nat := if c == 0xC then 4 else fmtAlign c

/-- Bytes per element of a table row that is added: FP32 for SUB 1, BF16 for SUB 2 (R159). -/
def scatterElem (b : Nat) : Nat := if gSub b == 1 then 4 else 2

/-- The operation reads or writes the scratchpad of TILE_EID. -/
def usesTile (b : Nat) : Bool :=
  let op := gOp b
  (gASpad b && [1, 2, 3, 5, 6, 9].contains op) || (gOutSpad b && [1, 2, 4, 5, 6, 7, 9].contains op)

/-- Reason 2: a format, RND or SUB code not allowed for the operation (R154 to R162). -/
def glnFmtBad (b : Nat) : Bool :=
  let a := gFmtA b
  let o := gFmtOut b
  match gOp b with
  | 1 => 4 < a || 11 < gFmtB b || 2 < o
  | 2 => 1 < a || 11 < gFmtB b || 2 < o
  | 3 => !([0, 1, 3, 4].contains a) || !([0, 1, 0xC].contains o) || (o == 1 && gRnd b % 2 == 1)
  | 4 => 1 < a || !([0, 1, 3, 4].contains (gFmtB b)) || 1 < o || gRnd b % 2 == 1 || 1 < gSub b
  | 6 => 2 < gSub b
  | 7 => a < 5 || 11 < a || 2 < o
  | _ => false

/-- Reason 3: a multiple that Table 6-5 asks for fails. -/
def glnUnitBad (b : Nat) : Bool :=
  let n := gCount b
  let st := gStride b % 8 != 0
  (gRecEn b && gRec b % 16 != 0) ||
  (match gOp b with
   | 1 => gRow b % 32 != 0 || st || gA b % fmtAlign (gFmtA b) != 0 || gB b % fmtAlign (gFmtB b) != 0 ||
       gD b % fmtAlign (gFmtOut b) != 0
   | 2 => n % 32 != 0 || gRow b % 32 != 0 || st || gA b % fmtAlign (gFmtA b) != 0 || gB b % fmtAlign (gFmtB b) != 0 ||
       gD b % fmtAlign (gFmtOut b) != 0
   | 3 => gA b % fmtAlign (gFmtA b) != 0 || gD b % glnAlign (gFmtOut b) != 0
   | 4 => gA b % fmtAlign (gFmtA b) != 0 || gB b % fmtAlign (gFmtB b) != 0 || gC b % fmtAlign (gFmtOut b) != 0 || gD b % 8 != 0
   | 5 => gRow b % 8 != 0 || st || gA b % 4 != 0
   | 6 => gRow b % 8 != 0 || st || gA b % 4 != 0 ||
       (gSub b != 0 && (gB b % scatterElem b != 0 || gD b % scatterElem b != 0))
   | 7 => n % 32 != 0 || gA b % fmtAlign (gFmtA b) != 0 || gD b % fmtAlign (gFmtOut b) != 0
   | 8 => n % 8 != 0 || gD b % 4 != 0
   | 9 => n % 8 != 0
   | 0xA => n % 128 != 0 || gD b % 8 != 0
   | _ => false)

/-- Reason of MALFORMED, the lowest of Table 6-4 that holds (R142). -/
def glnMalformed (s : State) (b : Nat) : Option Nat :=
  let op := gOp b
  reasons [
    (op == 0 || 0xA < op, 1),
    (glnFmtBad b, 2),
    (glnUnitBad b, 3),
    (gEid b % 1024 < 288 || 299 < gEid b % 1024 || (usesTile b && (288 ≤ gTile b % 1024 || gTile b / 1024 != ownLpkg s)), 4),
    ((gASpad b && (op == 4 || op == 7)) || (gOutSpad b && (op == 3 || op == 8 || op == 0xA)), 5)]

/-! ## Extents (R136, R142) -/

/-- A piece of a command's data: where it lies, in the scratchpad or in memory, and whether it is written. -/
structure Extent where
  spad : Bool
  addr : Int
  len : Nat
  write : Bool := false
  deriving DecidableEq, Repr

/-- Start of row `r` of B (R153). -/
def rowAddr (b r : Nat) : Int := gB b + r * gStride b

/-- Extents whose places the body alone gives. Table rows that indices choose are checked with the indices (R159). -/
def glnExtents (b : Nat) : List Extent :=
  let n := gCount b
  let row := gRow b
  let q := gQ b
  let rows : List Extent := (List.range n).map (fun r => { spad := false, addr := rowAddr b r, len := fmtBytes (gFmtB b) row })
  let scales : List Extent := if isMx (gFmtB b) then [{ spad := false, addr := gC b, len := n * (row / 32) }] else []
  let rec_ : List Extent := if gRecEn b then [{ spad := false, addr := gRec b, len := 16, write := true }] else []
  (match gOp b with
   | 1 => { spad := gASpad b, addr := gA b, len := q * fmtBytes (gFmtA b) row } ::
       { spad := gOutSpad b, addr := gD b, len := q * n * outBytes (gFmtOut b), write := true } :: rows ++ scales
   | 2 => { spad := gASpad b, addr := gA b, len := q * fmtBytes (gFmtA b) n } ::
       { spad := gOutSpad b, addr := gD b, len := q * row * outBytes (gFmtOut b), write := true } :: rows ++ scales
   | 3 => [{ spad := gASpad b, addr := gA b, len := fmtBytes (gFmtA b) n },
       { spad := false, addr := gD b, len := n * outBytes (gFmtOut b), write := true }]
   | 4 => [{ spad := false, addr := gA b, len := fmtBytes (gFmtA b) n, write := true },
       { spad := false, addr := gB b, len := fmtBytes (gFmtB b) n },
       { spad := false, addr := gC b, len := 2 * n * outBytes (gFmtOut b), write := true },
       { spad := gOutSpad b, addr := gD b, len := 48 }]
   | 5 => [{ spad := gASpad b, addr := gA b, len := 4 * n }, { spad := gOutSpad b, addr := gD b, len := n * row, write := true }]
   | 6 => [{ spad := gASpad b, addr := gA b, len := 4 * n }, { spad := gOutSpad b, addr := gD b, len := n * row }]
   | 7 => { spad := false, addr := gA b, len := fmtBytes (gFmtA b) n } ::
       { spad := gOutSpad b, addr := gD b, len := n * outBytes (gFmtOut b), write := true } ::
       (if isMx (gFmtA b) then [{ spad := false, addr := gC b, len := n / 32 }] else [])
   | 8 | 0xA => [{ spad := false, addr := gD b, len := n, write := true }]
   | 9 => [{ spad := gASpad b, addr := gA b, len := n }, { spad := gOutSpad b, addr := gD b, len := n, write := true }]
   | _ => []) ++ rec_

/-- A partition refuses Gleaner accesses of a session: a replay's own pass (20 R476). -/
def refusesSes (s : State) (ses q : Nat) : Bool := refusing s q && !(replaying s q && sessionOf s q == ses)

/-- A session's access to memory of this package is refused: 4 fenced, 3 not permitted, 2 beyond the buffer (Table 6-6). -/
def glnMemRefusal (s : State) (ses : Nat) (write : Bool) (a n : Nat) : Option Nat :=
  if 2 ^ 40 ≤ a then some 3
  else if refusesSes s ses (a / 2 ^ 38) then some 4
  else
    match bufAt s a with
    | none => some 3
    | some (_, u) =>
      if !mayReach s (.own ses) write a then some 3
      else if u.base + frameBytes * u.pages.length < a + n then some 2 else none

/-- The STATUS that refuses an extent. -/
def extentRefusal (s : State) (ses tile : Nat) (e : Extent) : Option Nat :=
  if e.len == 0 then none
  else if e.addr < 0 then some 3
  else if e.spad then
    let p := partOfTile (tile % 1024)
    if refusesSes s ses p then some 4
    else if sessionOf s p != ses || ses == 0 then some 3
    else if spadBytes < e.addr.toNat + e.len then some 2 else none
  else glnMemRefusal s ses e.write e.addr.toNat e.len

/-- Limits of the Gleaner's own buffers (R153, R159, Table 6-1, Table 6-5). -/
def glnLimits (b : Nat) : Bool :=
  let op := gOp b
  (op == 1 && 16 < gQ b) || ((op == 1 || op == 2) && 1024 < gRow b) ||
  (op == 2 && 65536 < gQ b * gRow b * outBytes (gFmtOut b)) || ((op == 5 || op == 6) && 65536 < gCount b)

/-- STATUS of a command that its fields alone refuse (R136, R142). -/
def glnRefusal (s : State) (ses b : Nat) : Option Nat :=
  if glnLimits b then some 2 else (glnExtents b).findSome? (extentRefusal s ses (gTile b))

/-- Every memory line the extents name can be served now. -/
def glnReady (s : State) (l : List Extent) : Bool := l.all (fun e => e.spad || e.addr < 0 || rangeReady s e.addr.toNat e.len)

/-! ## Running (R147, R149, R151) -/

/-- A run under way: the state, and what its completion will say. A run stops at its first error (R151). -/
structure GlnRun where
  st : State
  status : Nat := 0
  first : Nat := 0
  fl : BitVec 8 := 0
  result : Nat := 0
  deriving DecidableEq, Repr

/-- What the memories give to a run. -/
structure GlnIn where
  gln : Nat
  tile : Nat
  mi : MemIn
  si : SpadIn
  deriving DecidableEq, Repr

/-- Bytes read; an uncorrectable word or line ends the run (R151). -/
def GlnRun.get (r : GlnRun) (g : GlnIn) (spad : Bool) (a : Int) (n : Nat) : GlnRun × List Byte :=
  let o := a.toNat
  if r.status != 0 then (r, List.replicate n 0)
  else if spad then
    if badIn g.si o n then ({ r with status := 5, first := o }, List.replicate n 0)
    else (r, spadRead r.st (g.tile % 1024) o n)
  else
    let (s1, bs, bad) := maRead r.st (g.gln / 6) o n g.mi
    match bad with
    | [] => ({ r with st := s1 }, bs)
    | x :: _ => ({ r with st := s1, status := 5, first := x }, bs)

/-- Bytes written, some of them left as they are. -/
def GlnRun.putSome (r : GlnRun) (g : GlnIn) (spad : Bool) (a : Int) (bs : List (Option Byte)) : GlnRun :=
  let o := a.toNat
  if r.status != 0 then r
  else if spad then
    { r with st := { r.st with mem := (bs.zipIdx.foldl (fun m e =>
        match e.1 with
        | none => m
        | some b => spadPut m (spadBytes * (g.tile % 1024) + o + e.2) b) r.st.mem) } }
  else
    let (s1, bad) := maWriteSome r.st (g.gln / 6) o bs g.mi
    match bad with
    | [] => { r with st := s1 }
    | x :: _ => { r with st := s1, status := 5, first := x }

def GlnRun.put (r : GlnRun) (g : GlnIn) (spad : Bool) (a : Int) (bs : List Byte) : GlnRun := r.putSome g spad a (bs.map some)

def GlnRun.flags (r : GlnRun) (fl : BitVec 8) : GlnRun := if r.status != 0 then r else { r with fl := r.fl ||| fl }

/-- The run ends with a status. -/
def GlnRun.stop (r : GlnRun) (status first : Nat) : GlnRun := if r.status != 0 then r else { r with status := status, first := first }

/-! ## Score scan and weighted accumulate (R153 to R155) -/

/-- Elements of a row of a format, at their full values: T2 blocks decoded, MX elements as codes with their scales apart. -/
def rowGroup (c : Nat) (bs scales : List Byte) (g : Nat) : GroupIn :=
  if c == 11 then
    let t := ((bs.drop (8 * g)).take 8).map (·.toNat)
    { vals := t2Elems t, scale := scaleExp (t.getD 7 0), fl := t2Flags t }
  else
    let w := fmtBytes c 32
    { vals := runVals ((bs.drop (g * w)).take w) c 32,
      scale := if isMx c then scaleExp (leNat ((scales.drop g).take 1)) else some 0 }

/-- A row's elements at their full values, with the flags that reading them raises. -/
def rowValues (c : Nat) (bs scales : List Byte) (n : Nat) : List FVal × BitVec 8 :=
  (List.range (n / 32)).foldl (fun acc g =>
    let x := rowGroup c bs scales g
    (acc.1 ++ (match x.scale with | none => List.replicate 32 .nan | some k => x.vals.map (scaleV · k)), acc.2 ||| x.fl)) ([], 0)

/-- A dot product under 03 R68, as FP32 bits, from the groups of both operands; two FP32 operands are split (R154). -/
def glnDot (split : Bool) (gs : List (GroupIn × GroupIn)) : BitVec 32 × BitVec 8 :=
  gs.foldl (fun a g => accStep a (groupSum split g.1 g.2)) (0, 0)

/-- A result of FP32 bits converted to FMT_OUT with RNE (03 R70). -/
def outElem (b : Nat) (v : FVal) : List Byte × BitVec 8 :=
  match fmtOf (gFmtOut b) with
  | none => ([], 0)
  | some f =>
    let (c, fl) := roundRes f .rne (gSat b) ⟨v, 0⟩
    (leBytes (fmtBits (gFmtOut b) / 8) c, fl)

/-- One score: the dot product, times SCALAR rounded once, converted (R153). -/
def scoreOf (b : Nat) (query key scales : List Byte) : List Byte × BitVec 8 :=
  let gs := (List.range (gRow b / 32)).map (fun g => (rowGroup (gFmtA b) query [] g, rowGroup (gFmtB b) key scales g))
  let (d, f1) := glnDot (gFmtA b == 0 && gFmtB b == 0) gs
  let (m, f2) := roundRes fp32 .rne false (mulV (fp32.dec d.toNat) (fp32.dec (gScalar b)))
  let (bs, f3) := outElem b (fp32.dec m)
  (bs, f1 ||| f2 ||| f3)

/-- A key or value row with its scales. -/
def GlnRun.row (r : GlnRun) (g : GlnIn) (b i : Nat) : GlnRun × List Byte × List Byte :=
  let (r1, key) := r.get g false (rowAddr b i) (fmtBytes (gFmtB b) (gRow b))
  if isMx (gFmtB b) then
    let (r2, sc) := r1.get g false (gC b + i * (gRow b / 32) : Nat) (gRow b / 32)
    (r2, key, sc)
  else (r1, key, [])

/-- SCORE_SCAN, row by row of the keys (log 19). -/
def runScore (g : GlnIn) (b : Nat) (r0 : GlnRun) : GlnRun :=
  let n := fmtBytes (gFmtA b) (gRow b)
  let (r1, qs) := r0.get g (gASpad b) (gA b) (gQ b * n)
  (List.range (gCount b)).foldl (fun r i =>
    let (r2, key, sc) := r.row g b i
    (List.range (gQ b)).foldl (fun r q =>
      let (bs, fl) := scoreOf b ((qs.drop (q * n)).take n) key sc
      (r.flags fl).put g (gOutSpad b) (gD b + (q * gCount b + i) * outBytes (gFmtOut b) : Nat) bs) r2) r1

/-- Value rows in turn. -/
def GlnRun.rows (g : GlnIn) (b : Nat) : Nat → Nat → GlnRun → GlnRun × List (List FVal)
  | 0, _, r => (r, [])
  | n + 1, i, r =>
    let (r1, bs, sc) := r.row g b i
    let (vs, fl) := rowValues (gFmtB b) bs sc (gRow b)
    let (r2, rest) := GlnRun.rows g b n (i + 1) (r1.flags fl)
    (r2, vs :: rest)

/-- WEIGHTED_ACC: k-groups of 32 rows; a value enters with its block's scale applied (R154, log 20). -/
def runWeighted (g : GlnIn) (b : Nat) (r0 : GlnRun) : GlnRun :=
  let n := gCount b
  let zero := FVal.fin false 0 0
  let (r1, ws) := r0.get g (gASpad b) (gA b) (gQ b * fmtBytes (gFmtA b) n)
  let (r2, vs) := GlnRun.rows g b n 0 r1
  (List.range (gQ b)).foldl (fun r q =>
    let w := runVals ((ws.drop (q * fmtBytes (gFmtA b) n)).take (fmtBytes (gFmtA b) n)) (gFmtA b) n
    (List.range (gRow b)).foldl (fun r j =>
      let gs := (List.range (n / 32)).map (fun k =>
        (({ vals := (w.drop (32 * k)).take 32 } : GroupIn),
         ({ vals := ((vs.drop (32 * k)).take 32).map (fun v => v.getD j zero) } : GroupIn)))
      let (d, f1) := glnDot (gFmtA b == 0 && gFmtB b == 0) gs
      let (bs, f2) := outElem b (fp32.dec d.toNat)
      (r.flags (f1 ||| f2)).put g (gOutSpad b) (gD b + (q * gRow b + j) * outBytes (gFmtOut b) : Nat) bs) r) r2

/-! ## Accumulate-into-memory (R156, R157) -/

/-- Rounding of element `i`: nearest, or stochastic with one step from SEED xor i (R157). -/
def glnRnd (rnd seed i : Nat) : Rnd :=
  if rnd == 2 then .sr ((genOut (genStep (BitVec.ofNat 64 (seed ^^^ i)))).toNat % 2 ^ 32) else .rne

/-- A finite contribution as a 96-bit integer placed by exponent E, and whether bits were lost (11 R291). -/
def bushelInt (e : Int) (v : FVal) : Int × Bool :=
  match v with
  | .fin neg m x =>
    let (n, lost) := roundMag .rtz m x (e - 87)
    (if neg then -(n : Int) else n, lost)
  | _ => (0, false)

/-- One target after its contribution (R156). A special value adds nothing to a Bushel sum, as 11 R292 keeps it apart. -/
def accElem (b i x d : Nat) : Nat × BitVec 8 :=
  match fmtOf (gFmtA b) with
  | none => (d, 0)
  | some f =>
    let v := f.dec x
    match gFmtOut b with
    | 0 => roundRes fp32 .rne (gSat b) (addV (fp32.dec d) v)
    | 1 => roundRes bf16 (glnRnd (gRnd b) (gScalar b) i) (gSat b) (addV (bf16.dec d) v)
    | _ =>
      let (n, lost) := bushelInt (sx 32 (gScalar b)) v
      (unsx 96 (d + n), flagIf lost fInexact ||| nanIn [v])

/-- The Gleaner `k` performs the line operation at an address, for a command that Gleaner `recv` received (R138): the line's
own Gleaner; a line of no stack falls to the receiver (log 21). -/
def ownsLine (s : State) (k recv a : Nat) : Bool :=
  match lineAt s (a / 128 * 128) with
  | some (.stk j _) => j == k
  | _ => k == recv

/-- Numbers below `n` whose element, of `w` bytes from `a`, begins on a line that Gleaner `k` performs. -/
def ownElems (s : State) (k recv a w n : Nat) : List Nat := (List.range n).filter (fun i => ownsLine s k recv (a + i * w))

/-- ACC_MEM, the elements of one piece in increasing order. -/
def runAcc (g : GlnIn) (recv b : Nat) (r0 : GlnRun) : GlnRun :=
  let w := outBytes (gFmtOut b)
  let e := fmtBits (gFmtA b) / 8
  (ownElems r0.st g.gln recv (gD b) w (gCount b)).foldl (fun r i =>
    let (r1, x) := r.get g (gASpad b) (gA b + i * e : Nat) e
    let (r2, d) := r1.get g false (gD b + i * w : Nat) w
    let (v, fl) := accElem b i (leNat x) (leNat d)
    (r2.flags fl).put g false (gD b + i * w : Nat) (leBytes w v)) r0

/-! ## Optimizer update (R158) -/

/-- Exact-enough quotient for one rounding: 80 bits and a sticky bit. -/
def divMag (m : Nat) (e : Int) (n : Nat) (f : Int) : FVal → FVal
  | v =>
    let sh := 80 + Nat.log2 n
    let q := m * 2 ^ sh / n
    let sticky := b2n (m * 2 ^ sh % n != 0)
    .fin v.neg (2 * q + sticky) (e - f - sh - 1)

/-- Quotient before its rounding (IEEE 754). -/
def divV (a b : FVal) : FRes :=
  let neg := a.neg != b.neg
  match a, b with
  | .nan, _ => ⟨.nan, fNanIn⟩
  | _, .nan => ⟨.nan, fNanIn⟩
  | .inf _, .inf _ => ⟨.nan, fInvalid⟩
  | .inf _, .fin _ _ _ => ⟨.inf neg, 0⟩
  | .fin _ _ _, .inf _ => ⟨.fin neg 0 0, 0⟩
  | .fin _ m e, .fin _ n f =>
    if n == 0 then (if m == 0 then ⟨.nan, fInvalid⟩ else ⟨.inf neg, 0⟩)
    else if m == 0 then ⟨.fin neg 0 0, 0⟩
    else ⟨divMag m e n f (.fin neg 0 0), 0⟩

/-- Square root before its rounding: 64 bits and a sticky bit. -/
def sqrtV (a : FVal) : FRes :=
  match a with
  | .nan => ⟨.nan, fNanIn⟩
  | .inf neg => if neg then ⟨.nan, fInvalid⟩ else ⟨.inf false, 0⟩
  | .fin neg m e =>
    if m == 0 then ⟨.fin neg 0 0, 0⟩
    else if neg then ⟨.nan, fInvalid⟩
    else
      let (m2, e2) := if e % 2 == 0 then (m, e) else (2 * m, e - 1)
      let w := m2 * 2 ^ 128
      let q := isqrtN (64 + Nat.log2 m2 + 1) w 0
      ⟨.fin false (2 * q + b2n (q * q != w)) (e2 / 2 - 65), 0⟩

/-- One FP32 operation rounded once with RNE: the value and the flags so far. -/
def f32 (fl : BitVec 8) (r : FRes) : FVal × BitVec 8 :=
  let (c, f2) := roundRes fp32 .rne false r
  (fp32.dec c, fl ||| f2)

/-- The record of Table 6-9, as values. -/
structure OptRec where
  lr : FVal
  b1 : FVal
  omb1 : FVal
  b2 : FVal
  omb2 : FVal
  eps : FVal
  wd : FVal
  c1 : FVal
  c2 : FVal
  gs : FVal
  seed : Nat
  deriving DecidableEq, Repr

def optRec (bs : List Byte) : OptRec :=
  let v := leNat bs
  let f : Nat → FVal := fun i => fp32.dec (bits v (32 * i) 32)
  { lr := f 0, b1 := f 1, omb1 := f 2, b2 := f 3, omb2 := f 4, eps := f 5, wd := f 6, c1 := f 7, c2 := f 8, gs := f 9,
    seed := bits v 320 64 }

/-- The pseudocode of R158: p, m and v after the step, with its flags. -/
def optStep (o : OptRec) (sub : Nat) (p grad m v : FVal) : FVal × FVal × FVal × BitVec 8 :=
  let (g0, f0) := f32 0 (mulV o.gs grad)
  let (g, f1) := if sub == 1 then (let (x, a) := f32 f0 (mulV o.wd p); f32 a (addV g0 x)) else (g0, f0)
  let (m1, f2) := f32 f1 (mulV o.b1 m)
  let (m2, f3) := f32 f2 (mulV o.omb1 g)
  let (mm, f4) := f32 f3 (addV m1 m2)
  let (v1, f5) := f32 f4 (mulV o.b2 v)
  let (gg, f6) := f32 f5 (mulV g g)
  let (v2, f7) := f32 f6 (mulV o.omb2 gg)
  let (vv, f8) := f32 f7 (addV v1 v2)
  let (un, f9) := f32 f8 (mulV mm o.c1)
  let (vc, f10) := f32 f9 (mulV vv o.c2)
  let (sq, f11) := f32 f10 (sqrtV vc)
  let (dn, f12) := f32 f11 (addV sq o.eps)
  let (u0, f13) := f32 f12 (divV un dn)
  let (u, f14) := if sub == 0 then (let (x, a) := f32 f13 (mulV o.wd p); f32 a (addV u0 x)) else (u0, f13)
  let (lu, f15) := f32 f14 (mulV o.lr u)
  let (pp, f16) := f32 f15 (addV p (negV lu))
  (pp, mm, vv, f16)

/-- A value written in a format. -/
def encAs (c : Nat) (rnd : Rnd) (sat : Bool) (v : FVal) : List Byte × BitVec 8 :=
  match fmtOf c with
  | none => ([], 0)
  | some f =>
    let (w, fl) := roundRes f rnd sat ⟨v, 0⟩
    (leBytes (fmtBits c / 8) w, fl)

/-- OPT_UPDATE, the parameters of one piece in increasing order. -/
def runOpt (g : GlnIn) (recv b : Nat) (r0 : GlnRun) : GlnRun :=
  let wa := fmtBits (gFmtA b) / 8
  let wb := fmtBits (gFmtB b) / 8
  let wo := outBytes (gFmtOut b)
  let (r1, rec_) := r0.get g (gOutSpad b) (gD b) 48
  let o := optRec rec_
  (ownElems r0.st g.gln recv (gA b) wa (gCount b)).foldl (fun r i =>
    let (r2, p) := r.get g false (gA b + i * wa : Nat) wa
    let (r3, gr) := r2.get g false (gB b + i * wb : Nat) wb
    let (r4, mv) := r3.get g false (gC b + 2 * i * wo : Nat) (2 * wo)
    let (pp, mm, vv, f0) := optStep o (gSub b) (elemVal (gFmtA b) (leNat p)) (elemVal (gFmtB b) (leNat gr))
      (elemVal (gFmtOut b) (leNat (mv.take wo))) (elemVal (gFmtOut b) (leNat (mv.drop wo)))
    let (pb, f1) := encAs (gFmtA b) (glnRnd (gRnd b) o.seed i) (gSat b) pp
    let (mb, f2) := encAs (gFmtOut b) .rne (gSat b) mm
    let (vb, f3) := encAs (gFmtOut b) .rne (gSat b) vv
    ((r4.flags (f0 ||| f1 ||| f2 ||| f3)).put g false (gA b + i * wa : Nat) pb).put g false (gC b + 2 * i * wo : Nat) (mb ++ vb)) r1

/-! ## Gather and scatter (R159) -/

/-- The indices, unsigned 32-bit. -/
def indexList (bs : List Byte) (n : Nat) : List Nat := (List.range n).map (fun k => leNat ((bs.drop (4 * k)).take 4))

/-- STATUS that an index gives: beyond SCALAR, or a row that is refused. -/
def indexRefusal (s : State) (ses b : Nat) (write : Bool) (ix : Nat) : Option Nat :=
  if gScalar b ≤ ix then some 2
  else extentRefusal s ses (gTile b) { spad := false, addr := rowAddr b ix, len := gRow b, write := write }

/-- The index list is read and every index checked (R159). -/
def GlnRun.indices (r : GlnRun) (g : GlnIn) (ses b : Nat) (write : Bool) : GlnRun × List Nat :=
  let (r1, bs) := r.get g (gASpad b) (gA b) (4 * gCount b)
  let l := indexList bs (gCount b)
  match l.findSome? (indexRefusal r1.st ses b write) with
  | none => (r1, l)
  | some c => (r1.stop c 0, l)

/-- GATHER. -/
def runGather (g : GlnIn) (ses b : Nat) (r0 : GlnRun) : GlnRun :=
  let (r1, l) := r0.indices g ses b false
  l.zipIdx.foldl (fun r e =>
    let (r2, bs) := r.get g false (rowAddr b e.1) (gRow b)
    r2.put g (gOutSpad b) (gD b + e.2 * gRow b : Nat) bs) r1

/-- Bytes of a row added into the table's, element by element (R159). -/
def addRow (b : Nat) (old new : List Byte) : List Byte × BitVec 8 :=
  let w := scatterElem b
  let f := if w == 4 then fp32 else bf16
  (List.range (new.length / w)).foldl (fun acc i =>
    let (c, fl) := roundRes f .rne (gSat b) (addV (f.dec (leNat ((old.drop (w * i)).take w))) (f.dec (leNat ((new.drop (w * i)).take w))))
    (acc.1 ++ leBytes w c, acc.2 ||| fl)) ([], 0)

/-- Row `k` of a SCATTER applied to the lines of one piece. -/
def scatterRow (g : GlnIn) (recv b : Nat) (r : GlnRun) (k ix : Nat) : GlnRun :=
  let (r1, bs) := r.get g (gOutSpad b) (gD b + k * gRow b : Nat) (gRow b)
  let a := (rowAddr b ix).toNat
  ((linesOf a (gRow b)).filter (fun l => ownsLine r1.st g.gln recv l)).foldl (fun r l =>
    let lo := max a l
    let n := min (a + gRow b) (l + 128) - lo
    let part := (bs.drop (lo - a)).take n
    if gSub b == 0 then r.put g false lo part
    else
      let (r2, old) := r.get g false lo n
      let (out, fl) := addRow b old part
      (r2.flags fl).put g false lo out) r1

/-- SCATTER, one piece, in increasing k. -/
def runScatter (g : GlnIn) (recv ses b : Nat) (r0 : GlnRun) : GlnRun :=
  let (r1, l) := r0.indices g ses b true
  l.zipIdx.foldl (fun r e => scatterRow g recv b r e.2 e.1) r1

/-! ## Unpack, fill, copy, pattern test (R160 to R162) -/

/-- UNPACK, block by block. -/
def runUnpack (g : GlnIn) (b : Nat) (r0 : GlnRun) : GlnRun :=
  let w := fmtBytes (gFmtA b) 32
  (List.range (gCount b / 32)).foldl (fun r i =>
    let (r1, bs) := r.get g false (gA b + i * w : Nat) w
    let (r2, sc) := if isMx (gFmtA b) then r1.get g false (gC b + i : Nat) 1 else (r1, [])
    let (vs, f0) := rowValues (gFmtA b) bs sc 32
    let es := vs.map (outElem b)
    ((r2.flags (es.foldl (fun f e => f ||| e.2) f0)).put g (gOutSpad b) (gD b + 32 * i * outBytes (gFmtOut b) : Nat)
      (es.flatMap (·.1)))) r0

/-- FILL. -/
def runFill (g : GlnIn) (b : Nat) (r0 : GlnRun) : GlnRun :=
  r0.put g false (gD b) ((List.range (gCount b / 4)).flatMap (fun _ => leBytes 4 (gScalar b)))

/-- The word at `a` lies in the source too. -/
def copyOverlap (b a : Nat) : Bool := gASpad b == gOutSpad b && gA b < a + 8 && a < gA b + gCount b

/-- COPY: where source and destination overlap, each word holds old or new data (R161, log 7). -/
def runCopy (g : GlnIn) (b : Nat) (r0 : GlnRun) : GlnRun :=
  let (r1, bs) := r0.get g (gASpad b) (gA b) (gCount b)
  let out := bs.zipIdx.map (fun e =>
    let w := (gD b + e.2) / 8
    if copyOverlap b (8 * w) && Config.overlapKeep r1.st.freeCtr w then none else some e.1)
  let r2 := r1.putSome g (gOutSpad b) (gD b) out
  { r2 with st := r2.st.drawn }

/-- The pattern's 8-byte word `i` of a PATTERN_TEST (R162); the order of PRBS-31 is open (log 7). -/
def patternWord (b i : Nat) : Nat :=
  let v := gScalar b
  match gSub b % 4 with
  | 0 => v + 2 ^ 32 * v
  | 1 => gD b + 8 * i
  | 2 => Config.prbs31 v i % 2 ^ 64
  | _ => let x := if i / 16 % 2 == 0 then v else 2 ^ 32 - 1 - v; x + 2 ^ 32 * x

/-- Words of one line that differ; 16 for a line that cannot be read. -/
def patternLine (g : GlnIn) (b : Nat) (r : GlnRun) (l : Nat) : GlnRun :=
  let a := gD b
  let lo := max a l
  let n := min (a + gCount b) (l + 128) - lo
  let words := (List.range (n / 8)).map (fun j => patternWord b ((lo - a) / 8 + j))
  let r1 := if bit (gSub b) 2 then r else r.put g false lo (words.flatMap (leBytes 8))
  if r1.status != 0 then r1
  else
    let (s1, bs, bad) := maRead r1.st (g.gln / 6) lo n g.mi
    let diff := (List.range (n / 8)).filter (fun j => leNat ((bs.drop (8 * j)).take 8) != words.getD j 0)
    let miss := if bad.isEmpty then diff.length else 16
    let at_ := lo + 8 * (if bad.isEmpty then diff.headD 0 else 0)
    { r1 with st := s1, result := satAdd max32 r1.result miss,
              first := if miss != 0 && r1.first == 0 then at_ else r1.first }

/-- PATTERN_TEST, one piece. -/
def runPattern (g : GlnIn) (recv b : Nat) (r0 : GlnRun) : GlnRun :=
  ((linesOf (gD b) (gCount b)).filter (fun l => ownsLine r0.st g.gln recv l)).foldl (patternLine g b) r0

end Sys2Proof.Machine
end

