-- ==== Sys2Proof/Machine/TileDma.lean ====
section
/-!
DEFINITION. Machine/TileDma.lean: tile DMA COPY and FENCE, sync descriptors, and stream-out to the fabric (04 R108 to R112).
-/
namespace Sys2Proof.Machine

/-- SEQ values an endpoint can still draw (10 R264). -/
def seqRoom (s : State) (ep n : Nat) : Bool :=
  (s.fab.reqs.filter (fun r => r.ep == ep)).length + (s.fab.holds.filter (fun h => h.ep == ep)).length + n ≤ 65536

/-- DCC of a COPY. -/
def dccOf (d : Nat) : Option Nat := if cDccEn d then some (cDcc d) else none

/-- Source and destination of line `l` (04 R109). -/
def srcTgt (s : State) (c d l : Nat) : Tgt :=
  spaceTgt s (partOfCore c) (some (tileOfCore c)) false (cSrcSpace d) (cSrcEid d) (lineAddr (cSrc d) (cSrcStride d) l) (cLen d)
def dstTgt (s : State) (c d l : Nat) : Tgt :=
  spaceTgt s (partOfCore c) (some (tileOfCore c)) true (cDstSpace d) (cDstEid d) (lineAddr (cDst d) (cDstStride d) l)
    (convBytes (cConv d) (cLen d))

/-- A COPY moves nothing (04 R101). -/
def copyEmpty (d : Nat) : Bool := cLen d == 0 || cLines d == 0

def tgtCause : Tgt → Option Nat
  | .refused c => some c
  | _ => none

def isFar : Tgt → Bool
  | .far _ _ _ _ => true
  | _ => false

/-- The first refusal among the lines, found before any data moves (04 R101, 08 R199). -/
def copyRefusal (s : State) (c d : Nat) : Option Nat :=
  (List.range (cLines d)).findSome? (fun l =>
    match tgtCause (srcTgt s c d l) with
    | some x => some x
    | none => tgtCause (dstTgt s c d l))

/-- The source lies in another package: its reads are sent at issue, and their answers land in the scratchpad. -/
def copyFar (s : State) (c d : Nat) : Bool := (List.range (cLines d)).any (fun l => isFar (srcTgt s c d l))

/-- One READ_REQ of a COPY. -/
def sendCopyRead (s : State) (c d index l off n : Nat) : State × Option Nat :=
  match srcTgt s c d l with
  | .far lp ep vc addr =>
    let dst := (lineAddr (cDst d) (cDstStride d) l).toNat + convBytes (cConv d) off
    match sendReq s (tileOfCore c) (partOfCore c) .read lp ep
        { op := 2, vc := vc, route := if vc == 2 then cRoute d else 0, via := if vc == 2 then cVia d else 0,
          addr := addr + off, operand := n } [] n (.copyRead c index dst) (fabTimeout s (partOfCore c)) with
    | none => (s, none)
    | some (s1, q) => (s1, some q)
  | _ => (s, none)

/-- All READ_REQs of a COPY: the state and the SEQ values drawn. -/
def sendCopyReads (s : State) (c d index : Nat) : State × List Nat :=
  (List.range (cLines d)).foldl (fun acc l =>
    (pieces (cLen d)).foldl (fun acc p =>
      match sendCopyRead acc.1 c d index l p.1 p.2 with
      | (s1, some q) => (s1, acc.2 ++ [q])
      | (s1, none) => (s1, acc.2)) acc) (s, [])

/-- An earlier line of the same COPY covers a word of the destination (04 R109). -/
def coveredBefore (d l w : Nat) : Bool :=
  let n : Int := convBytes (cConv d) (cLen d)
  (List.range l).any (fun k => let a := lineAddr (cDst d) (cDstStride d) k; a < 8 * w + 8 && ((8 * w : Nat) : Int) < a + n)

/-- The bytes of line `l` that its write leaves, for a destination at `a`. -/
def copyBytes (s : State) (d l a : Nat) (bs : List Byte) : List (Option Byte) :=
  bs.zipIdx.map (fun e =>
    if coveredBefore d l ((a + e.2) / 8) && Config.overlapKeep s.freeCtr ((a + e.2) / 8) then none else some e.1)

/-- Bytes written to a scratchpad, some left as they are. -/
def spadPutSome (m : Mem) (k : Nat) : List (Option Byte) → Mem
  | [] => m
  | none :: r => spadPutSome m (k + 1) r
  | some b :: r => spadPutSome (spadPut m k b) (k + 1) r

/-- The source bytes of line `l`, if no word or line of them is uncorrectable (R117, 07 R169). -/
def readLineOf (s : State) (c d l : Nat) (mi : MemIn) (si : SpadIn) : State × Option (List Byte) :=
  match srcTgt s c d l with
  | .spad i off => (s, if i == tileOfCore c && badIn si off (cLen d) then none else some (spadRead s i off (cLen d)))
  | .mem ma =>
    let (s1, bs, bad) := maRead s (sideOfTile (tileOfCore c)) ma (cLen d) mi
    (s1, if bad.isEmpty then some bs else none)
  | _ => (s, none)

/-- The WRITE packets of a line for another package (10 R531). -/
def sendWrites (s : State) (c index lp ep vc addr route via : Nat) (dcc : Option Nat) (owner : ReqOwner) (bs : List Byte) :
    State :=
  (pieces bs.length).foldl (fun s p =>
    match sendReq s (tileOfCore c) (partOfCore c) .write lp ep
        { op := 1, vc := vc, route := route, via := via, dcc := dcc.isSome, cc := dcc.getD 0, addr := addr + p.1,
          operand := p.2 } ((bs.drop p.1).take p.2) p.2 owner (fabTimeout s (partOfCore c)) with
    | none => s
    | some (s1, q) =>
      match owner with
      | .copy _ => setCore s1 c { coreOf s1 c with writes := (coreOf s1 c).writes ++ [(q, index)] }
      | _ => s1) s

/-- Line `l`'s converted bytes go to its destination. A write of this package's memory that ends in error is held against the
queue, as one refused elsewhere is (R110). -/
def writeLineOf (s : State) (c d index l : Nat) (bs : List Byte) (mi : MemIn) : State :=
  let dcc := dccOf d
  match dstTgt s c d l with
  | .spad i off =>
    let s1 := { s with mem := spadPutSome s.mem (spadBytes * i + off) (copyBytes s d l off bs) }
    match dcc with
    | none => s1
    | some n => ccAdd s1 (partOfTile i) n bs.length
  | .mem ma =>
    let (s1, bad) := maWriteSome s (sideOfTile (tileOfCore c)) ma (copyBytes s d l ma bs) mi
    if !bad.isEmpty then holdFail s1 c 1
    else
      match dcc with
      | none => s1
      | some n => ccAdd s1 (ma / 2 ^ 38) n bs.length
  | .far lp ep vc addr =>
    sendWrites s c index lp ep vc addr (if vc == 2 then cRoute d else 0) (if vc == 2 then cVia d else 0) dcc (.copy c) bs
  | .refused _ => s

/-- The lines in turn; an uncorrectable source line is not sent and ends the descriptor (R117). -/
def copyLines (c d index : Nat) (mi : MemIn) (si : SpadIn) : List Nat → State → State × Bool
  | [], s => (s, true)
  | l :: r, s =>
    match readLineOf s c d l mi si with
    | (s1, none) => (s1, false)
    | (s1, some bs) =>
      let (out, fl) := convLine (cConv d) (cSat d) bs
      copyLines c d index mi si r (raiseFlags (writeLineOf s1 c d index l out mi) (tileOfCore c) fl)

/-- Every memory the COPY touches can be served now, and SEQ values are free for its writes. -/
def copyReady (s : State) (c d : Nat) : Bool :=
  (List.range (cLines d)).all (fun l =>
    (match srcTgt s c d l with | .mem ma => rangeReady s ma (cLen d) | _ => true) &&
    (match dstTgt s c d l with | .mem ma => rangeReady s ma (convBytes (cConv d) (cLen d)) | _ => true)) &&
  seqRoom s (tileOfCore c) (cLines d * (cLen d / 256 + 1))

/-- TILE_DMA_COPY (R101, R109, R110): completes when its last byte is written locally or has left the network interface. -/
def execTileDmaCopy (t c index : Nat) (mi : MemIn) (si : SpadIn) (s : State) : Out :=
  run t s fun s =>
    match jobOf s c 3 index with
    | none => s
    | some j => gate (coreLive s c && cOp j.desc == 0 && j.fail.isNone) (fun s =>
        let d := j.desc
        if copyEmpty d then completeJob s 3 j
        else if j.started then (if j.reqs.isEmpty then completeJob s 3 j else s)
        else
          match copyRefusal s c d with
          | some x => failJob s 3 j x
          | none => gate (copyReady s c d) (fun s =>
              let (s1, good) := copyLines c d index mi si (List.range (cLines d)) (eccCount s (tileOfCore c) si)
              let s2 := s1.drawn
              if good then completeJob s2 3 j else failJob s2 3 j 1) s) s

/-- Descriptor `a` was issued before `b`, both of one queue. -/
def issuedBefore (a b : Nat) : Bool := a % 65536 != b % 65536 && (b + 65536 - a) % 65536 < 32768

/-- TILE_DMA_FENCE (R110): fails with the earliest failure the queue holds, which is then released; else completes once
every write of every earlier COPY is acknowledged. -/
def execTileDmaFence (t c index : Nat) (s : State) : Out :=
  run t s fun s =>
    match jobOf s c 3 index with
    | none => s
    | some j => gate (coreLive s c && cOp j.desc == 1) (fun s =>
        let k := coreOf s c
        match k.fails with
        | x :: _ => failJob (setCore s c { k with fails := [] }) 3 j x
        | [] =>
          let early := (tileOf s (tileOfCore c)).dma.jobs.any (fun x => x.core == c && cOp x.desc == 0 && issuedBefore x.index index)
          let open_ := k.writes.any (fun w => issuedBefore w.2 index)
          if early || open_ then s else completeJob s 3 j) s

/-! ## Sync (R111) -/

/-- A sync descriptor's own effect: local at once, or a packet on VC0 whose answer completes it. -/
def syncRun (op t c index : Nat) (s : State) : Out :=
  run t s fun s =>
    match jobOf s c 4 index with
    | none => s
    | some j => gate (coreLive s c && yOp j.desc == op && !j.started && j.fail.isNone) (fun s =>
        let d := j.desc
        let p := partOfCore c
        let apply : State → Nat → State := fun s q =>
          if op == 0 then ccAdd s q (yCc d) (yValue d) else ccSet s q (yCc d) (yValue d)
        if op == 2 then completeJob s 4 j
        else if !yRemote d then completeJob (apply s p) 4 j
        else
          let l := yEid d / 1024
          match partOfEp (yEid d % 1024) with
          | none => failJob s 4 j 3
          | some q =>
            if l == ownLpkg s then
              if refuses s p q then failJob s 4 j 5
              else if !related s p q then failJob s 4 j 3
              else completeJob (apply s q) 4 j
            else
              match lptPos s l with
              | none => failJob s 4 j 3
              | some _ =>
                match sendReq s (tileOfCore c) p .sync l (yEid d % 1024)
                    { op := if op == 0 then 5 else 6, vc := 0, cc := yCc d, operand := yValue d } [] 0 (.sync c index)
                    (fabTimeout s p) with
                | none => s
                | some (s1, n) => setJob s1 4 { j with started := true, reqs := [n] }) s

/-- SYNC_ADD (R111). -/
def execSyncAdd (t c index : Nat) (s : State) : Out := syncRun 0 t c index s
/-- SYNC_SET (R111). -/
def execSyncSet (t c index : Nat) (s : State) : Out := syncRun 1 t c index s
/-- SYNC_NONE (R111): the descriptor only waited, and signals. -/
def execSyncNone (t c index : Nat) (s : State) : Out := syncRun 2 t c index s

/-! ## Stream-out, TARGET 1 (R112) -/

/-- The next block of a stream-out is eligible: its trigger counter has reached the block's value (R112, R115). -/
def blockEligible (s : State) (c : Nat) (j : Issued) : Bool :=
  j.sent < oBlocks j.desc && ccReached s (partOfCore c) (oTrigCc j.desc) ((oTrigBase j.desc + j.sent + 1) % 2 ^ 32)

/-- Where the next block of a fabric put goes. -/
def putTgt (s : State) (c : Nat) (j : Issued) : Tgt :=
  spaceTgt s (partOfCore c) none true (oDstSpace j.desc) (oDstEid j.desc) (lineAddr (oDst j.desc) (oDstStride j.desc) j.sent)
    (oBlock j.desc)

/-- A block of a fabric put is written at its destination or leaves as WRITE packets. -/
def putBlock (s : State) (c : Nat) (j : Issued) (bs : List Byte) (mi : MemIn) : State :=
  let d := j.desc
  let dcc := if oDccEn d then some (oDcc d) else none
  match putTgt s c j with
  | .spad i off => landSpad s i off bs dcc
  | .mem ma =>
    let (s1, landed) := landMem s (sideOfTile (tileOfCore c)) ma bs dcc mi
    if landed then s1 else holdFail s1 c 1
  | .far lp ep vc addr =>
    sendWrites s c j.index lp ep vc addr (if vc == 2 then oRoute d else 0) (if vc == 2 then oVia d else 0) dcc (.put c) bs
  | .refused _ => s

/-- STREAM_OUT_COMPLETE (R112, Table 4-13): the last block has left the network interface. -/
def execStreamOutComplete (t c index : Nat) (s : State) : Out :=
  run t s fun s =>
    match jobOf s c 5 index with
    | none => s
    | some j => gate (coreLive s c && j.fail.isNone && (j.sent == oBlocks j.desc || oBlock j.desc == 0))
        (fun s => completeJob s 5 j) s

end Sys2Proof.Machine
end

