-- ==== Sys2Proof/Machine/CollBase.lean ====
section
/-!
DEFINITION. Machine/CollBase.lean: group records, collective descriptors, shards, the packets of a collective, its data,
its sends and its failure (11), shared by every command that touches a collective.
-/
namespace Sys2Proof.Machine

/-! ## The descriptor (Table 11-2) -/

def kKind (d : Nat) : Nat := bits d 0 4
def kJob (d : Nat) : Nat := bits d 64 16
def kGroup (d : Nat) : Nat := bits d 80 12
def kRed (d : Nat) : Nat := bits d 92 2
def kBushel (d : Nat) : Bool := bit d 94
def kStream (d : Nat) : Bool := bit d 95
def kSeq (d : Nat) : Nat := bits d 96 16
def kIn (d : Nat) : Nat := bits d 112 4
def kOut (d : Nat) : Nat := bits d 116 4
def kSat (d : Nat) : Bool := bit d 120
def kRecEn (d : Nat) : Bool := bit d 121
def kRoot (d : Nat) : Nat := bits d 122 6
def kSrcSpace (d : Nat) : Nat := bits d 128 2
def kDstSpace (d : Nat) : Nat := bits d 130 2
def kSrcEid (d : Nat) : Nat := bits d 132 16
def kDstEid (d : Nat) : Nat := bits d 148 16
def kSrc (d : Nat) : Nat := bits d 164 48
def kDst (d : Nat) : Nat := bits d 212 48
def kFall (d : Nat) : Nat := bits d 260 48
def kCount (d : Nat) : Nat := bits d 308 32
def kRec (d : Nat) : Nat := bits d 340 48

/-- A kind that reduces. -/
def reduces (d : Nat) : Bool := kKind d == 1 || kKind d == 2 || kKind d == 6
/-- Bushel mode with RED_OP sum. -/
def bushelSum (d : Nat) : Bool := reduces d && kBushel d && kRed d == 0
/-- Element sizes in bytes. -/
def inSize (d : Nat) : Nat := fmtBits (kIn d) / 8
def outSize (d : Nat) : Nat := fmtBits (kOut d) / 8

/-! ## Shards and chunks (R284) -/

/-- Elements a chunk holds. -/
def chunkLen (d : Nat) : Nat := if bushelSum d then 5120 else 16384

/-- First element and length of rank `j`'s shard among `m`. -/
def shardOf (d m j : Nat) : Nat × Nat :=
  if kKind d == 6 then (if j == kRoot d then (0, kCount d) else (0, 0))
  else
    let sl := 32 * ((kCount d + 32 * m - 1) / (32 * m))
    (j * sl, min ((j + 1) * sl) (kCount d) - j * sl)

def nChunks (d m j : Nat) : Nat := ((shardOf d m j).2 + chunkLen d - 1) / chunkLen d
def nStripes (d m j : Nat) : Nat := (nChunks d m j + 15) / 16

/-- Elements of chunk `c` of a shard: first within the vector, and how many. -/
def chunkOf (d m j c : Nat) : Nat × Nat :=
  let (a, n) := shardOf d m j
  (a + c * chunkLen d, min (chunkLen d) (n - c * chunkLen d))

/-- Chunks of stripe `t` of a shard. -/
def stripeChunks (d m j t : Nat) : List Nat := (span (16 * t) 16).filter (fun c => c < nChunks d m j)

/-- Ranks that own a shard with elements. -/
def owners (d m : Nat) : List Nat := if reduces d then (List.range m).filter (fun j => (shardOf d m j).2 != 0) else []

/-! ## Groups and open collectives -/

/-- The local member of a group in a partition, and the one of a rank. -/
def groupOfPart (s : State) (job group part : Nat) : Option Group :=
  s.coll.groups.find? (fun g => g.job == job && g.group == group && g.part == part)
def groupOfRank (s : State) (job group rank : Nat) : Option Group :=
  s.coll.groups.find? (fun g => g.job == job && g.group == group && g.rank == rank)

def sameMember (a b : Group) : Bool := a.job == b.job && a.group == b.group && a.part == b.part

def updGroup (s : State) (g : Group) : State :=
  { s with coll := { s.coll with groups := s.coll.groups.map (fun x => if sameMember x g then g else x) } }

def sameOpen (a b : OpenColl) : Bool := a.job == b.job && a.group == b.group && a.part == b.part && a.seq == b.seq

def openOf (s : State) (job group part seq : Nat) : Option OpenColl :=
  s.coll.opens.find? (fun o => o.job == job && o.group == group && o.part == part && o.seq == seq)

/-- The open collective's state is put back. -/
def updOpen (s : State) (o : OpenColl) : State :=
  { s with coll := { s.coll with opens := s.coll.opens.map (fun x => if sameOpen x o then o else x) } }

/-- The Thresher of stripe `t` of a group; the home Thresher for `t` 0 (R275). -/
def thresher (group t : Nat) : Nat := 300 + (group + t) % 8

/-- Progress of the Threshers (20 R465). -/
def thresherProgress (s : State) (group : Nat) : State :=
  let i := group % 8
  { s with coll := { s.coll with progress := if s.coll.progress.contains i then s.coll.progress else s.coll.progress ++ [i] } }

/-! ## Signatures and packets (R281, R283) -/

/-- One byte into the CRC-32 of IEEE 802.3. -/
def crc32Byte : Nat → Nat → Nat
  | 0, c => c
  | n + 1, c => crc32Byte n (if c % 2 == 1 then (c / 2) ^^^ 0xEDB88320 else c / 2)

def crc32 (l : List Byte) : Nat := (l.foldl (fun c b => crc32Byte 8 (c ^^^ b.toNat)) 0xFFFFFFFF) ^^^ 0xFFFFFFFF

def signature (d : Nat) : Nat :=
  crc32 ([kKind d, kRed d, b2n (kBushel d), kIn d, kOut d, kRoot d].map (BitVec.ofNat 8) ++ leBytes 4 (kCount d))

/-- A collective packet to the member of a rank (R283). -/
def collSend (s : State) (g : Group) (seq k op vc t off operand : Nat) (pay : List Byte) : State :=
  match g.members[k]? with
  | none => s
  | some (l, _) =>
    let h : Hdr := { op := op, vc := vc, srcEid := ownEid s (thresher g.group t), seq := seq, job := g.job, group := g.group,
                     addr := g.rank * 2 ^ 42 + off, operand := operand }
    match lptPos s l with
    | none => s
    | some pos => queueInject s (mkPkt s { h with destPos := pos, destEid := 1024 * l + thresher g.group t } pay)

/-- Other ranks of a group. -/
def otherRanks (g : Group) : List Nat := (List.range g.members.length).filter (· != g.rank)

/-- Ranks a member of a kind sends COLL_READY to (Table 11-7). -/
def readyTo (d : Nat) (g : Group) : List Nat :=
  match kKind d with
  | 1 | 2 | 3 | 4 => otherRanks g
  | 6 => if g.rank == kRoot d then otherRanks g else []
  | 5 => if g.rank == kRoot d then [] else [kRoot d]
  | _ => []

/-- Ranks whose COLL_READY, or COLL_ARRIVE, a member needs. -/
def readyNeeded (d : Nat) (g : Group) : List Nat :=
  match kKind d with
  | 6 => if g.rank == kRoot d then [] else [kRoot d]
  | 5 => if g.rank == kRoot d then otherRanks g else []
  | _ => otherRanks g

/-! ## Where data lies (R278, R279) -/

/-- A target in the own package, within its bounds. -/
def ownOnly (t : Tgt) (n : Nat) : Tgt :=
  match t with
  | .far _ _ _ _ => .refused 3
  | .spad i a => if spadFits a n then .spad i a else .refused 2
  | x => x

def collSrc (s : State) (part d off n : Nat) : Tgt :=
  ownOnly (spaceTgt s part none false (kSrcSpace d) (kSrcEid d) (kSrc d + off : Nat) n) n
def collDst (s : State) (part d off n : Nat) : Tgt :=
  ownOnly (spaceTgt s part none true (kDstSpace d) (kDstEid d) (kDst d + off : Nat) n) n

/-- STATUS of a refusal by its CAUSE (Table 11-9). -/
def collStatus (cause : Nat) : Nat :=
  match cause with
  | 2 => 2 | 5 => 4
  | _ => 3

/-- Side that a stack's line operations count on for Gleaner work; the fabric die's for the rest. -/
def glnSide (s : State) (ma : Nat) : Nat :=
  match lineAt s (ma / 128 * 128) with
  | some (.stk k _) => k / 6
  | _ => 2

/-! ## A collective under way in one step -/

structure CollRun where
  st : State
  o : OpenColl
  g : Group
  /-- it fails: STATUS and rank -/
  fail : Option (Nat × Nat) := none
  deriving DecidableEq, Repr

def CollRun.bad (r : CollRun) (status : Nat) : CollRun := if r.fail.isSome then r else { r with fail := some (status, 0) }

/-- Bytes of the source (R302). -/
def CollRun.read (r : CollRun) (off n : Nat) (mi : MemIn) (si : SpadIn) : CollRun × List Byte :=
  if r.fail.isSome then (r, [])
  else
    match collSrc r.st r.o.part r.o.desc off n with
    | .spad i a => if badIn si a n then (r.bad 5, []) else (r, spadRead r.st i a n)
    | .mem ma =>
      let (s1, bs, bad) := maRead r.st 2 ma n mi
      if bad.isEmpty then ({ r with st := s1 }, bs) else ({ r with st := s1 }.bad 5, [])
    | .refused c => (r.bad (collStatus c), [])
    | .far _ _ _ _ => (r.bad 3, [])

/-- Result bytes written to DST and counted (R294). -/
def CollRun.write (r : CollRun) (off : Nat) (bs : List Byte) (mi : MemIn) : CollRun :=
  if r.fail.isSome then r
  else
    let done : State → CollRun := fun s => { r with st := s, o := { r.o with written := r.o.written + bs.length } }
    match collDst r.st r.o.part r.o.desc off bs.length with
    | .spad i a => done (spadWrite r.st i a bs)
    | .mem ma =>
      let (s1, bad) := maWrite r.st 2 ma bs mi
      if bad.isEmpty then done s1 else { r with st := s1 }.bad 5
    | .refused c => r.bad (collStatus c)
    | .far _ _ _ _ => r.bad 3

/-! ## Accumulation (R285, R286, R290 to R292) -/

/-- Address of chunk `c` in the fallback area. -/
def fallbackAt (d c : Nat) : Nat := kFall d + 65536 * c

/-- Bytes of an accumulator. -/
def accBytes (d : Nat) : Nat := if bushelSum d then 12 else 4

/-- One element's accumulator after a contribution: none before the first; `e` the agreed exponent. -/
def accumulate (d : Nat) (e : Option Int) (old : Option Int) (v : FVal) : Int × BitVec 8 :=
  if bushelSum d then
    match e with
    | none => (old.getD 0, 0)
    | some x => let (n, lost) := bushelInt x v; (old.getD 0 + n, flagIf lost fInexact)
  else
    let a := fp32.dec (old.getD 0).toNat
    let asF32 : FVal → Int := fun x => ((fp32.enc .rne false x).1 : Int)
    match kRed d, old with
    | 0, _ =>
      let r := addV a v
      let fl := if v.isNan then fNanIn else if a.isNan then 0 else r.fl
      let (c, f2) := roundRes fp32 .rne false { r with fl := fl }
      (c, f2)
    | _, none => (asF32 v, nanIn [v])
    | 1, some _ => (asF32 (maxV a v).v, nanIn [v])
    | _, some _ => (asF32 (minV a v).v, nanIn [v])

/-- A special value's bit (R292). -/
def specialBit (v : FVal) : Nat :=
  match v with
  | .inf false => 1
  | .inf true => 2
  | .nan => 4
  | .fin _ _ _ => 0

/-- The 2-bit entry of the special map. -/
def specialEntry (b : Nat) : Nat := if bit b 2 then 3 else b % 4

/-- An accumulator from its bytes in the fallback area. -/
def accOfBytes (d : Nat) (bs : List Byte) : Int := if bushelSum d then sx 96 (leNat bs) else (leNat bs : Int)
def accToBytes (d : Nat) (v : Int) : List Byte := if bushelSum d then leBytes 12 (unsx 96 v) else leBytes 4 v.toNat

/-- Contribution elements from `e0` of chunk `c` are accumulated, in the Granary or in the fallback area. -/
def CollRun.accum (r : CollRun) (c e0 : Nat) (vals : List FVal) (mi : MemIn) : CollRun :=
  if r.fail.isSome then r
  else
    let d := r.o.desc
    let k : Chunk := mget {} r.o.chunks c
    let w := accBytes d
    let inMem := r.o.gleaner.contains (c / 16)
    let a := fallbackAt d c + w * e0
    let ex := (mfind r.o.agreed (2 ^ 32 * r.o.rank + c)).bind (fun x => if x == 0x8000 then none else some (sx 16 x))
    let (s1, mem, bad) := if inMem then maRead r.st (glnSide r.st a) a (w * vals.length) mi else (r.st, [], [])
    let old : Nat → Option Int := fun i =>
      if inMem then (mfind k.acc (e0 + i)).map (fun _ => accOfBytes d ((mem.drop (w * i)).take w)) else mfind k.acc (e0 + i)
    let news := vals.zipIdx.map (fun e => accumulate d ex (old e.2) e.1)
    let fl := news.foldl (fun f n => f ||| n.2) 0
    let sp := if bushelSum d then vals.zipIdx.foldl (fun m e =>
        if specialBit e.1 == 0 then m else mupd 0 m (e0 + e.2) (fun x => x ||| specialBit e.1)) k.special else k.special
    let nans := if bushelSum d then nanIn vals else 0
    let k1 : Chunk := { k with
      acc := (news.zipIdx.foldl (fun m n => mset m (e0 + n.2) (if inMem then 0 else n.1.1)) k.acc),
      special := sp, flags := k.flags ||| fl ||| nans, got := k.got + vals.length }
    let r1 := { r with o := { r.o with chunks := mset r.o.chunks c k1 } }
    if inMem then
      if !bad.isEmpty then { r1 with st := s1 }.bad 5
      else
        let (s2, bad2) := maWrite s1 (glnSide s1 a) a (news.flatMap (fun n => accToBytes d n.1)) mi
        let (s3, bad3) :=
          if bushelSum d then
            let first := e0 / 4
            let n := (e0 + vals.length + 3) / 4 - first
            maWrite s2 (glnSide s2 a) (fallbackAt d c + 61440 + first)
              ((span first n).map (fun b => BitVec.ofNat 8 (packBits ((List.range 4).map (fun i => (specialEntry (mget 0 sp (4 * b + i)), 2)))))) mi
          else (s2, [])
        if bad2.isEmpty && bad3.isEmpty then { r1 with st := s3 } else { r1 with st := s3 }.bad 5
    else r1

/-- Contribution bytes at a byte offset of the vector, all of one chunk of the own shard, from a rank. Bytes for a chunk that
has reached its count are discarded and counted in OVERFILL (R296). -/
def CollRun.contribute (r : CollRun) (from_ off : Nat) (bs : List Byte) (mi : MemIn) : CollRun :=
  let d := r.o.desc
  let (a, _) := shardOf d r.o.m r.o.rank
  let e := off / inSize d - a
  let c := e / chunkLen d
  let (_, n) := chunkOf d r.o.m r.o.rank c
  let k : Chunk := mget {} r.o.chunks c
  if r.o.m * n ≤ k.got then
    let total := r.st.coll.overBytes + bs.length
    { r with
      st := { r.st with coll := { r.st.coll with
        overfill := satAdd max16 r.st.coll.overfill (total / 32), overBytes := total % 32 } },
      o := { r.o with chunks := mset r.o.chunks c { k with overfilled := true } } }
  else
    let vals := runVals bs (kIn d) (bs.length / inSize d)
    let r1 := { r with o := { r.o with contribFrom := mupd 0 r.o.contribFrom from_ (· + vals.length) } }
    r1.accum c (e - c * chunkLen d) vals mi

/-- Every contribution of a chunk has been counted. -/
def chunkFull (o : OpenColl) (c : Nat) : Bool :=
  (mget {} o.chunks c : Chunk).got == o.m * (chunkOf o.desc o.m o.rank c).2

/-- One element converted to OUT_FMT (R292, R293). -/
def convertElem (o : OpenColl) (k : Chunk) (c i : Nat) (a : Int) : List Byte × BitVec 8 :=
  let d := o.desc
  match fmtOf (kOut d) with
  | none => ([], 0)
  | some f =>
    let v : FVal :=
      if bushelSum d then
        match specialEntry (mget 0 k.special i) with
        | 0 => (match mfind o.agreed (2 ^ 32 * o.rank + c) with
                | some x => if x == 0x8000 then .fin false 0 0 else ofScaled a (sx 16 x - 87) false
                | none => .fin false 0 0)
        | 1 => .inf false
        | 2 => .inf true
        | _ => .nan
      else fp32.dec a.toNat
    let (w, fl) := roundRes f .rne (kSat d) ⟨v, 0⟩
    (leBytes (outSize d) w, fl ||| flagIf (bits (mget 0 k.special i) 0 2 == 3) fInvalid)

/-- A chunk with all its contributions is read and converted once; an overfilled one gives bytes the spec does not define
(R293, R296). -/
def CollRun.convert (r : CollRun) (c : Nat) (mi : MemIn) : CollRun :=
  if r.fail.isSome then r
  else
    let d := r.o.desc
    let k : Chunk := mget {} r.o.chunks c
    let n := (chunkOf d r.o.m r.o.rank c).2
    let w := accBytes d
    let inMem := r.o.gleaner.contains (c / 16)
    let a := fallbackAt d c
    let (s1, mem, bad) := if inMem then maRead r.st 2 a (w * n) mi else (r.st, [], [])
    if !bad.isEmpty then { r with st := s1 }.bad 5
    else
      let acc : Nat → Int := fun i => if inMem then accOfBytes d ((mem.drop (w * i)).take w) else (mfind k.acc i).getD 0
      let es := (List.range n).map (fun i => convertElem r.o k c i (acc i))
      let fl := es.foldl (fun f e => f ||| e.2) k.flags
      let bytes := es.flatMap (·.1)
      if k.overfilled then
        let free := (List.range bytes.length).map (Config.undefByte s1.freeCtr)
        { r with st := s1.drawn, o := { r.o with chunks := mset r.o.chunks c { k with out := some free, flags := fl } } }
      else { r with st := s1, o := { r.o with chunks := mset r.o.chunks c { k with out := some bytes, flags := fl } } }

/-! ## What a member sends (Tables 11-6 and 11-7) -/

/-- Data may go to rank `k` (R281). -/
def mayData (o : OpenColl) (k : Nat) : Bool := k == o.rank || o.ready.contains k

/-- Parts of at most 1,024 bytes of `n` bytes from `a`: (offset from `a`, bytes). -/
def cuts (n : Nat) : List (Nat × Nat) := pieces n

/-- A member's exponent for a chunk's values; 0x8000 for none (R291). -/
def chunkExp (vs : List FVal) : Nat :=
  let tops := vs.filterMap (fun v => match v with | .fin _ m e => if m == 0 then none else some (topExp m e) | _ => none)
  match tops with
  | [] => 0x8000
  | t :: r => unsx 16 (r.foldl max t)

/-- Exponents as a payload. -/
def expBytes (l : List Nat) : List Byte := l.flatMap (leBytes 2)

/-- Step 2: exponents of stripe `t` of shard `j` (R291). -/
def CollRun.sendExps (r : CollRun) (j t : Nat) (mi : MemIn) (si : SpadIn) : CollRun :=
  let d := r.o.desc
  if r.fail.isSome || r.o.sentExp.contains (2 ^ 16 * j + t) then r
  else
    let cs := stripeChunks d r.o.m j t
    let (r1, es) := cs.foldl (fun (acc : CollRun × List Nat) c =>
      let (a, n) := chunkOf d r.o.m j c
      let (r2, bs) := acc.1.read (a * inSize d) (n * inSize d) mi si
      (r2, acc.2 ++ [chunkExp (runVals bs (kIn d) n)])) (r, [])
    if r1.fail.isSome then r1
    else
      let r2 := { r1 with o := { r1.o with sentExp := r1.o.sentExp ++ [2 ^ 16 * j + t] } }
      if j == r.o.rank then { r2 with o := { r2.o with exps := mset r2.o.exps (64 * t + j) es } }
      else { r2 with st := collSend r2.st r2.g r2.o.seq j 0x11 1 t (16 * t) cs.length (expBytes es) }

/-- The largest of exponents; 0x8000 stands for none. -/
def maxExp (l : List Nat) : Nat :=
  let real := (l.filter (· != 0x8000)).map (sx 16)
  match real with
  | [] => 0x8000
  | x :: r => unsx 16 (r.foldl max x)

/-- Step 3: the owner agrees a stripe's exponents once it has all of them. -/
def CollRun.agree (r : CollRun) (t : Nat) : CollRun :=
  let d := r.o.desc
  let cs := stripeChunks d r.o.m r.o.rank t
  let all := (List.range r.o.m).map (fun k => mfind r.o.exps (64 * t + k))
  if r.fail.isSome || all.any (·.isNone) || (mfind r.o.agreed (2 ^ 32 * r.o.rank + 16 * t)).isSome then r
  else
    let es := cs.map (fun c => maxExp (all.map (fun l => (l.getD []).getD (c - 16 * t) 0x8000)))
    let o1 := { r.o with agreed := (cs.zip es).foldl (fun m e => mset m (2 ^ 32 * r.o.rank + e.1) e.2) r.o.agreed }
    { r with o := o1, st := (otherRanks r.g).foldl (fun s k => collSend s r.g r.o.seq k 0x12 1 t (16 * t) cs.length (expBytes es)) r.st }

/-- Contribution bytes at an offset, all of chunk `c` of shard `j`, on their way to the owner. -/
def CollRun.toOwner (r : CollRun) (j c off : Nat) (bs : List Byte) (mi : MemIn) : CollRun :=
  if r.fail.isSome then r
  else if j == r.o.rank then r.contribute j off bs mi
  else
    { r with st := (cuts bs.length).foldl (fun s p =>
        collSend s r.g r.o.seq j 0x13 1 (c / 16) (off + p.1) 0 ((bs.drop p.1).take p.2)) r.st }

/-- Step 4: chunk `c` of shard `j`, from SRC. -/
def CollRun.sendContrib (r : CollRun) (j c : Nat) (mi : MemIn) (si : SpadIn) : CollRun :=
  let d := r.o.desc
  let key := 2 ^ 32 * j + c
  if r.fail.isSome || r.o.sentData.contains key || (bushelSum d && (mfind r.o.agreed key).isNone) then r
  else
    let (a, n) := chunkOf d r.o.m j c
    let (r1, bs) := r.read (a * inSize d) (n * inSize d) mi si
    ({ r1 with o := { r1.o with sentData := r1.o.sentData ++ [key] } }).toOwner j c (a * inSize d) bs mi

/-- A result of `t`'s stripe goes to a rank, or to the own DST (R294). -/
def CollRun.giveResult (r : CollRun) (k t off : Nat) (flags : BitVec 8) (bs : List Byte) (mi : MemIn) : CollRun :=
  if r.fail.isSome then r
  else if k == r.o.rank then
    let r1 := { r with o := { r.o with flags := r.o.flags ||| flags, resultFrom := mupd 0 r.o.resultFrom k (· + bs.length) } }
    r1.write off bs mi
  else
    { r with st := (cuts bs.length).foldl (fun s p =>
        collSend s r.g r.o.seq k 0x14 1 t (off + p.1) flags.toNat ((bs.drop p.1).take p.2)) r.st }

/-- Byte offset in DST of chunk `c` of the own shard (Table 11-5). -/
def dstOff (o : OpenColl) (c : Nat) : Nat :=
  if kKind o.desc == 1 then (chunkOf o.desc o.m o.rank c).1 * outSize o.desc else c * chunkLen o.desc * outSize o.desc

/-- Receivers of an own chunk's result. -/
def resultRanks (o : OpenColl) : List Nat := if kKind o.desc == 1 then List.range o.m else [o.rank]

/-- Step 6: a converted chunk's result goes to each rank that may have it and has not. -/
def CollRun.sendResult (r : CollRun) (c : Nat) (mi : MemIn) : CollRun :=
  let k : Chunk := mget {} r.o.chunks c
  match k.out with
  | none => r
  | some bs => (resultRanks r.o).foldl (fun r q =>
      if mayData r.o q && !r.o.sentRes.contains (2 ^ 32 * q + c) then
        ({ r with o := { r.o with sentRes := r.o.sentRes ++ [2 ^ 32 * q + c] } }).giveResult q (c / 16) (dstOff r.o c) k.flags bs mi
      else r) r

/-- A stripe's slots go back once all its results have left (R287). -/
def CollRun.freeSlots (r : CollRun) (t : Nat) : CollRun :=
  match mfind r.o.slots t with
  | none => r
  | some n =>
    if (stripeChunks r.o.desc r.o.m r.o.rank t).all (fun c => (resultRanks r.o).all (fun q => r.o.sentRes.contains (2 ^ 32 * q + c))) then
      { r with
        o := { r.o with slots := mdel r.o.slots t },
        st := { r.st with coll := { r.st.coll with
          slotsFree := r.st.coll.slotsFree + n, charged := mupd 0 r.st.coll.charged r.o.part (· - n) } } }
    else r

/-- Blocks of the kinds that do not reduce: (receiver, offset in SRC, offset in DST), as rank `r` sends them. -/
def plainSends (o : OpenColl) : List (Nat × Nat × Nat) :=
  let d := o.desc
  let n := kCount d * inSize d
  match kKind d with
  | 3 => (List.range o.m).map (fun k => (k, 0, o.rank * n))
  | 4 => (List.range o.m).map (fun k => (k, k * n, o.rank * n))
  | 5 => if o.rank == kRoot d then (List.range o.m).map (fun k => (k, 0, 0)) else []
  | _ => []

/-- A plain block is sent once (Table 11-7). -/
def CollRun.sendPlain (r : CollRun) (e : Nat × Nat × Nat) (mi : MemIn) (si : SpadIn) : CollRun :=
  if r.fail.isSome || !mayData r.o e.1 || r.o.sentData.contains e.1 then r
  else
    let (r1, bs) := r.read e.2.1 (kCount r.o.desc * inSize r.o.desc) mi si
    ({ r1 with o := { r1.o with sentData := r1.o.sentData ++ [e.1] } }).giveResult e.1 0 e.2.2 0 bs mi

/-- Everything the member may send now is sent. -/
def CollRun.pump (r : CollRun) (mi : MemIn) (si : SpadIn) : CollRun :=
  let d := r.o.desc
  let m := r.o.m
  let js := (owners d m).filter (mayData r.o)
  let r1 := if bushelSum d then js.foldl (fun r j => (List.range (nStripes d m j)).foldl (fun r t => r.sendExps j t mi si) r) r else r
  let r2 := if bushelSum d then (List.range (nStripes d m r.o.rank)).foldl (fun r t => r.agree t) r1 else r1
  let r3 := if kStream d then r2
    else js.foldl (fun r j => (List.range (nChunks d m j)).foldl (fun r c => r.sendContrib j c mi si) r) r2
  let r4 := if reduces d then (List.range (nChunks d m r.o.rank)).foldl (fun r c => r.sendResult c mi) r3 else r3
  let r5 := (List.range (nStripes d m r.o.rank)).foldl (fun r t => r.freeSlots t) r4
  (plainSends r.o).foldl (fun r e => r.sendPlain e mi si) r5

/-! ## The end of a collective (R294, R295, R298, R301) -/

/-- The completion record (Table 11-9). -/
def collRecord (o : OpenColl) (status rank : Nat) : List Byte :=
  leBytes 16 (packBits [(status, 4), (kKind o.desc, 4), (o.flags.toNat, 8), (rank, 6), (0, 10), (o.seq, 16),
    (o.gleaner.length, 16), (min o.lagNs max32, 32)])

/-- The record is written where REC_EN asks for it. -/
def writeCollRecord (s : State) (o : OpenColl) (status rank : Nat) (mi : MemIn) : State :=
  let d := o.desc
  if kRecEn d && (memRefusal s o.part true (kRec d) 16).isNone then (maWrite s 2 (kRec d) (collRecord o status rank) mi).1 else s

/-- The collective is no longer open, and its slots go back. -/
def closeColl (s : State) (o : OpenColl) : State :=
  let n := (o.slots.map (·.2)).sum
  { s with coll := { s.coll with
      opens := s.coll.opens.filter (fun x => !sameOpen x o), slotsFree := s.coll.slotsFree + n,
      charged := mupd 0 s.coll.charged o.part (· - n) } }

/-- A collective fails at this member (R299 to R302). COLL_FAIL goes to the others unless the failure was ABORTED,
ENDPOINT_FENCED, or told by another member. -/
def collFail (s : State) (o : OpenColl) (status rank : Nat) (mi : MemIn) : State :=
  let s1 := firePart (writeCollRecord (closeColl s o) o status rank mi) o.part 10
  match groupOfPart s1 o.job o.group o.part with
  | none => s1
  | some g =>
    let g1 := { g with
      failed := satAdd max16 g.failed 1, timeouts := if status == 6 then satAdd max16 g.timeouts 1 else g.timeouts,
      closed := (g.closed.filter (fun c => c.1 != o.seq)) ++ [(o.seq, s1.now)], pend := mdel g.pend o.seq }
    let s2 := updGroup s1 g1
    if status == 9 || status == 4 || status == 8 then s2
    else
      let named := if status == 6 || status == 7 then rank else g.rank
      (otherRanks g).foldl (fun s k => collSend s g o.seq k 0x16 0 0 0 (status + 16 * named) []) s2

/-- What a step left of a collective: it failed, or goes on. -/
def collSettle (r : CollRun) (mi : MemIn) : State :=
  let s1 := thresherProgress r.st r.o.group
  match r.fail with
  | some (st, k) => collFail s1 r.o st k mi
  | none => updOpen s1 r.o

/-- Open collectives that `sel` picks fail with a status. -/
def failOpens (s : State) (sel : OpenColl → Bool) (status : Nat) : State :=
  (s.coll.opens.filter sel).foldl (fun s o => collFail s o status 0 {}) s

end Sys2Proof.Machine
end

