-- ==== Sys2Proof/Machine/Wain.lean ====
section
/-!
DEFINITION. Machine/Wain.lean: the Wain DMA engines (05). A channel is named 32 * engine + channel, an engine
8 * partition + w.
-/
namespace Sys2Proof.Machine

/-! ## Parts of State -/

def chanOf (s : State) (ch : Nat) : Chan := mget {} s.wain.chans ch
def setChan (s : State) (ch : Nat) (v : Chan) : State := { s with wain := { s.wain with chans := mset s.wain.chans ch v } }
def workOf (s : State) (ch : Nat) : ChanWork := mget {} s.wain.works ch
def setWork (s : State) (ch : Nat) (v : ChanWork) : State := { s with wain := { s.wain with works := mset s.wain.works ch v } }
def wainOf (s : State) (e : Nat) : WainEngine := mget {} s.wain.engines e
def setWain (s : State) (e : Nat) (v : WainEngine) : State := { s with wain := { s.wain with engines := mset s.wain.engines e v } }

/-- Engine and partition of a channel, and the engine's endpoint. -/
def engOfChan (ch : Nat) : Nat := ch / 32
def partOfEng (e : Nat) : Nat := e / 8
def partOfChan (ch : Nat) : Nat := ch / 256
def epOfEng (e : Nat) : Nat := 308 + e

/-- The engine works: its partition is not refusing and its die has power. -/
def engLive (s : State) (e : Nat) : Bool :=
  decide (e < 32) && pkgU s && !halts s (partOfEng e) && pstate s (partOfEng e) != .dormant && !s.heat.stopped &&
  !s.boot.poweredOff

/-! ## The descriptor (Table 5-2) -/

def wOp (d : Nat) : Nat := bits d 0 4
def wRateEn (d : Nat) : Bool := bit d 6
def wSrcSpace (d : Nat) : Nat := bits d 64 2
def wSrcEid (d : Nat) : Nat := bits d 66 16
def wSrc (d : Nat) : Nat := bits d 82 48
def wDstSpace (d : Nat) : Nat := bits d 130 2
def wDstEid (d : Nat) : Nat := bits d 132 16
def wDst (d : Nat) : Nat := bits d 148 48
def wSrcLen (d : Nat) : Nat := bits d 196 24
def wSrcLines (d : Nat) : Nat := bits d 220 16
def wSrcStride (d : Nat) : Int := sx 32 (bits d 236 32)
def wDstLen (d : Nat) : Nat := bits d 268 24
def wDstLines (d : Nat) : Nat := bits d 292 16
def wDstStride (d : Nat) : Int := sx 32 (bits d 308 32)
def wSrcE (d : Nat) : Nat := 2 ^ bits d 340 3
def wDstE (d : Nat) : Nat := 2 ^ bits d 343 3
def wConv (d : Nat) : Nat := bits d 346 4
def wSat (d : Nat) : Bool := bit d 350
def wFill (d : Nat) : Nat := bits d 351 2
def wDccEn (d : Nat) : Bool := bit d 353
def wDcc (d : Nat) : Nat := bits d 354 12
def wRoute (d : Nat) : Nat := bits d 366 2
def wVia (d : Nat) : Nat := bits d 368 7
def wRate (d : Nat) : Nat := bits d 375 9

/-- Elements per line, and elements, of each side (R126). -/
def wSrcPer (d : Nat) : Nat := wSrcLen d / wSrcE d
def wDstPer (d : Nat) : Nat := wDstLen d / wDstE d
def wCount (d : Nat) : Nat := wSrcPer d * wSrcLines d

/-- Source and destination formats of a conversion (Table 5-3). -/
def wFmts (c : Nat) : Option (FloatFmt × FloatFmt) :=
  match c with
  | 1 => some (fp32, bf16) | 2 => some (bf16, fp32) | 3 => some (fp32, e4m3) | 4 => some (fp32, e5m2)
  | 5 => some (bf16, e4m3) | 6 => some (bf16, e5m2) | 7 => some (e4m3, fp32) | 8 => some (e5m2, fp32)
  | 9 => some (e4m3, bf16) | 10 => some (e5m2, bf16)
  | _ => none

/-- Bytes of a format. -/
def fmtSize (f : FloatFmt) : Nat := (1 + f.eb + f.mb) / 8

/-- A code of reason 2. -/
def wCodeBad (d : Nat) : Bool :=
  wSrcSpace d == 0 || wDstSpace d == 0 || bits d 340 3 == 7 || bits d 343 3 == 7 || 10 < wConv d || wFill d == 3 ||
  (match wFmts (wConv d) with
   | none => false
   | some (a, b) => wSrcE d != fmtSize a || wDstE d != fmtSize b)

/-- Rejection reason of a descriptor (Table 5-4, R125). A FENCE uses bits 63:0 alone. -/
def wainReason (d : Nat) : Option Nat :=
  if wOp d == 2 then none
  else if wOp d != 1 then some 1
  else reasons [
    (wCodeBad d, 2),
    (wSrc d % wSrcE d != 0 || wSrcStride d % (wSrcE d : Int) != 0 || wSrcLen d % wSrcE d != 0 ||
      wDst d % wDstE d != 0 || wDstStride d % (wDstE d : Int) != 0 || wDstLen d % wDstE d != 0, 3),
    (wCount d != wDstPer d * wDstLines d, 4),
    (wRoute d == 3 || 71 < wVia d, 5),
    (wRateEn d && (wRate d == 0 || 256 < wRate d), 6)]

/-! ## Where lines lie (R125, 04 Table 4-17) -/

/-- A target whose scratchpad extent is within bounds. -/
def inSpad (t : Tgt) (n : Nat) : Tgt :=
  match t with
  | .spad i a => if spadFits a n then .spad i a else .refused 2
  | x => x

/-- Where `n` bytes at an address of a side lie. -/
def wainSrc (s : State) (ch d : Nat) (a : Int) (n : Nat) : Tgt :=
  inSpad (spaceTgt s (partOfChan ch) none false (wSrcSpace d) (wSrcEid d) a n) n
def wainDst (s : State) (ch d : Nat) (a : Int) (n : Nat) : Tgt :=
  inSpad (spaceTgt s (partOfChan ch) none true (wDstSpace d) (wDstEid d) a n) n

/-- The first refusal among a COPY's lines, before any data moves (R125). -/
def wainRefusal (s : State) (ch d : Nat) : Option Nat :=
  match (List.range (wSrcLines d)).findSome? (fun l => tgtCause (wainSrc s ch d (lineAddr (wSrc d) (wSrcStride d) l) (wSrcLen d))) with
  | some c => some c
  | none => (List.range (wDstLines d)).findSome? (fun l => tgtCause (wainDst s ch d (lineAddr (wDst d) (wDstStride d) l) (wDstLen d)))

/-! ## Halts (R133) -/

/-- A channel halts: its error is recorded, the failed descriptor leaves it, and the Wain-channel-error event is raised. -/
def wainHalt (s : State) (ch cause reason : Nat) (index : Option Nat) : State :=
  let c := chanOf s ch
  let w := workOf s ch
  let s1 := setWork s ch { w with work := w.work.filter (fun x => some x.index != index) }
  firePart (if c.halted then s1 else setChan s1 ch { c with halted := true, errCause := cause, errReason := reason })
    (partOfChan ch) 4

/-! ## Fetch (R122, R123, R125) -/

/-- Where ring entry `i` lies. -/
def ringTgt (s : State) (p space eid addr i : Nat) : Tgt := inSpad (spaceTgt s p none false space eid (addr + 64 * i : Nat) 64) 64

/-- A ring of a channel of partition `p`: its 64 bytes, or none where they lie outside the partition's own memory or cannot
be read. -/
def ringRead (s : State) (p side : Nat) (c : Chan) (i : Nat) (mi : MemIn) (si : SpadIn) : State × Option Nat :=
  match ringTgt s p c.ringSpace c.ringEid c.ringAddr i with
  | .spad tile off =>
    if partOfTile tile != p then (s, none)
    else
      let s1 := eccCount s tile si
      if badIn si off 64 then (s1, none) else (s1, some (leNat (spadRead s1 tile off 64)))
  | .mem ma =>
    if ma / 2 ^ 38 != p then (s, none)
    else
      let (s1, bs, bad) := maRead s side ma 64 mi
      (s1, if bad.isEmpty then some (leNat bs) else none)
  | _ => (s, none)

/-- The ring's memory can be read now. -/
def ringReady (s : State) (p : Nat) (c : Chan) (i : Nat) : Bool :=
  match ringTgt s p c.ringSpace c.ringEid c.ringAddr i with
  | .mem ma => rangeReady s ma 64
  | _ => true

/-- The doorbell counter is ahead of HEAD (04 R115). -/
def doorbellAhead (s : State) (p : Nat) (c : Chan) : Bool :=
  c.enable && !c.halted && c.ringEntries != 0 && ccReached s p c.dbCc ((c.head + 1) % 2 ^ 32)

/-- WAIN_FETCH (R123, R125). A fetch that fails leaves HEAD where it was (log 22). -/
def execWainFetch (t ch : Nat) (mi : MemIn) (si : SpadIn) (s : State) : Out :=
  run t s fun s =>
    let c := chanOf s ch
    let p := partOfChan ch
    let i := c.head % c.ringEntries
    gate (engLive s (engOfChan ch) && doorbellAhead s p c && ringReady s p c i) (fun s =>
      match ringRead s p (dieOfPart p) c i mi si with
      | (s1, none) => wainHalt s1 ch 7 0 none
      | (s1, some d) =>
        let s2 := setChan s1 ch { c with head := (c.head + 1) % 2 ^ 32 }
        let w := workOf s2 ch
        let s3 := setWork s2 ch { w with work := w.work ++ [{ desc := d, index := c.head }], progress := true }
        match wainReason d with
        | some r => wainHalt s3 ch 6 r (some c.head)
        | none =>
          if wOp d == 1 && wCount d != 0 then
            match wainRefusal s3 ch d with
            | some cause => wainHalt s3 ch cause 0 (some c.head)
            | none => s3
          else s3) s

/-! ## Bursts (R121, R129, R130) -/

/-- The COPY whose reads come next: every COPY before it has issued all its reads, and no FENCE stands before it (R131). -/
def wainNext : List WainWork → Option WainWork
  | [] => none
  | w :: r => if wOp w.desc == 2 then none else if w.read < wCount w.desc then some w else wainNext r

/-- Elements of the next burst (R121). -/
def burstCount (w : WainWork) : Nat := min (wCount w.desc - w.read) (4096 / max (wSrcE w.desc) (wDstE w.desc))

/-- Tokens a burst costs (R129). -/
def burstCost (w : WainWork) : Nat := 2 * (burstCount w * max (wSrcE w.desc) (wDstE w.desc))

/-- RATE that governs a burst: a RATE_EN descriptor's before its first. -/
def burstRate (s : State) (ch : Nat) (w : WainWork) : Nat :=
  if wRateEn w.desc && w.read == 0 then wRate w.desc else (chanOf s ch).rate

/-- The clock of an engine's quadrant, MHz (R119 of the engine's place). -/
def engClock (s : State) (e : Nat) : Nat := (quadOf s (2 * partOfEng e + e % 8 / 4)).clkMHz

/-- The bucket now (R129). -/
def tokensNow (s : State) (ch rate : Nat) : Nat :=
  let w := workOf s ch
  min 8192 (w.tokens + rate * ((s.now - w.tokensAt) * engClock s (engOfChan ch) / 1000))

/-- Slots a channel holds in its engine. -/
def slotsOf (g : WainEngine) (ch : Nat) : Nat := ((g.bursts ++ g.full).filter (fun b => b.chan == ch)).length

/-- A channel is eligible (R130). -/
def wainEligible (s : State) (ch : Nat) : Bool :=
  let c := chanOf s ch
  let g := wainOf s (engOfChan ch)
  match wainNext (workOf s ch).work with
  | none => false
  | some w =>
    c.enable && !c.halted &&
    (!dWaitEn w.desc || ccReached s (partOfChan ch) (dWaitCc w.desc) (dWaitVal w.desc)) &&
    burstCost w ≤ tokensNow s ch (burstRate s ch w) && slotsOf g ch < 16 && (g.bursts ++ g.full).length < 64

/-- Channels of an engine. -/
def chansOf (e : Nat) : List Nat := span (32 * e) 32

/-- The longest promoted of a list. -/
def longestPromoted (s : State) : List Nat → Option Nat
  | [] => none
  | c :: r =>
    match (workOf s c).promotedAt, longestPromoted s r with
    | none, o => o
    | some _, none => some c
    | some a, some k => if a ≤ ((workOf s k).promotedAt.getD a) then some c else some k

/-- The channel whose burst is issued next (R130). -/
def wainSelect (s : State) (e : Nat) : Option Nat :=
  let el := (chansOf e).filter (wainEligible s)
  let g := wainOf s e
  match longestPromoted s el with
  | some c => some c
  | none =>
    match rrNext (32 * e + g.lastHigh) (chansOf e) (el.filter (fun c => (chanOf s c).prio)) with
    | some c => some c
    | none => rrNext (32 * e + g.lastNormal) (chansOf e) (el.filter (fun c => !(chanOf s c).prio))

/-- Consecutive runs of a side: elements [first, first + count) as (address, elements), cut at line ends and at `top`
elements. -/
def wainRuns (base : Nat) (stride : Int) (per esize top : Nat) : Nat → Nat → Nat → List (Int × Nat)
  | 0, _, _ => []
  | fuel + 1, first, count =>
    if count == 0 || per == 0 then []
    else
      let n := min (min count top) (per - first % per)
      (lineAddr base stride (first / per) + (first % per) * esize, n) ::
        wainRuns base stride per esize top fuel (first + n) (count - n)

/-- Reads of a burst: runs of at most 1,024 bytes. -/
def burstReads (b : Burst) : List (Int × Nat) :=
  let d := b.desc
  wainRuns (wSrc d) (wSrcStride d) (wSrcPer d) (wSrcE d) (1024 / wSrcE d) (b.count + 1) b.first b.count

/-- One read of a burst: served here, or sent to another package. -/
def burstRead (s : State) (b : Burst) (k : Nat) (a : Int) (n : Nat) (mi : MemIn) (si : SpadIn) : State × Burst :=
  let e := engOfChan b.chan
  let p := partOfChan b.chan
  match wainSrc s b.chan b.desc a n with
  | .spad i off => if badIn si off n then (s, { b with failed := b.failed ++ [k] }) else (s, { b with parts := mset b.parts k (spadRead s i off n) })
  | .mem ma =>
    let (s1, bs, bad) := maRead s (dieOfPart p) ma n mi
    if bad.isEmpty then (s1, { b with parts := mset b.parts k bs }) else (s1, { b with failed := b.failed ++ [k] })
  | .far l ep vc addr =>
    let h : Hdr := { op := 2, vc := vc, route := if vc == 2 then wRoute b.desc else 0, via := if vc == 2 then wVia b.desc else 0,
                     addr := addr, operand := n }
    match sendReq s (epOfEng e) p .read l ep h [] n (.wainRead b.chan b.index b.first k) (fabTimeout s p) with
    | none => (s, { b with failed := b.failed ++ [k] })
    | some (s1, _) => (s1, { b with waits := b.waits ++ [k] })
  | .refused _ => (s, { b with failed := b.failed ++ [k] })

/-- The CAUSE a local read that fails gives: an uncorrectable error, or the refusal. -/
def burstFailCause (s : State) (b : Burst) : Nat :=
  match (burstReads b).findSome? (fun r => tgtCause (wainSrc s b.chan b.desc r.1 (r.2 * wSrcE b.desc))) with
  | some c => c
  | none => 1

/-- A burst takes its place: with those that wait, or complete. -/
def placeBurst (s : State) (b : Burst) : State :=
  let e := engOfChan b.chan
  let g := wainOf s e
  if b.waits.isEmpty then setWain s e { g with full := g.full ++ [b] } else setWain s e { g with bursts := g.bursts ++ [b] }

/-- Every local source of a burst can be served now, and SEQ values are free for the others. -/
def burstReady (s : State) (b : Burst) : Bool :=
  (burstReads b).all (fun r =>
    match wainSrc s b.chan b.desc r.1 (r.2 * wSrcE b.desc) with
    | .mem ma => rangeReady s ma (r.2 * wSrcE b.desc)
    | _ => true) && seqRoom s (epOfEng (engOfChan b.chan)) (burstReads b).length

/-- The reads of a burst are issued (R129, R130). -/
def issueBurst (s : State) (ch : Nat) (w : WainWork) (b : Burst) (mi : MemIn) (si : SpadIn) : State :=
  let e := engOfChan ch
  let rate := burstRate s ch w
  let c := chanOf s ch
  let k := workOf s ch
  let g := wainOf s e
  let s1 := setWain (setChan s ch { c with rate := rate }) e
    (if c.prio then { g with lastHigh := ch % 32 } else { g with lastNormal := ch % 32 })
  let s2 := setWork s1 ch { k with
    tokens := tokensNow s ch rate - burstCost w, tokensAt := s.now, waitSince := none, promotedAt := none, progress := true,
    work := k.work.map (fun x => if x.index == w.index then { x with read := x.read + b.count } else x) }
  let (s3, b1) := (burstReads b).zipIdx.foldl (fun acc r => burstRead acc.1 acc.2 r.2 r.1.1 (r.1.2 * wSrcE b.desc) mi si) (s2, b)
  let s4 := placeBurst s3 b1
  if b1.failed.isEmpty then s4 else wainHalt s4 ch (burstFailCause s b) 0 (some w.index)

/-- Eligible channels that were passed over begin to age (R130, log 23). -/
def startAges (s : State) (e ch : Nat) : State :=
  ((chansOf e).filter (fun c => c != ch && wainEligible s c)).foldl (fun s c =>
    let w := workOf s c
    if w.waitSince.isNone then setWork s c { w with waitSince := some s.now } else s) s

/-- WAIN_BURST_ISSUE (R121, R126, R129 to R131). -/
def execWainBurstIssue (t e : Nat) (mi : MemIn) (si : SpadIn) (s : State) : Out :=
  run t s fun s => gate (engLive s e) (fun s =>
    match wainSelect s e with
    | none => s
    | some ch =>
      match wainNext (workOf s ch).work with
      | none => s
      | some w =>
        let b : Burst := { chan := ch, index := w.index, desc := w.desc, first := w.read, count := burstCount w }
        gate (burstReady s b) (fun s => issueBurst (startAges s e ch) ch w b mi si) s) s

/-- WAIN_AGE_PROMOTE (R130). -/
def execWainAgePromote (t ch : Nat) (s : State) : Out :=
  run t s fun s =>
    let w := workOf s ch
    gate (engLive s (engOfChan ch) && w.promotedAt.isNone &&
        (match w.waitSince with | none => false | some a => decide (a + 1000 * (chanOf s ch).ageUs ≤ s.now)))
      (fun s => setWork s ch { w with promotedAt := some s.now }) s

/-! ## Writing a burst (R126 to R128) -/

/-- pack(x) (R127): the destination element's bytes, none where FILL 2 leaves them. -/
def wainPack (d : Nat) (x : List Byte) : List (Option Byte) :=
  match wFmts (wConv d) with
  | some (a, b) => (leBytes (fmtSize b) (b.enc .rne (wSat d) (a.dec (leNat x))).1).map some
  | none =>
    let dE := wDstE d
    let up := dE - x.length
    let sign := match x.getLast? with | some h => bit h.toNat 7 | none => false
    let fill : Option Byte := match wFill d with | 0 => some 0 | 1 => some (if sign then 0xFF else 0) | _ => none
    (x.take dE).map some ++ List.replicate up fill

/-- The source bytes of a burst in element order; none for an element whose read failed. -/
def burstElems (b : Burst) : List (Option (List Byte)) :=
  let sE := wSrcE b.desc
  (burstReads b).zipIdx.flatMap (fun r =>
    match mfind b.parts r.2 with
    | none => List.replicate r.1.2 none
    | some bs => (List.range r.1.2).map (fun i => some ((bs.drop (sE * i)).take sE)))

/-- Destination runs of a burst, cut at line ends and at 128-byte blocks: (address, first element, elements). -/
def burstWrites (b : Burst) : List (Int × Nat × Nat) :=
  let d := b.desc
  let runs := wainRuns (wDst d) (wDstStride d) (wDstPer d) (wDstE d) (wDstPer d) (b.count + 1) b.first b.count
  let e := wDstE d
  let per := max 1 (128 / e)
  let blocks : Int → Nat → Nat → List (Int × Nat × Nat) := fun a i n =>
    let lead : Nat := min n (((128 - (a % 128).toNat) + e - 1) / e)
    (a, i, lead) :: (List.range ((n - lead + per - 1) / per)).map (fun (k : Nat) =>
      let o : Nat := lead + k * per
      (a + ((o * e : Nat) : Int), i + o, min per (n - o)))
  (runs.foldl (fun acc r => (acc.1 ++ blocks r.1 acc.2 r.2, acc.2 + r.2)) (([] : List (Int × Nat × Nat)), 0)).1

/-- An earlier destination line of the same COPY covers a word. -/
def wainCovered (d l w : Nat) : Bool :=
  (List.range l).any (fun k => let a := lineAddr (wDst d) (wDstStride d) k
    a < ((8 * w + 8 : Nat) : Int) && ((8 * w : Nat) : Int) < a + (wDstLen d : Int))

/-- Where elements of one descriptor overlap, either stays in a word (R128, log 7). -/
def keepOverlap (s : State) (d l a : Nat) (bs : List (Option Byte)) : List (Option Byte) :=
  bs.zipIdx.map (fun e => if wainCovered d l ((a + e.2) / 8) && Config.overlapKeep s.freeCtr ((a + e.2) / 8) then none else e.1)

/-- Runs of written bytes among some left unwritten: (offset, bytes). -/
def writtenRuns : Nat → List (Option Byte) → List (Nat × List Byte)
  | _, [] => []
  | o, none :: r => writtenRuns (o + 1) r
  | o, some b :: r =>
    match writtenRuns (o + 1) r with
    | (o2, bs) :: rest => if o2 == o + 1 then (o, b :: bs) :: rest else (o, [b]) :: (o2, bs) :: rest
    | [] => [(o, [b])]

/-- The WRITE packets of a run for another package, each within one 128-byte block. -/
def wainSend (s : State) (b : Burst) (l ep vc addr : Nat) (bs : List (Option Byte)) : State :=
  let d := b.desc
  let p := partOfChan b.chan
  (writtenRuns 0 bs).foldl (fun s r =>
    let h : Hdr := { op := 1, vc := vc, route := if vc == 2 then wRoute d else 0, via := if vc == 2 then wVia d else 0,
                     dcc := wDccEn d, cc := if wDccEn d then wDcc d else 0, addr := addr + r.1, operand := r.2.length }
    match sendReq s (epOfEng (engOfChan b.chan)) p .write l ep h r.2 r.2.length (.wainWrite b.chan b.index) (fabTimeout s p) with
    | none => s
    | some (s1, q) => setWork s1 b.chan { workOf s1 b.chan with writes := (workOf s1 b.chan).writes ++ [(q, b.index)] }) s

/-- A failed write of a channel (R133): a fenced endpoint halts it; any other is reported by one FENCE. -/
def wainWriteFail (s : State) (ch index cause : Nat) : State :=
  if cause == 5 then wainHalt s ch 5 0 (some index)
  else setWork s ch { workOf s ch with fails := (workOf s ch).fails ++ [cause] }

/-- One run of a burst is written, unless an element of its 128-byte block could not be read (R133). -/
def wainWriteRun (s : State) (b : Burst) (elems : List (Option (List Byte))) (a : Int) (i n : Nat) (mi : MemIn) : State :=
  let d := b.desc
  let xs := (elems.drop i).take n
  if xs.any (·.isNone) then s
  else
    let bs := xs.flatMap (fun x => wainPack d (x.getD []))
    let dcc := (bs.filter (·.isSome)).length
    let l := (b.first + i) / max 1 (wDstPer d)
    match wainDst s b.chan d a bs.length with
    | .spad tile off =>
      let s1 := { s with mem := spadPutSome s.mem (spadBytes * tile + off) (keepOverlap s d l a.toNat bs) }
      if wDccEn d then ccAdd s1 (partOfTile tile) (wDcc d) dcc else s1
    | .mem ma =>
      let (s1, bad) := maWriteSome s (dieOfPart (partOfChan b.chan)) ma (keepOverlap s d l a.toNat bs) mi
      if !bad.isEmpty then wainWriteFail s1 b.chan b.index 1
      else if wDccEn d then ccAdd s1 (ma / 2 ^ 38) (wDcc d) dcc else s1
    | .far lp ep vc addr => wainSend s b lp ep vc addr bs
    | .refused c => wainWriteFail s b.chan b.index c

/-- The memory a burst is written to can be served now, and SEQ values are free. -/
def burstWriteReady (s : State) (b : Burst) : Bool :=
  (burstWrites b).all (fun r =>
    match wainDst s b.chan b.desc r.1 (r.2.2 * wDstE b.desc) with
    | .mem ma => rangeReady s ma (r.2.2 * wDstE b.desc)
    | _ => true) && seqRoom s (epOfEng (engOfChan b.chan)) (b.count + (burstWrites b).length)

/-- WAIN_BURST_WRITE (R121, R126 to R128): the burst that became complete first is written, and its slot is free. -/
def execWainBurstWrite (t e : Nat) (mi : MemIn) (s : State) : Out :=
  run t s fun s =>
    let g := wainOf s e
    match g.full with
    | [] => s
    | b :: r => gate (engLive s e && burstWriteReady s b) (fun s =>
        let w := workOf s b.chan
        let s1 := setWork (setWain s e { g with full := r }) b.chan { w with
          progress := true,
          work := w.work.map (fun x => if x.index == b.index then { x with written := x.written + b.count } else x) }
        let elems := burstElems b
        let s2 := (burstWrites b).foldl (fun s x => wainWriteRun s b elems x.1 x.2.1 x.2.2 mi) s1
        s2.drawn) s

/-! ## Completion and failure (R131 to R133) -/

/-- The descriptor at a channel's head completes: it signals, and DONE counts it. -/
def wainComplete (s : State) (ch : Nat) (w : WainWork) : State :=
  let k := workOf s ch
  let c := chanOf s ch
  let s1 := setChan (setWork s ch { k with work := k.work.drop 1, progress := true }) ch { c with done := (c.done + 1) % 2 ^ 32 }
  if dSigEn w.desc then ccAdd s1 (partOfChan ch) (dSigCc w.desc) 1 else s1

/-- The wait of a channel's head holds. -/
def headWait (s : State) (ch : Nat) (w : WainWork) : Bool :=
  !dWaitEn w.desc || ccReached s (partOfChan ch) (dWaitCc w.desc) (dWaitVal w.desc)

/-- WAIN_COPY (R126, R132): the last write has left the write port. -/
def execWainCopy (t ch : Nat) (s : State) : Out :=
  run t s fun s =>
    match (workOf s ch).work with
    | [] => s
    | w :: _ => gate (engLive s (engOfChan ch) && wOp w.desc == 1 && w.written == wCount w.desc && headWait s ch w &&
          (chanOf s ch).enable && !(chanOf s ch).halted)
        (fun s => wainComplete s ch w) s

/-- WAIN_FENCE (R132, R133): every write of every earlier COPY is acknowledged; failures no FENCE has reported halt the
channel with the earliest, and are reported by this FENCE. -/
def execWainFence (t ch : Nat) (s : State) : Out :=
  run t s fun s =>
    let k := workOf s ch
    match k.work with
    | [] => s
    | w :: _ => gate (engLive s (engOfChan ch) && wOp w.desc == 2 && headWait s ch w && (chanOf s ch).enable &&
          !(chanOf s ch).halted) (fun s =>
        match k.fails with
        | x :: _ => wainHalt (setWork s ch { k with fails := [] }) ch x 0 (some w.index)
        | [] => if k.writes.isEmpty && slotsOf (wainOf s (engOfChan ch)) ch == 0 then wainComplete s ch w else s) s

/-- A read of a burst came to nothing: its elements are not written, and the channel halts (R133). -/
def burstReadFail (s : State) (ch index first k cause : Nat) : State :=
  let e := engOfChan ch
  let g := wainOf s e
  match g.bursts.find? (fun b => b.chan == ch && b.index == index && b.first == first) with
  | none => s
  | some b =>
    let s1 := setWain s e { g with bursts := g.bursts.filter (· != b) }
    wainHalt (placeBurst s1 { b with waits := b.waits.filter (· != k), failed := b.failed ++ [k] }) ch cause 0 (some index)

/-- A read of a burst is answered. -/
def burstReadDone (s : State) (ch index first k : Nat) (bs : List Byte) : State :=
  let e := engOfChan ch
  let g := wainOf s e
  match g.bursts.find? (fun b => b.chan == ch && b.index == index && b.first == first) with
  | none => s
  | some b =>
    let s1 := setWain s e { g with bursts := g.bursts.filter (· != b) }
    placeBurst s1 { b with waits := b.waits.filter (· != k), parts := mset b.parts k bs }

/-- A write of a channel is no longer outstanding. -/
def wainWriteGone (s : State) (ch q : Nat) : State :=
  let w := workOf s ch
  setWork s ch { w with writes := w.writes.filter (fun x => x.1 != q), progress := true }

/-- A write of a channel times out: the FENCE at the head halts the channel; without one, a later FENCE reports it. -/
def wainWriteTimeout (s : State) (ch q : Nat) : State :=
  let s1 := wainWriteGone s ch q
  match (workOf s1 ch).work with
  | w :: _ => if wOp w.desc == 2 && headWait s1 ch w then wainHalt s1 ch 4 0 (some w.index)
              else setWork s1 ch { workOf s1 ch with fails := (workOf s1 ch).fails ++ [4] }
  | [] => setWork s1 ch { workOf s1 ch with fails := (workOf s1 ch).fails ++ [4] }

/-- WAIN_TIMEOUT (R133): a read of a burst, or a write that the FENCE at the head waits for, passes the fabric timeout. -/
def execWainTimeout (t e q : Nat) (s : State) : Out :=
  run t s fun s =>
    match findReq s (epOfEng e) q with
    | none => s
    | some r => gate (injected s r && decide (r.at_ + r.limit ≤ s.now)) (fun s =>
        match r.owner with
        | .wainRead ch index first k => burstReadFail (timeoutReq s r) ch index first k 4
        | .wainWrite ch _ =>
          match (workOf s ch).work with
          | w :: _ => if wOp w.desc == 2 && headWait s ch w then wainWriteTimeout (timeoutReq s r) ch q else s
          | [] => s
        | _ => s) s

end Sys2Proof.Machine
end

