-- ==== Sys2Proof/Machine/Collectives.lean ====
section
/-!
DEFINITION. Machine/Collectives.lean: collective channels, launches, collective packets, completion and failure (11), and
stream-out into a collective (04 R112).
-/
namespace Sys2Proof.Machine

/-! ## Channels (R277 to R279) -/

def collChan (s : State) (ch : Nat) : Chan := mget {} s.coll.chans ch
def setCollChan (s : State) (ch : Nat) (v : Chan) : State := { s with coll := { s.coll with chans := mset s.coll.chans ch v } }

/-- Partition of a collective channel, 16 * partition + channel. -/
def partOfColl (ch : Nat) : Nat := ch / 16

/-- The partition's rings work. -/
def partLive (s : State) (p : Nat) : Bool :=
  decide (p < 4) && pkgU s && !refusing s p && pstate s p != .dormant && !s.heat.stopped && !s.boot.poweredOff

/-- A halt, as 05 R133 has it for a Wain channel. -/
def collHalt (s : State) (ch cause reason : Nat) : State :=
  let c := collChan s ch
  let s1 := { s with coll := { s.coll with heads := mdel s.coll.heads ch } }
  firePart (if c.halted then s1 else setCollChan s1 ch { c with halted := true, errCause := cause, errReason := reason })
    (partOfColl ch) 4

/-- A code of reason 2. -/
def collCodeBad (d : Nat) : Bool :=
  let k := kKind d
  k != 7 && (4 < kIn d || 4 < kOut d || kRed d == 3 || (!reduces d && kIn d != kOut d) ||
    (!kStream d && kSrcSpace d != 1 && kSrcSpace d != 3) || (kDstSpace d != 1 && kDstSpace d != 3))

/-- Reason 3. -/
def collAlignBad (d : Nat) : Bool :=
  (kRecEn d && kRec d % 16 != 0) ||
  (kKind d != 7 && ((!kStream d && kSrc d % max 1 (inSize d) != 0) || kDst d % max 1 (outSize d) != 0 ||
    (reduces d && kFall d % 128 != 0)))

/-- Rejection reason of a collective descriptor (Table 11-3). -/
def collReason (s : State) (part d : Nat) : Option Nat :=
  let k := kKind d
  let g := groupOfPart s (kJob d) (kGroup d) part
  let m := (g.map (·.members.length)).getD 0
  reasons [
    (k == 0 || 7 < k, 1),
    (collCodeBad d, 2),
    (collAlignBad d, 3),
    (g.isNone, 4),
    (match g with
     | none => false
     | some x => (openOf s (kJob d) (kGroup d) part (kSeq d)).isSome || x.waiting.any (fun e => kSeq e == kSeq d) ||
         x.closed.any (fun e => e.1 == kSeq d && decide (s.now < e.2 + 3000000)), 5),
    ((k == 5 || k == 6) && m ≤ kRoot d, 6),
    (kStream d && (kBushel d || !reduces d || 2 ^ 32 < kCount d * inSize d), 7)]

/-- Extents of a descriptor for rank `r` of `m` (Table 11-5): targets with what they refuse. -/
def collExtents (s : State) (part d m r : Nat) : List Tgt :=
  let k := kKind d
  let n := kCount d
  let src := if kStream d then 0 else
    match k with
    | 4 => m * n | 5 => if r == kRoot d then n else 0 | 7 => 0
    | _ => n
  let dst := match k with
    | 2 => (shardOf d m r).2 | 6 => if r == kRoot d then n else 0 | 3 | 4 => m * n | 7 => 0
    | _ => n
  let fall := if reduces d then nChunks d m r * 65536 else 0
  (if src == 0 then [] else [collSrc s part d 0 (src * inSize d)]) ++
  (if dst == 0 then [] else [collDst s part d 0 (dst * outSize d)]) ++
  (if fall == 0 then [] else [memTgt s part true (ownLpkg s) 2 (kFall d) fall]) ++
  (if kRecEn d then [memTgt s part true (ownLpkg s) 2 (kRec d) 16] else [])

/-- A descriptor of a channel is handed to its group, or completes at once for a COUNT of 0; it stays while its wait does not
hold or its group has four collectives (R277, R279). -/
def handOver (s : State) (ch d : Nat) : State :=
  let p := partOfColl ch
  let c := collChan s ch
  let gone : State → State := fun s =>
    setCollChan { s with coll := { s.coll with heads := mdel s.coll.heads ch } } ch { c with done := (c.done + 1) % 2 ^ 32 }
  if dWaitEn d && !ccReached s p (dWaitCc d) (dWaitVal d) then s
  else if kKind d != 7 && kCount d == 0 then
    let s1 := gone s
    if dSigEn d then ccAdd s1 p (dSigCc d) 1 else s1
  else
    match groupOfPart s (kJob d) (kGroup d) p with
    | none => collHalt s ch 6 4
    | some g =>
      let open_ := (s.coll.opens.filter (fun o => o.job == g.job && o.group == g.group && o.part == p)).length
      if 4 ≤ open_ + g.waiting.length then s
      else gone (updGroup s { g with waiting := g.waiting ++ [d] })

/-- A fetched descriptor is checked (R278, R279), and handed over where it can be. -/
def collCheck (s : State) (ch d index : Nat) : State :=
  let p := partOfColl ch
  match collReason s p d with
  | some r => collHalt s ch 6 r
  | none =>
    let g := groupOfPart s (kJob d) (kGroup d) p
    let m := (g.map (·.members.length)).getD 1
    let r := (g.map (·.rank)).getD 0
    let bad := if kKind d != 7 && kCount d == 0 then none else (collExtents s p d m r).findSome? tgtCause
    match bad with
    | some c => collHalt s ch c 0
    | none => handOver { s with coll := { s.coll with heads := mset s.coll.heads ch (d, index) } } ch d

/-- COLL_CHANNEL_FETCH (R277 to R279). -/
def execCollChannelFetch (t ch : Nat) (mi : MemIn) (si : SpadIn) (s : State) : Out :=
  run t s fun s =>
    let c := collChan s ch
    let p := partOfColl ch
    match mfind s.coll.heads ch with
    | some (d, _) => gate (partLive s p && c.enable && !c.halted) (fun s => handOver s ch d) s
    | none =>
      let i := c.head % c.ringEntries
      gate (partLive s p && doorbellAhead s p c && ringReady s p c i) (fun s =>
        match ringRead s p 2 c i mi si with
        | (s1, none) => collHalt s1 ch 7 0
        | (s1, some d) => collCheck (setCollChan s1 ch { c with head := (c.head + 1) % 2 ^ 32 }) ch d c.head) s

/-! ## Launch (R281, R282, R285) -/

/-- Slots of a stripe are reserved, all or none (R285). -/
def reserveStripe (s : State) (o : OpenColl) (t : Nat) : State × OpenColl :=
  let n := (stripeChunks o.desc o.m o.rank t).length
  let used := mget 0 s.coll.charged o.part
  if used + n ≤ cfg s 0x58 o.part && n ≤ s.coll.slotsFree then
    let free := s.coll.slotsFree - n
    ({ s with coll := { s.coll with slotsFree := free, slotsMin := min s.coll.slotsMin free, charged := mset s.coll.charged o.part (used + n) } },
     { o with slots := mset o.slots t n })
  else (s, { o with gleaner := o.gleaner ++ [t] })

/-- Every stripe of the own shard gets its slots or the Gleaner mode. -/
def reserveAll (s : State) (o : OpenColl) : State × OpenColl :=
  if reduces o.desc then (List.range (nStripes o.desc o.m o.rank)).foldl (fun a t => reserveStripe a.1 a.2 t) (s, o) else (s, o)

/-- The fallback chunks of Gleaner-mode stripes are zeroed (R286). -/
def zeroFallback (s : State) (o : OpenColl) (mi : MemIn) : State :=
  (o.gleaner.flatMap (stripeChunks o.desc o.m o.rank)).foldl (fun s c =>
    (maWrite s (glnSide s (fallbackAt o.desc c)) (fallbackAt o.desc c) (List.replicate 65536 0) mi).1) s

/-- A COLL_READY applies: a signature that differs fails the collective (R281). -/
def CollRun.ready (r : CollRun) (from_ sig : Nat) : CollRun :=
  if r.fail.isSome || r.o.ready.contains from_ then r
  else if sig != signature r.o.desc then { r with fail := some (7, from_) }
  else { r with o := { r.o with ready := r.o.ready ++ [from_] } }

/-- The lag of a packet that was awaited (R298). -/
def CollRun.lag (r : CollRun) (from_ : Nat) : CollRun :=
  { r with o := { r.o with lagRank := some from_, lagNs := r.st.now - r.o.launchAt, waitFrom := r.st.now } }

/-- Pending entries of the sequence apply at launch (R282, R300). -/
def CollRun.pending (r : CollRun) : CollRun :=
  match mfind r.g.pend r.o.seq with
  | none => r
  | some e =>
    let g := { r.g with pend := mdel r.g.pend r.o.seq }
    let r1 := { r with g := g, st := updGroup r.st g, o := { r.o with arrived := e.arrive } }
    let r2 := e.ready.foldl (fun r x => r.ready x.1 x.2) r1
    match e.fail with
    | some k => if r2.fail.isSome then r2 else { r2 with fail := some (8, k) }
    | none => r2

/-- A launch of kind `kind`: the oldest descriptor the group's queue holds. -/
def launchColl (kind t job group part : Nat) (mi : MemIn) (si : SpadIn) (s : State) : Out :=
  run t s fun s =>
    match groupOfPart s job group part with
    | none => s
    | some g =>
      match g.waiting with
      | [] => s
      | d :: rest =>
        let ready := (collExtents s part d g.members.length g.rank).all (fun x => match x with | .mem a => lineReady s a | _ => true)
        gate (partLive s part && kKind d == kind && ready) (fun s =>
          let o0 : OpenColl := { part := part, job := job, group := group, seq := kSeq d, desc := d, rank := g.rank,
                                 m := g.members.length, launchAt := s.now, waitFrom := s.now, timeoutNs := 1000 * g.timeoutUs,
                                 lagRank := some g.rank }
          let (s1, o1) := reserveAll s o0
          let s2 := zeroFallback s1 o1 mi
          let g1 := { g with
            waiting := rest, granary := satAdd max32 g.granary o1.slots.length, gleaner := satAdd max16 g.gleaner o1.gleaner.length }
          let s3 := updGroup s2 g1
          let s4 := (readyTo d g1).foldl (fun s k => collSend s g1 o1.seq k 0x10 0 0 0 (signature d) []) s3
          let s5 := if kind == 7 then (otherRanks g1).foldl (fun s k => collSend s g1 o1.seq k 0x15 0 0 0 0 []) s4 else s4
          let s6 := { s5 with coll := { s5.coll with opens := s5.coll.opens ++ [o1] } }
          collSettle ((({ st := s6, o := o1, g := g1 } : CollRun).pending).pump mi si) mi) s

/-- COLL_ALL_REDUCE (R288). -/
def execCollAllReduce (t job group part : Nat) (mi : MemIn) (si : SpadIn) (s : State) : Out := launchColl 1 t job group part mi si s
/-- COLL_REDUCE_SCATTER (R289). -/
def execCollReduceScatter (t job group part : Nat) (mi : MemIn) (si : SpadIn) (s : State) : Out := launchColl 2 t job group part mi si s
/-- COLL_ALL_GATHER (R289). -/
def execCollAllGather (t job group part : Nat) (mi : MemIn) (si : SpadIn) (s : State) : Out := launchColl 3 t job group part mi si s
/-- COLL_ALL_TO_ALL (R289). -/
def execCollAllToAll (t job group part : Nat) (mi : MemIn) (si : SpadIn) (s : State) : Out := launchColl 4 t job group part mi si s
/-- COLL_BROADCAST (R289). -/
def execCollBroadcast (t job group part : Nat) (mi : MemIn) (si : SpadIn) (s : State) : Out := launchColl 5 t job group part mi si s
/-- COLL_REDUCE (R289). -/
def execCollReduce (t job group part : Nat) (mi : MemIn) (si : SpadIn) (s : State) : Out := launchColl 6 t job group part mi si s
/-- COLL_BARRIER (R289). -/
def execCollBarrier (t job group part : Nat) (mi : MemIn) (si : SpadIn) (s : State) : Out := launchColl 7 t job group part mi si s

/-! ## Packets (R273, R282, R283, R301, R302) -/

/-- COLL_UNKNOWN counts one. -/
def collUnknown (s : State) : State := { s with coll := { s.coll with unknown := satAdd max32 s.coll.unknown 1 } }

/-- Rank and byte offset in a collective packet's ADDR. -/
def hRank (h : Nat) : Nat := hAddr h / 2 ^ 42
def hOff (h : Nat) : Nat := hAddr h % 2 ^ 42

/-- A sequence of the group failed less than 3 ms ago. -/
def closedNow (s : State) (g : Group) (seq : Nat) : Bool := g.closed.any (fun e => e.1 == seq && decide (s.now < e.2 + 3000000))

/-- Something for a sequence not yet open is held, where the table has room (R282). -/
def pendPut (s : State) (g : Group) (seq : Nat) (f : PendEntry → PendEntry) : State :=
  if (mfind g.pend seq).isSome || g.pend.length < 16 then updGroup s { g with pend := mupd {} g.pend seq f }
  else { s with coll := { s.coll with readyDrops := satAdd max16 s.coll.readyDrops 1 } }

/-- A collective packet reaches the local member of rank `rk` (log 24): `onOpen` handles it for an open collective, `early` for
one not yet open. -/
def collPacket (s : State) (h rk : Nat) (early : State → Group → State) (onOpen : CollRun → CollRun) (mi : MemIn) : State :=
  match groupOfRank s (hJob h) (hGroup h) rk with
  | none => collUnknown s
  | some g =>
    match g.members[hRank h]? with
    | none => collUnknown s
    | some (l, _) =>
      if l != hSrcEid h / 1024 || hRank h == rk then collUnknown s
      else if refusing s g.part then s
      else
        match openOf s g.job g.group g.part (hSeq h) with
        | some o => collSettle (onOpen { st := s, o := o, g := g }) mi
        | none => if closedNow s g (hSeq h) then lateCount s g.part else early s g

/-- The packet first on a lane names a collective whose memory can be served now. -/
def collLaneReady (s : State) (n rk : Nat) : Bool :=
  match laneHead s n with
  | none => false
  | some p =>
    match groupOfRank s (hJob p.hdr) (hGroup p.hdr) rk with
    | none => true
    | some g =>
      match openOf s g.job g.group g.part (hSeq p.hdr) with
      | none => true
      | some o => (collExtents s g.part o.desc o.m o.rank).all (fun x => match x with | .mem a => lineReady s a | _ => true)

/-- A collective packet of opcode `op` that is first on lane `n`. -/
def collRecv (op : Nat) (early : Nat → List Byte → State → Group → State) (onOpen : Nat → List Byte → CollRun → CollRun)
    (t n : Nat) (opened : Option (List Byte)) (rk : Nat) (mi : MemIn) (s : State) : Out :=
  run t s fun s => gate (collLaneReady s n rk) (fun s =>
    recvPkt s n op opened (fun s h pay => collPacket s h rk (early h pay) (onOpen h pay) mi)) s

/-- A packet of no use to the member is discarded (R283). -/
def dropEarly : Nat → List Byte → State → Group → State := fun _ _ s _ => collUnknown s

/-- COLL_READY (R281, R282). -/
def execCollReady (t n : Nat) (opened : Option (List Byte)) (rk : Nat) (mi : MemIn) (si : SpadIn) (s : State) : Out :=
  collRecv 0x10
    (fun h _ s g => pendPut s g (hSeq h) (fun e =>
      if e.ready.any (fun x => x.1 == hRank h) then e else { e with ready := e.ready ++ [(hRank h, hOperand h)] }))
    (fun h _ r =>
      if (readyNeeded r.o.desc r.g).contains (hRank h) || hOperand h != signature r.o.desc then
        ((r.ready (hRank h) (hOperand h)).lag (hRank h)).pump mi si
      else r)
    t n opened rk mi s

/-- Signed 16-bit exponents of a payload. -/
def expList (pay : List Byte) (n : Nat) : List Nat := (List.range n).map (fun i => leNat ((pay.drop (2 * i)).take 2))

/-- COLL_EXP (R291): the owner takes a member's exponents for a stripe. -/
def execCollExp (t n : Nat) (opened : Option (List Byte)) (rk : Nat) (mi : MemIn) (si : SpadIn) (s : State) : Out :=
  collRecv 0x11 dropEarly
    (fun h pay r =>
      let tt := hOff h / 16
      if bushelSum r.o.desc && tt < nStripes r.o.desc r.o.m r.o.rank then
        ({ r with o := { r.o with
            exps := mset r.o.exps (64 * tt + hRank h) (expList pay (min 16 (hOperand h))), waitFrom := r.st.now } }).pump mi si
      else r)
    t n opened rk mi s

/-- COLL_AGREED (R291): the exponents that the owner has agreed. -/
def execCollAgreed (t n : Nat) (opened : Option (List Byte)) (rk : Nat) (mi : MemIn) (si : SpadIn) (s : State) : Out :=
  collRecv 0x12 dropEarly
    (fun h pay r =>
      if bushelSum r.o.desc then
        ({ r with o := { r.o with
            agreed := (expList pay (min 16 (hOperand h))).zipIdx.foldl (fun (m : SMap Nat) (e : Nat × Nat) => mset m (2 ^ 32 * hRank h + hOff h + e.2) e.1) r.o.agreed,
            waitFrom := r.st.now } }).pump mi si
      else r)
    t n opened rk mi s

/-- COLL_CONTRIB (R284, R290 to R292): elements of one chunk of the own shard. -/
def execCollContrib (t n : Nat) (opened : Option (List Byte)) (rk : Nat) (mi : MemIn) (s : State) : Out :=
  collRecv 0x13 dropEarly
    (fun h pay r =>
      let d := r.o.desc
      let (a, len) := shardOf d r.o.m r.o.rank
      let e := hOff h / inSize d
      if !reduces d || e < a || a + len ≤ e || hOff h % inSize d != 0 then r
      else
        let c := (e - a) / chunkLen d
        let (ca, cn) := chunkOf d r.o.m r.o.rank c
        let bytes := min pay.length ((ca + cn) * inSize d - hOff h)
        ({ r with o := { r.o with waitFrom := r.st.now } }).contribute (hRank h) (hOff h) (pay.take bytes) mi)
    t n opened rk mi s

/-- End of the run of DST that a result packet's offset lies in: a chunk's, or a block's (R283). -/
def resultEnd (o : OpenColl) (from_ off : Nat) : Nat :=
  let d := o.desc
  if kKind d == 1 then
    let (a, len) := shardOf d o.m from_
    let c := (off / outSize d - a) / chunkLen d
    (min (a + (c + 1) * chunkLen d) (a + len)) * outSize d
  else if kKind d == 5 then kCount d * inSize d
  else (from_ + 1) * kCount d * inSize d

/-- COLL_RESULT (R294): written into DST and counted. -/
def execCollResult (t n : Nat) (opened : Option (List Byte)) (rk : Nat) (mi : MemIn) (s : State) : Out :=
  collRecv 0x14 dropEarly
    (fun h pay r =>
      let bytes := min pay.length (resultEnd r.o (hRank h) (hOff h) - hOff h)
      let r1 := { r with o := { r.o with
        flags := r.o.flags ||| BitVec.ofNat 8 (hOperand h), waitFrom := r.st.now,
        resultFrom := mupd 0 r.o.resultFrom (hRank h) (· + bytes) } }
      r1.write (hOff h) (pay.take bytes) mi)
    t n opened rk mi s

/-- COLL_ARRIVE (R282, R289). -/
def execCollArrive (t n : Nat) (opened : Option (List Byte)) (rk : Nat) (mi : MemIn) (s : State) : Out :=
  collRecv 0x15
    (fun h _ s g => pendPut s g (hSeq h) (fun e => if e.arrive.contains (hRank h) then e else { e with arrive := e.arrive ++ [hRank h] }))
    (fun h _ r =>
      if kKind r.o.desc == 7 && !r.o.arrived.contains (hRank h) then
        ({ r with o := { r.o with arrived := r.o.arrived ++ [hRank h] } }).lag (hRank h)
      else r)
    t n opened rk mi s

/-- COLL_FAIL (R300): the open collective fails with PEER_FAILED. -/
def execCollFail (t n : Nat) (opened : Option (List Byte)) (rk : Nat) (mi : MemIn) (s : State) : Out :=
  collRecv 0x16
    (fun h _ s g => pendPut s g (hSeq h) (fun e => { e with fail := some (bits (hOperand h) 4 6) }))
    (fun h _ r => { r with fail := some (8, bits (hOperand h) 4 6) })
    t n opened rk mi s

/-! ## Completion, timeout (R293, R294, R299) -/

/-- A step on an open collective. -/
def onColl (t job group part seq : Nat) (c : State → OpenColl → Group → Bool) (f : State → OpenColl → Group → State)
    (s : State) : Out :=
  run t s fun s =>
    match openOf s job group part seq, groupOfPart s job group part with
    | some o, some g => gate (c s o g) (fun s => f s o g) s
    | _, _ => s

/-- CHUNK_COMPLETE (R293): every contribution of a chunk of the own shard is counted; it is converted, and sent. -/
def execChunkComplete (t job group part seq c : Nat) (mi : MemIn) (si : SpadIn) (s : State) : Out :=
  onColl t job group part seq
    (fun _ o _ => reduces o.desc && decide (c < nChunks o.desc o.m o.rank) && chunkFull o c && (mget {} o.chunks c : Chunk).out.isNone)
    (fun s o g => collSettle ((({ st := s, o := o, g := g } : CollRun).convert c mi).pump mi si) mi) s

/-- Bytes of DST a member is to receive (Table 11-5). -/
def dstBytes (o : OpenColl) : Nat :=
  let d := o.desc
  match kKind d with
  | 1 => kCount d * outSize d
  | 2 => (shardOf d o.m o.rank).2 * outSize d
  | 6 => if o.rank == kRoot d then kCount d * outSize d else 0
  | 3 | 4 => o.m * kCount d * outSize d
  | 5 => kCount d * outSize d
  | _ => 0

/-- Every data packet of the member has left. -/
def allSent (o : OpenColl) : Bool :=
  let d := o.desc
  (if reduces d then
    (if kStream d then decide (kCount d * inSize d ≤ o.streamed)
     else (owners d o.m).all (fun j => (List.range (nChunks d o.m j)).all (fun c => o.sentData.contains (2 ^ 32 * j + c)))) &&
    (List.range (nChunks d o.m o.rank)).all (fun c => (resultRanks o).all (fun q => o.sentRes.contains (2 ^ 32 * q + c)))
   else (plainSends o).all (fun e => o.sentData.contains e.1))

/-- The member's part is complete (Table 11-8). -/
def collDone (o : OpenColl) (g : Group) : Bool :=
  if kKind o.desc == 7 then (otherRanks g).all (o.arrived.contains ·) else allSent o && dstBytes o ≤ o.written

/-- COLL_COMPLETE (R294, R295, R298). -/
def execCollComplete (t job group part seq : Nat) (mi : MemIn) (s : State) : Out :=
  onColl t job group part seq (fun _ o g => collDone o g)
    (fun s o g =>
      let k := o.lagRank.getD g.rank
      let s1 := thresherProgress (writeCollRecord (closeColl s o) o 0 0 mi) group
      let g1 := { g with
        lastSeq := o.seq, lastRank := k, lagNs := min o.lagNs max32, maxLag := max g.maxLag (min o.lagNs max32),
        completed := satAdd max32 g.completed 1, lastCount := mupd 0 g.lastCount k (fun c => satAdd max16 c 1) }
      let s2 := updGroup s1 g1
      if dSigEn o.desc then ccAdd s2 o.part (dSigCc o.desc) 1 else s2) s

/-- Contribution elements, and result bytes, that rank `k` owes the member. -/
def owes (o : OpenColl) (k : Nat) : Bool :=
  let d := o.desc
  let mine := (shardOf d o.m o.rank).2
  (reduces d && decide (mget 0 o.contribFrom k < mine)) ||
  (match kKind d with
   | 1 => decide (mget 0 o.resultFrom k < (shardOf d o.m k).2 * outSize d)
   | 3 | 4 => decide (mget 0 o.resultFrom k < kCount d * outSize d)
   | 5 => k == kRoot d && decide (mget 0 o.resultFrom k < kCount d * outSize d)
   | _ => false)

/-- Ranks from which a packet the member needs is missing, in increasing order. -/
def missingRanks (o : OpenColl) (g : Group) : List Nat :=
  (otherRanks g).filter (fun k =>
    (if kKind o.desc == 7 then !o.arrived.contains k else (readyNeeded o.desc g).contains k && !o.ready.contains k) || owes o k)

/-- COLL_TIMEOUT (R299). -/
def execCollTimeout (t job group part seq : Nat) (mi : MemIn) (s : State) : Out :=
  onColl t job group part seq (fun s o g => decide (o.waitFrom + o.timeoutNs ≤ s.now) && (missingRanks o g != []))
    (fun s o g => collFail s o 6 ((missingRanks o g).headD 0) mi) s

/-- A Thresher serves an open collective: the group's control packets, or a stripe of the own shard (R275). -/
def servedBy (o : OpenColl) (th : Nat) : Bool :=
  o.group % 8 == th || (reduces o.desc && (List.range (nStripes o.desc o.m o.rank)).any (fun t => (o.group + t) % 8 == th))

/-- THRESHER_RESTART (20 R465): a stalled Thresher's open collectives fail with TIMEOUT, and the restart is logged. -/
def execThresherRestart (t th : Nat) (mi : MemIn) (s : State) : Out :=
  run t s fun s => gate (decide (th < 8) && decide (16 ≤ mget 0 s.coll.idle th) && serving s) (fun s =>
    let os := s.coll.opens.filter (fun o => servedBy o th)
    let s1 := os.foldl (fun s o => collFail s o 6 (((groupOfPart s o.job o.group o.part).bind (fun g => (missingRanks o g).head?)).getD 0) mi) s
    let s2 := { s1 with coll := { s1.coll with idle := mdel s1.coll.idle th } }
    faultLog s2 0x13 4 [th, os.length]) s

/-! ## Stream-out (04 R112, R296) -/

/-- The collective a stream-out block goes to, where the Threshers accept the block: open with SRC_STREAM, and COLL_READY in
from every owner whose shard it touches. -/
def streamColl (s : State) (c : Nat) (j : Issued) (off : Nat) : Option (OpenColl × Group) :=
  let d := j.desc
  let p := partOfCore c
  match openOf s (oJob d) (oGroup d) p (oSeq d), groupOfPart s (oJob d) (oGroup d) p with
  | some o, some g =>
    let k := o.desc
    let e0 := off / max 1 (inSize k)
    let e1 := (off + oBlock d + inSize k - 1) / max 1 (inSize k)
    let touched := (owners k o.m).filter (fun r => let (a, n) := shardOf k o.m r; a < e1 && e0 < a + n)
    if kStream k && touched.all (mayData o) then some (o, g) else none
  | _, _ => none

/-- Parts of a byte range by the chunk they lie in: (owner, chunk, offset in the vector, bytes). -/
def chunkParts (d m off n : Nat) : List (Nat × Nat × Nat × Nat) :=
  (owners d m).flatMap (fun j => (List.range (nChunks d m j)).filterMap (fun c =>
    let (a, k) := chunkOf d m j c
    let lo := max off (a * inSize d)
    let hi := min (off + n) ((a + k) * inSize d)
    if lo < hi then some (j, c, lo, hi - lo) else none))

/-- A block joins the collective (R296). -/
def streamBlock (s : State) (o : OpenColl) (g : Group) (off : Nat) (bs : List Byte) (mi : MemIn) : State :=
  let r0 : CollRun := { st := s, o := { o with streamed := o.streamed + bs.length }, g := g }
  collSettle ((chunkParts o.desc o.m off bs.length).foldl (fun r x =>
    r.toOwner x.1 x.2.1 x.2.2.1 ((bs.drop (x.2.2.1 - off)).take x.2.2.2) mi) r0) mi

/-- STREAM_OUT_BLOCK_SEND (04 R112, R296): the next eligible block of a stream-out leaves its tile; an uncorrectable word ends
the descriptor. -/
def execStreamOutBlockSend (t c index : Nat) (mi : MemIn) (si : SpadIn) (s : State) : Out :=
  run t s fun s =>
    match jobOf s c 5 index with
    | none => s
    | some j => gate (coreLive s c && j.fail.isNone && oBlock j.desc != 0 && blockEligible s c j) (fun s =>
        let d := j.desc
        let i := tileOfCore c
        let n := oBlock d
        let at_ := oSrc d + j.sent * n
        let sent : State → State := fun s => setJob s 5 { j with sent := j.sent + 1 }
        let s1 := eccCount s i si
        if badIn si at_ n then failJob s1 5 j 1
        else
          let bs := spadRead s1 i at_ n
          if oTarget d == 1 then
            match putTgt s c j with
            | .refused x => failJob s1 5 j x
            | .mem ma => gate (rangeReady s ma n) (fun _ => sent (putBlock s1 c j bs mi)) s
            | _ => gate (seqRoom s i (n / 256 + 1)) (fun _ => sent (putBlock s1 c j bs mi)) s
          else
            let off := oOffset d + j.sent * n
            match streamColl s c j off with
            | none => s
            | some (o, g) =>
              if kCount o.desc * inSize o.desc < off + n then failJob s1 5 j 2
              else sent (streamBlock s1 o g off bs mi)) s

end Sys2Proof.Machine
end

