-- ==== Sys2Proof/Machine/Ethernet.lean ====
section
/-!
DEFINITION. Machine/Ethernet.lean: the Ethernet ports, the QPs, their work requests and the memory regions (12 R313 to
R321), and the commands that set them up (15 Tables 15-7 and 15-8).
-/
namespace Sys2Proof.Machine

/-! ## Ports, QPs, regions by number -/

def portOf (s : State) (p : Nat) : EthPort := mget {} s.eth.ports p
def setPort (s : State) (p : Nat) (v : EthPort) : State := { s with eth := { s.eth with ports := mset s.eth.ports p v } }
def qpOf (s : State) (q : Nat) : Option Qp := mfind s.eth.qps q
def setQp (s : State) (q : Nat) (v : Qp) : State := { s with eth := { s.eth with qps := mset s.eth.qps q v } }
def gidOf (s : State) (port i : Nat) : Gid := mget {} s.eth.gids (16 * port + i)

/-- Where a QP is present, its change; else nothing. -/
def withQp (s : State) (q : Nat) (f : Qp → State) : State :=
  match qpOf s q with
  | none => s
  | some v => f v

/-! ## Fields of a work request (Table 12-4) -/

def rOp (d : Nat) : Nat := bits d 0 4
def rCqe (d : Nat) : Bool := bit d 6
def rLocal (d : Nat) : Nat := bits d 64 48
def rLen (d : Nat) : Nat := bits d 112 31
def rRemote (d : Nat) : Nat := bits d 144 64
def rKey (d : Nat) : Nat := bits d 208 32
def rImm (d : Nat) : Nat := bits d 240 32

/-- The operation brings data to local memory. -/
def rLands (d : Nat) : Bool := rOp d == 5 || rOp d == 8

/-- Packets of a message at a path MTU. -/
def packetsOf (pmtu n : Nat) : Nat := max 1 ((n + pmtu - 1) / pmtu)

/-- A port's DISCARDS count one; 16 bits, as those of a fabric port. -/
def portDiscard (s : State) (p : Nat) : State :=
  setPort s p { portOf s p with discards := satAdd max16 (portOf s p).discards 1 }

/-! ## The receive buffer and PFC (R320) -/

/-- Bytes a received frame takes. -/
def frameSize (f : EthFrame) : Nat :=
  match f with
  | .roce _ _ _ n _ => n
  | _ => 0

/-- Bytes held in a port's receive buffer. -/
def rxBytes (v : EthPort) : Nat := (v.rx.map frameSize).sum

/-- XOFF when the buffer holds 6 MiB, XON when it falls below 4 MiB, on the lossless priority. -/
def pfcCheck (s : State) (p : Nat) : State :=
  let v := portOf s p
  if !v.xoff && decide (6 * 2 ^ 20 ≤ rxBytes v) then
    (setPort s p { v with xoff := true }).emit (.ethFrame p 7 (cfg s 0x69 4) [1])
  else if v.xoff && decide (rxBytes v < 4 * 2 ^ 20) then
    (setPort s p { v with xoff := false }).emit (.ethFrame p 7 (cfg s 0x69 4) [0])
  else s

/-- The oldest RoCE frame leaves a port's receive buffer. -/
def popFrame (s : State) (p : Nat) : State := pfcCheck (setPort s p { portOf s p with rx := (portOf s p).rx.drop 1 }) p

/-- The address is one of the port's GID table. -/
def ownAddr (s : State) (p addr : Nat) : Bool := (List.range 16).any (fun i => addr != 0 && (gidOf s p i).addr == addr)

/-- ETH_FRAME_RECEIVE (R314, R320): ARP and neighbour solicitations for an own address are answered; a RoCE frame waits in
the receive buffer of 8 MiB; every other frame is discarded and counted. -/
def execEthFrameReceive (t port : Nat) (f : EthFrame) (s : State) : Out :=
  run t s fun s => gate (decide (port < 2) && (portOf s port).linkUp) (fun s =>
    match f with
    | .arp a => if ownAddr s port a then s.emit (.ethFrame port 0 a []) else portDiscard s port
    | .solicit a => if ownAddr s port a then s.emit (.ethFrame port 1 a []) else portDiscard s port
    | .roce q ce psn n m =>
      let v := portOf s port
      if 8 * 2 ^ 20 < rxBytes v + n then portDiscard s port
      else pfcCheck (setPort s port { v with rx := v.rx ++ [.roce q ce psn n m] }) port
    | .other => portDiscard s port) s

/-- PFC_PAUSE_RECEIVE (R320): a pause of `quanta` times 512 bit times at 800 Gb/s; 0 ends one. -/
def execPfcPauseReceive (t port prio quanta : Nat) (s : State) : Out :=
  run t s fun s => gate (decide (port < 2) && (portOf s port).linkUp && decide (prio < 8)) (fun s =>
    let v := portOf s port
    setPort s port { v with paused := if quanta == 0 then mdel v.paused prio
                                      else mset v.paused prio (s.now + quanta * 64 / 100) }) s

/-- ETH_LINK_UP (R313). -/
def execEthLinkUp (t port : Nat) (s : State) : Out :=
  run t s fun s => gate (decide (port < 2) && s.sess.pkg.isSome) (fun s => setPort s port { portOf s port with linkUp := true }) s

/-- ETH_LINK_DOWN (R313): frames are carried no longer, and pauses end; QPs time out under R319. -/
def execEthLinkDown (t port : Nat) (s : State) : Out :=
  run t s fun s => gate (decide (port < 2))
    (fun s => setPort s port { portOf s port with linkUp := false, paused := [], xoff := false }) s

/-- A frame of a QP leaves on its port, if the port carries frames. -/
def sendFrame (s : State) (v : Qp) (kind q : Nat) (data : List Byte) : State :=
  if (portOf s v.port).linkUp then s.emit (.ethFrame v.port kind q data) else s

/-! ## Failures of a QP (R319) -/

/-- A work request takes its end, unless it has one. -/
def QpWork.close (w : QpWork) (e : Nat × Nat × Nat) : QpWork := if w.ends.isSome then w else { w with ends := some e }

/-- The QP enters its error state: every remaining work request is to complete with FLUSHED, and the Ethernet-QP-error event
is raised to the partition. -/
def qpFail (s : State) (q : Nat) : State :=
  withQp s q fun v =>
    let v1 := { v with
      st := .error, timer := none,
      sendWork := v.sendWork.map (·.close (0x13, 0, 0)), recvWork := v.recvWork.map (·.close (0x13, 0, 0)) }
    if v.st == .error then setQp s q v1 else firePart (setQp s q v1) v.part 12

/-- Every QP of a partition enters its error state (the fence of 20 R466). -/
def failQps (s : State) (p : Nat) : State :=
  (mkeys s.eth.qps).foldl (fun s q => if ((qpOf s q).map (·.part)) == some p then qpFail s q else s) s

/-! ## Fetch and check (R316, R317) -/

/-- The work request as fetched is not one of Table 12-4. -/
def wrReason (isRecv : Bool) (d : Nat) : Option Nat :=
  reasons [
    (if isRecv then rOp d != 8 else rOp d == 0 || 5 < rOp d, 1),
    (bit d 7 || bit d 143 || bits d 272 240 != 0 || bits d 104 8 != 0, 2)]

/-- The check before any data moves (R317): STATUS, or none. -/
def wrRefusal (s : State) (p d : Nat) : Option Nat :=
  if rLen d == 0 then none
  else if rLocal d / 2 ^ 38 != p then some 3
  else
    match memRefusal s p (rLands d) (rLocal d) (rLen d) with
    | none => none
    | some c => some (if c == 2 then 2 else 3)

/-- QP_RING_FETCH (R316, R317, R123). In the error state what it fetches is to complete with FLUSHED (R319). -/
def execQpRingFetch (t q : Nat) (isRecv : Bool) (mi : MemIn) (si : SpadIn) (s : State) : Out :=
  run t s fun s => withQp s q fun v =>
    let c := if isRecv then v.recv else v.send
    let i := c.head % c.ringEntries
    let upd := fun (s : State) (c1 : Chan) (w : List QpWork) =>
      withQp s q fun v => setQp s q (if isRecv then { v with recv := c1, recvWork := v.recvWork ++ w }
                                     else { v with send := c1, sendWork := v.sendWork ++ w })
    gate (v.st != .reset && doorbellAhead s v.part c && ringReady s v.part c i && !refusing s v.part) (fun s =>
      match ringRead s v.part 2 c i mi si with
      | (s1, none) => upd s1 { c with halted := true, errCause := 7, errReason := 0 } []
      | (s1, some d) =>
        let c1 := { c with head := (c.head + 1) % 2 ^ 32 }
        match wrReason isRecv d with
        | some r => upd s1 { c1 with halted := true, errCause := 6, errReason := r } []
        | none =>
          let w : QpWork := { desc := d, index := c.head }
          upd s1 c1 [{ w with ends := if v.st == .error then some (0x13, 0, 0)
                                      else (wrRefusal s1 v.part d).map (fun e => (e, 0, 0)) }]) s

/-! ## Sending (R318, R320, R321) -/

/-- The send work request that goes next: the first not sent and not ended, where none before it has failed. -/
def nextSend : List QpWork → Option QpWork
  | [] => none
  | w :: r =>
    match w.ends with
    | some (0, _, _) => nextSend r
    | some _ => none
    | none => if w.sent then nextSend r else some w

/-- A work request's wait condition holds. -/
def wrWait (s : State) (p d : Nat) : Bool := !dWaitEn d || ccReached s p (dWaitCc d) (dWaitVal d)

/-- A work request of a ring changes. -/
def setWorkReq (l : List QpWork) (w : QpWork) : List QpWork := l.map (fun x => if x.index == w.index then w else x)

/-- Time in ns that bytes take at a rate in Gb/s. -/
def wireNs (rate : Rat) (n : Nat) : Nat := (((8 * n : Nat) : Rat) / rate).ceil.toNat

/-- The QP may send a message now: RTS, its priority not paused, its rate's time come. -/
def maySend (s : State) (v : Qp) : Bool :=
  v.st == .rts && decide (v.nextAt ≤ s.now) && decide (mget 0 (portOf s v.port).paused (cfg s 0x69 4) ≤ s.now)

/-- The head work request of operation `op` is sent: data read from local memory where it has some; the ACK timer starts if
it does not run. -/
def sendWr (op q : Nat) (mi : MemIn) (s : State) : State :=
  withQp s q fun v =>
    match nextSend v.sendWork with
    | none => s
    | some w =>
      let d := w.desc
      let n := rLen d
      if rOp d != op || !wrWait s v.part d || v.st != .rts then s
      else if n == 0 then setQp s q { v with sendWork := setWorkReq v.sendWork { w with ends := some (0, 0, 0) } }
      else if !maySend s v || !(rLands d || rangeReady s (rLocal d) n) then s
      else
        let (s1, bs, bad) := if rLands d then (s, [], []) else maRead s 2 (rLocal d) n mi
        if bad.isEmpty then
          let k := packetsOf v.pmtu n
          sendFrame (setQp s1 q { v with
            sendWork := setWorkReq v.sendWork { w with sent := true, psn := v.sqPsn, packets := k },
            sqPsn := (v.sqPsn + k) % 2 ^ 24,
            timer := some (v.timer.getD s.now),
            nextAt := s.now + wireNs v.rate (if rLands d then 0 else n) }) v (16 + op) q bs
        else setQp s1 q { v with sendWork := setWorkReq v.sendWork { w with ends := some (5, 0, 0) } }

/-- ROCE_SEND (R318). -/
def execRoceSend (t q : Nat) (mi : MemIn) (s : State) : Out := run t s (sendWr 1 q mi)

/-- ROCE_SEND_IMM (R318). -/
def execRoceSendImm (t q : Nat) (mi : MemIn) (s : State) : Out := run t s (sendWr 2 q mi)

/-- ROCE_WRITE (R318). -/
def execRoceWrite (t q : Nat) (mi : MemIn) (s : State) : Out := run t s (sendWr 3 q mi)

/-- ROCE_WRITE_IMM (R318). -/
def execRoceWriteImm (t q : Nat) (mi : MemIn) (s : State) : Out := run t s (sendWr 4 q mi)

/-- ROCE_READ (R318): the request carries no data. -/
def execRoceRead (t q : Nat) (s : State) : Out := run t s (sendWr 5 q {})

/-- ROCE_RECV (R318): the next RECV is posted once its wait holds; one of length 0 is to complete at once. -/
def execRoceRecv (t q : Nat) (s : State) : Out :=
  run t s fun s => withQp s q fun v =>
    match v.recvWork.find? (fun w => w.ends.isNone && !w.sent) with
    | none => s
    | some w => gate (v.st != .reset && v.st != .error && wrWait s v.part w.desc) (fun s =>
        let w1 := if rLen w.desc == 0 then { w with ends := some (0, 0, 0) } else { w with sent := true }
        setQp s q { v with recvWork := setWorkReq v.recvWork w1 }) s

/-! ## Answers (R318, R319) -/

/-- PSN `a` is not before PSN `b` (24 bits). -/
def psnReached (a b : Nat) : Bool := (a + 2 ^ 24 - b) % 2 ^ 24 < 2 ^ 23

/-- The work request still waits for its answer. -/
def awaiting (w : QpWork) : Bool := w.sent && w.ends.isNone

/-- The timer runs on while something waits. -/
def restartTimer (now : Nat) (v : Qp) : Qp :=
  { v with timer := if v.sendWork.any awaiting then some now else none, tries := 0, rnrTries := 0 }

/-- Everything that waits is sent again from its first PSN on. -/
def resend (v : Qp) : Qp :=
  match v.sendWork.find? awaiting with
  | none => v
  | some w => { v with sqPsn := w.psn, timer := none,
                       sendWork := v.sendWork.map (fun x => if awaiting x then { x with sent := false } else x) }

/-- The oldest waiting work request fails with a status, and the QP with it. -/
def failOldest (s : State) (q : Nat) (v : Qp) (status : Nat) : State :=
  match v.sendWork.find? awaiting with
  | none => qpFail s q
  | some w => qpFail (setQp s q { v with sendWork := setWorkReq v.sendWork { w with ends := some (status, 0, 0) } }) q

/-- Retries are used up, or everything is sent again (R319). -/
def retryQp (s : State) (q : Nat) (v : Qp) : State :=
  if v.retry ≤ v.tries then failOldest s q v 0x10 else setQp s q { resend v with tries := v.tries + 1 }

/-- An ACK of a PSN ends the sends and writes whose last packet it covers. -/
def ackUpTo (v : Qp) (psn : Nat) : Qp :=
  { v with sendWork := v.sendWork.map (fun w =>
      if awaiting w && rOp w.desc != 5 && psnReached psn ((w.psn + w.packets - 1) % 2 ^ 24)
      then { w with ends := some (0, rLen w.desc, 0) } else w) }

/-- An answer reaches its QP. In the error state it is dropped and counted in LATE_COMPLETION. -/
def takeAnswer (s : State) (q : Nat) (v : Qp) (psn : Nat) (m : RoceMsg) (mi : MemIn) : State :=
  if v.st != .rts then lateCount s v.part
  else
    match m with
    | .ack => setQp s q (restartTimer s.now (ackUpTo v psn))
    | .nak 0 => retryQp s q (ackUpTo v ((psn + 2 ^ 24 - 1) % 2 ^ 24))
    | .nak 1 => failOldest s q v 0x12
    | .nak 2 => failOldest s q v 0x11
    | .nak _ => failOldest s.drawn q v ((choose s 0 [0x11, 0x12]).getD 0x11)
    | .rnr ns =>
      if v.rnr != 7 && decide (v.rnr ≤ v.rnrTries) then failOldest s q v 0x10
      else setQp s q { resend v with rnrTries := v.rnrTries + 1, nextAt := s.now + ns }
    | .readResp bs =>
      let v1 := ackUpTo v ((psn + 2 ^ 24 - 1) % 2 ^ 24)
      match v1.sendWork.find? (fun w => awaiting w && rOp w.desc == 5 && w.psn == psn) with
      | none => lateCount s v.part
      | some w =>
        let n := rLen w.desc
        if (memRefusal s v.part true (rLocal w.desc) n).isSome then
          failOldest (setQp s q v1) q v1 3
        else
          let (s1, bad) := maWrite s 2 (rLocal w.desc) (fit n bs) mi
          setQp s1 q (restartTimer s.now { v1 with
            sendWork := setWorkReq v1.sendWork { w with ends := some (if bad.isEmpty then 0 else 5, n, 0) } })
    | _ => s

/-- A frame that answers requests. -/
def isAnswer (m : RoceMsg) : Bool :=
  match m with
  | .ack | .nak _ | .rnr _ | .readResp _ => true
  | _ => false

/-- The completion entry (Table 12-5), of a work request of a ring of `n` entries. -/
def cqEntry (q n : Nat) (w : QpWork) (e : Nat × Nat × Nat) : Nat :=
  packBits [(e.1, 8), (rOp w.desc, 4), (q, 12), (0, 8), (w.index % n, 32), (e.2.1, 32), (e.2.2, 32)]

/-- The head of a ring completes: DONE counts it, SIG_CC is signalled unless it failed, and its completion entry is written;
a failure puts the QP in its error state (R319). -/
def completeWr (s : State) (q : Nat) (isRecv : Bool) : State :=
  withQp s q fun v =>
    match (if isRecv then v.recvWork else v.sendWork) with
    | [] => s
    | w :: r =>
      match w.ends with
      | none => s
      | some e =>
        let cq := if rCqe w.desc then v.cq ++ [cqEntry q (if isRecv then v.recv else v.send).ringEntries w e] else v.cq
        let v1 := if isRecv then { v with recvWork := r, cq := cq, recv := { v.recv with done := (v.recv.done + 1) % 2 ^ 32 } }
                  else { v with sendWork := r, cq := cq, send := { v.send with done := (v.send.done + 1) % 2 ^ 32 } }
        let s1 := setQp s q v1
        let s2 := if dSigEn w.desc && (e.1 == 0 || e.1 == 0x13) then ccAdd s1 v.part (dSigCc w.desc) 1 else s1
        if e.1 == 0 then s2 else qpFail s2 q

/-- The head of a ring is known to have ended. -/
def headEnded (s : State) (q : Nat) (isRecv : Bool) : Bool :=
  match qpOf s q with
  | none => false
  | some v =>
    match (if isRecv then v.recvWork else v.sendWork) with
    | w :: _ => w.ends.isSome
    | [] => false

/-- ROCE_WR_COMPLETE (R318, R319): the head of the ring completes, after the answer first in the port's buffer is taken where
the head still waits for it. -/
def execRoceWrComplete (t q : Nat) (isRecv : Bool) (mi : MemIn) (s : State) : Out :=
  run t s fun s => withQp s q fun v =>
    if headEnded s q isRecv then completeWr s q isRecv
    else
      match (portOf s v.port).rx with
      | .roce k _ psn _ m :: _ =>
        let ready := match m with
          | .readResp _ => (v.sendWork.filter (fun w => awaiting w && rOp w.desc == 5)).all (fun w => rangeReady s (rLocal w.desc) (rLen w.desc))
          | _ => true
        if k == q && isAnswer m && ready then completeWr (takeAnswer (popFrame s v.port) q v psn m mi) q isRecv else s
      | _ => s

/-- ROCE_ACK_TIMEOUT (R319): 4.096 us times 2^n without the ACK. -/
def execRoceAckTimeout (t q : Nat) (s : State) : Out :=
  run t s fun s => withQp s q fun v =>
    match v.timer with
    | none => s
    | some a => gate (v.st == .rts && decide (a + 4096 * 2 ^ v.ackN < s.now) && v.sendWork.any awaiting) (fun s => retryQp s q v) s

/-- ROCE_CNP (R321). -/
def execRoceCnp (t port : Nat) (s : State) : Out :=
  run t s fun s =>
    match (portOf s port).rx with
    | .roce q _ _ _ .cnp :: _ =>
      let s1 := popFrame s port
      withQp s1 q fun v =>
        let due := match v.lastCut with | none => true | some c => decide (c + 50000 ≤ s.now)
        setQp s1 q (if due then { v with rate := max 1 (v.rate / 2), lastCut := some s.now, rateAt := s.now }
                    else { v with rateAt := s.now })
    | _ => s

/-- ROCE_RATE_INCREASE (R321). -/
def execRoceRateIncrease (t q : Nat) (s : State) : Out :=
  run t s fun s => withQp s q fun v => gate (decide (v.rateAt + 55000 ≤ s.now))
    (fun s => setQp s q { v with rate := min 800 (v.rate + 5), rateAt := v.rateAt + 55000 }) s

/-! ## Inbound requests (R317, R318) -/

/-- The region of an inbound access lets it pass: 2 lands or leaves, with bit 0 for a read, bit 1 for a write. -/
def regionOk (s : State) (v : Qp) (key va n right : Nat) : Bool :=
  match mfind s.eth.mrs key with
  | none => false
  | some m => m.session == sessionOf s v.part && bit m.rights right && m.base ≤ va && va + n ≤ m.base + m.len &&
      (memRefusal s v.part (right == 1) va n).isNone

/-- The next posted RECV. -/
def nextRecv (v : Qp) : Option QpWork := v.recvWork.find? (fun w => w.sent && w.ends.isNone)

/-- The message is whole and in its place: the expected PSN moves on, and it is acknowledged. -/
def ackIn (s : State) (q psn k : Nat) : State :=
  withQp s q fun v => sendFrame (setQp s q { v with rqPsn := (psn + k) % 2 ^ 24 }) v 3 q (leBytes 3 ((psn + k - 1) % 2 ^ 24))

/-- A NAK toward the requester. -/
def nakOut (s : State) (q : Nat) (v : Qp) (code psn : Nat) : State := sendFrame s v 4 q (leBytes 4 (code + 256 * psn))

/-- A RECV ends with what arrived for it. -/
def endRecv (s : State) (q : Nat) (w : QpWork) (e : Nat × Nat × Nat) : State :=
  withQp s q fun v => setQp s q { v with recvWork := setWorkReq v.recvWork { w with ends := some e } }

/-- A CNP goes to the requester of a CE-marked packet, at most one per QP per 50 us (R321). -/
def cnpFor (s : State) (q : Nat) (ce : Bool) : State :=
  withQp s q fun v =>
    let due := match v.lastCnpSent with | none => true | some c => decide (c + 50000 ≤ s.now)
    if ce && due then sendFrame (setQp s q { v with lastCnpSent := some s.now }) v 6 q [] else s

/-- Bytes of local memory that an inbound message needs now. -/
def inboundReady (s : State) (v : Qp) (m : RoceMsg) : Bool :=
  match m with
  | .send _ bs => match nextRecv v with | none => true | some w => rangeReady s (rLocal w.desc) bs.length
  | .write _ va _ bs => rangeReady s va bs.length
  | .read va _ n => rangeReady s va n
  | _ => true

/-- A request at the responder. -/
def serve (s : State) (q : Nat) (v : Qp) (psn : Nat) (m : RoceMsg) (mi : MemIn) : State :=
  let k := fun (n : Nat) => packetsOf v.pmtu n
  if refusing s v.part then nakOut s q v 3 psn
  else if v.st != .rtr && v.st != .rts then portDiscard s v.port
  else if m == .absent then nakOut s q v 1 psn
  else if psn != v.rqPsn && psnReached psn v.rqPsn then nakOut s q v 0 v.rqPsn
  else
    let dup := psn != v.rqPsn
    match m with
    | .send imm bs =>
      if dup then sendFrame s v 3 q (leBytes 3 psn)
      else
        match nextRecv v with
        | none => nakOut s q v 4 psn
        | some w =>
          if rLen w.desc < bs.length then nakOut (endRecv s q w (2, 0, imm.getD 0)) q v 1 psn
          else if (memRefusal s v.part true (rLocal w.desc) bs.length).isSome then nakOut (endRecv s q w (3, 0, 0)) q v 3 psn
          else
            let (s1, bad) := maWrite s 2 (rLocal w.desc) bs mi
            ackIn (endRecv s1 q w (if bad.isEmpty then 0 else 5, bs.length, imm.getD 0)) q psn (k bs.length)
    | .write imm va key bs =>
      if dup then sendFrame s v 3 q (leBytes 3 psn)
      else if imm.isSome && (nextRecv v).isNone then nakOut s q v 4 psn
      else if bs != [] && !regionOk s v key va bs.length 1 then nakOut s q v 2 psn
      else
        let (s1, _) := maWrite s 2 va bs mi
        let s2 := match imm, nextRecv v with
          | some i, some w => endRecv s1 q w (0, bs.length, i)
          | _, _ => s1
        ackIn s2 q psn (k bs.length)
    | .read va key n =>
      if n != 0 && !regionOk s v key va n 0 then nakOut s q v 2 psn
      else
        let (s1, bs, bad) := maRead s 2 va n mi
        if bad.isEmpty then
          sendFrame (if dup then s1 else setQp s1 q { v with rqPsn := (psn + k n) % 2 ^ 24 }) v 5 q bs
        else nakOut s1 q v 3 psn
    | _ => s

/-- RDMA_INBOUND (R317, R318): the request first in a port's buffer is served or answered with a NAK; one for a QP that the
port does not have is discarded and counted. -/
def execRdmaInbound (t port : Nat) (mi : MemIn) (s : State) : Out :=
  run t s fun s =>
    match (portOf s port).rx with
    | .roce q ce psn _ m :: _ =>
      match qpOf s q with
      | none => portDiscard (popFrame s port) port
      | some v =>
        if v.port != port then portDiscard (popFrame s port) port
        else if isAnswer m || m == .cnp || !inboundReady s v m then s
        else serve (cnpFor (popFrame s port) q ce) q ((qpOf (cnpFor (popFrame s port) q ce) q).getD v) psn m mi
    | _ => s

/-! ## Set-up (15 Tables 15-7, 15-8) -/

/-- ETH_GID_SET (R315): WRONG_STATE while a QP is bound to the entry. -/
def execEthGidSet (t : Nat) (a : MbxArgs) (s : State) : Out :=
  mbxCmd { opcode := 0x0205, rights := 1, pkg := .uc, partUse := .pkg } anyReq
    (fun r s => { bad := let o := r.f 8 3; 3 < o && o != 7,
                  wrong := s.eth.qps.any (fun e => e.2.port == r.f 0 1 && e.2.gid == r.f 4 4) })
    (fun r s => ({ s with eth := { s.eth with
        gids := mset s.eth.gids (16 * r.f 0 1 + r.f 4 4) { addr := r.f 128 128, owner := r.f 8 3 } } }, ok)) t a s

/-- NET_CONFIG (13 R345). -/
def execNetConfig (t : Nat) (a : MbxArgs) (s : State) : Out :=
  mbxCmd { opcode := 0x0204, rights := 1, pkg := .uc, partUse := .pkg } anyReq
    (fun r _ => { bad := 128 < r.f 0 8 })
    (fun r s => ({ s with mbx := { s.mbx with
        mgmtAddr := if r.f 0 8 == 0 then none else some (r.f 0 8, r.f 128 128) } }, ok)) t a s

/-- QPs a partition holds. -/
def qpsOf (s : State) (p : Nat) : List Nat := (s.eth.qps.filter (fun e => e.2.part == p)).map (·.1)

/-- QP_CREATE (R315). -/
def execQpCreate (t : Nat) (a : MbxArgs) (s : State) : Out :=
  mbxCmd { opcode := 0x0230, rights := 3, pkg := .c, partUse := .one, parts := some [.assigned, .running], resp := 4 } anyReq
    (fun r s => { bad := r.f 8 2 == 3, denied := (gidOf s (r.f 0 1) (r.f 4 4)).owner != r.part })
    (fun r s =>
      let free := (List.range 4096).filter (fun q => (qpOf s q).isNone)
      match choose s 0 free with
      | none => (s, .done 0x31 [])
      | some q =>
        if cfg s 0x68 r.part ≤ (qpsOf s r.part).length then (s, .done 0x31 [])
        else (setQp s.drawn q { part := r.part, port := r.f 0 1, gid := r.f 4 4, pmtu := 1024 * 2 ^ r.f 8 2, rateAt := s.now },
              .done 0 (leBytes 4 q))) t a s

/-- The QP is one of the request's partition. -/
def ownQp (s : State) (r : Req) (q : Nat) : Bool := ((qpOf s q).map (·.part)) == some r.part

/-- The transition QP_MODIFY asks for is allowed (15 Table 15-7). -/
def qpMove (from_ : QpState) (next : Nat) : Bool :=
  next == 0 || next == 4 || (match from_, next with
    | .reset, 1 => true
    | .init, 2 => true
    | .rtr, 3 => true
    | _, _ => false)

/-- QP_MODIFY (R319, 15 Table 15-8): addressing and RQ_PSN are taken at RTR, SQ_PSN and the retry fields at RTS. A move to
RESET is the QP reset: what the QP holds is dropped. -/
def execQpModify (t : Nat) (a : MbxArgs) (s : State) : Out :=
  mbxCmd { opcode := 0x0231, rights := 3, pkg := .c, partUse := .one, parts := some [.assigned, .running],
           lenOk := (· == 64) } anyReq
    (fun r s =>
      let w := leNat r.payload
      let q := r.f 0 12
      { bad := !ownQp s r q || 4 < bits w 200 3 || bits w 203 5 == 0 || bits w 214 2 != 0 || bits w 277 235 != 0,
        wrong := match qpOf s q with | none => false | some v => !qpMove v.st (bits w 200 3) })
    (fun r s =>
      let w := leNat r.payload
      let q := r.f 0 12
      (withQp s q fun v =>
        match bits w 200 3 with
        | 0 => setQp s q { part := v.part, port := v.port, gid := v.gid, pmtu := v.pmtu, send := v.send, recv := v.recv,
                           cq := v.cq, rate := v.rate, lastCut := v.lastCut, rateAt := v.rateAt, lastCnpSent := v.lastCnpSent }
        | 1 => setQp s q { v with st := .init }
        | 2 => setQp s q { v with
                 st := .rtr, destGid := bits w 0 128, destQpn := bits w 128 24, rqPsn := bits w 176 24,
                 destMac := bits w 216 48, vlan := bits w 264 12, vlanEn := bit w 276 }
        | 3 => setQp s q { v with
                 st := .rts, sqPsn := bits w 152 24, ackN := bits w 203 5, retry := bits w 208 3, rnr := bits w 211 3 }
        | _ => qpFail s q, ok)) t a s

/-- Completion of every work request a QP still holds, both rings. -/
def flushQp (s : State) (q : Nat) : State :=
  withQp (qpFail s q) q fun v =>
    let s1 := v.sendWork.foldl (fun s _ => completeWr s q false) (qpFail s q)
    v.recvWork.foldl (fun s _ => completeWr s q true) s1

/-- QP_DESTROY (R315): outstanding work requests complete with FLUSHED before the QP is released. -/
def execQpDestroy (t : Nat) (a : MbxArgs) (s : State) : Out :=
  mbxCmd { opcode := 0x0232, rights := 3, pkg := .c, partUse := .one, parts := some [.assigned, .running, .fenced] } anyReq
    (fun r s => { bad := !ownQp s r (r.f 0 12) })
    (fun r s =>
      let s1 := match qpOf s (r.f 0 12) with
        | some v => if v.sendWork.isEmpty && v.recvWork.isEmpty then s else flushQp s (r.f 0 12)
        | none => s
      ({ s1 with eth := { s1.eth with qps := mdel s1.eth.qps (r.f 0 12) } }, ok)) t a s

/-- An R_KEY that no region has and that is not 0: the first free from a chosen value on (log 7). -/
def newKey (s : State) : Nat :=
  let k0 := Config.choice s.freeCtr 0
  ((List.range (s.eth.mrs.length + 1)).map (fun i => (k0 + i) % (2 ^ 32 - 1) + 1)).find?
    (fun k => (mfind s.eth.mrs k).isNone) |>.getD 1

/-- MR_REG (R317). -/
def execMrReg (t : Nat) (a : MbxArgs) (s : State) : Out :=
  mbxCmd { opcode := 0x0234, rights := 3, pkg := .c, partUse := .one, parts := some [.assigned, .running], resp := 4 } anyReq
    (fun r s =>
      let b := bufOf s (sessionOf s r.part) (r.f 0 32)
      { bad := r.f 32 2 == 0 || b.isNone,
        exceeds := match b with | none => false | some (_, v) => decide (v.size < r.f 64 64 + r.f 128 64) })
    (fun r s =>
      if r.f 128 64 == 0 then (s, .done 0 (leBytes 4 0))
      else if 16384 ≤ s.eth.mrs.length then (s, .done 0x31 [])
      else
        match bufOf s (sessionOf s r.part) (r.f 0 32) with
        | none => (s, .done 0x12 [])
        | some (key, v) =>
          let m : MemRegion := {
            part := r.part, session := sessionOf s r.part, buf := key, base := v.base + r.f 64 64, len := r.f 128 64,
            rights := r.f 32 2 }
          ({ s.drawn with eth := { s.eth with mrs := mset s.eth.mrs (newKey s) m } },
           .done 0 (leBytes 4 (newKey s)))) t a s

/-- MR_DEREG (R317). -/
def execMrDereg (t : Nat) (a : MbxArgs) (s : State) : Out :=
  mbxCmd { opcode := 0x0235, rights := 3, pkg := .c, partUse := .one, parts := some [.assigned, .running, .fenced] } anyReq
    (fun r s => { bad := match mfind s.eth.mrs (r.f 0 32) with
                         | none => true | some m => m.session != sessionOf s r.part })
    (fun r s => ({ s with eth := { s.eth with mrs := mdel s.eth.mrs (r.f 0 32) } }, ok)) t a s

end Sys2Proof.Machine
end

