-- ==== Sys2Proof/Machine/Gleaners.lean ====
section
/-!
DEFINITION. Machine/Gleaners.lean: the Gleaners' queues and commands (06), and the tiles' Gleaner forwarders.
-/
namespace Sys2Proof.Machine

/-! ## Queues (R144 to R146) -/

/-- The Gleaner works: its package is up, its stack awake and its partition not refusing. -/
def glnLive (s : State) (k : Nat) : Bool :=
  decide (k < 12) && pkgU s && stackAwake (stackOf s k) && !halts s (partOfStack k) && pstate s (partOfStack k) != .dormant &&
  !s.heat.stopped && !s.boot.poweredOff

/-- The class of a command has room (R146). -/
def glnRoom (s : State) (k body : Nat) : Bool :=
  let g := glnOf s k
  if gPrio body then g.high.length < 32 else g.normal.length < 64

/-- A command or piece enters the queue of its class. -/
def glnPut (s : State) (k : Nat) (c : GlnCmd) : State :=
  let g := glnOf s k
  if gPrio c.body then setGln s k { g with high := g.high ++ [c], progress := true }
  else setGln s k { g with
    normal := g.normal ++ [c], progress := true, headSince := if g.normal.isEmpty then some s.now else g.headSince }

/-- The command selected next, and the Gleaner without it (R145). -/
def glnSelect (g : Gleaner) (now : Nat) : Option (GlnCmd × Gleaner) :=
  let popNormal : List GlnCmd → Gleaner := fun r =>
    { g with normal := r, promoted := false, headSince := if r.isEmpty then none else some now }
  match g.fw, g.promoted, g.high, g.normal with
  | c :: r, _, _, _ => some (c, { g with fw := r })
  | [], true, _, c :: r => some (c, popNormal r)
  | [], _, c :: r, _ => some (c, { g with high := r })
  | [], _, [], c :: r => some (c, popNormal r)
  | [], _, [], [] => none

/-! ## Dispatch (R137, R138, R142, R143) -/

/-- Primary address of an operation (Table 6-5). -/
def primaryOf (b : Nat) : Nat :=
  match gOp b with
  | 1 | 2 | 5 | 6 => gB b
  | 4 | 7 => gA b
  | _ => gD b

/-- The stack that holds the page of the primary address. -/
def primaryStack (s : State) (b : Nat) : Option Nat :=
  match lineAt s (primaryOf b / 128 * 128) with
  | some (.stk k _) => some k
  | _ => none

/-- A split operation (R138). -/
def isSplit (b : Nat) : Bool := [3, 4, 6, 0xA].contains (gOp b)

/-- Line addresses of the array a split operation writes; a scatter's rows are those its indices choose. -/
def writtenLines (b : Nat) (ix : List Nat) : List Nat :=
  match gOp b with
  | 3 => linesOf (gD b) (gCount b * outBytes (gFmtOut b))
  | 4 => linesOf (gA b) (fmtBytes (gFmtA b) (gCount b))
  | 6 => ix.flatMap (fun i => linesOf (rowAddr b i).toNat (gRow b))
  | _ => linesOf (gD b) (gCount b)

/-- Gleaners that get a piece, in increasing number. -/
def pieceGleaners (s : State) (k b : Nat) (ix : List Nat) : List Nat :=
  let ls := writtenLines b ix
  (List.range 12).filter (fun j => ls.any (ownsLine s j k))

/-- A command that ended or was refused waits for its report. -/
def glnEnd (s : State) (k : Nat) (c : GlnCmd) (status reason : Nat) : State :=
  let g := glnOf s k
  setGln s k { g with
    opens := g.opens ++ [{ id := g.nextId, cmd := c, status := status, reason := reason }], nextId := g.nextId + 1,
    progress := true }

/-- A split command opens, and its pieces are queued at their Gleaners (R138). A piece is no command, and no bound of R146
keeps it out (log 21). -/
def glnSplit (s : State) (k : Nat) (c : GlnCmd) (ix : List Nat) : State :=
  let ks := pieceGleaners s k c.body ix
  let g := glnOf s k
  let s1 := setGln s k { g with
    opens := g.opens ++ [{ id := g.nextId, cmd := c, pieces := ks.length }], nextId := g.nextId + 1, progress := true }
  ks.foldl (fun s j => glnPut s j { c with src := .piece k g.nextId }) s1

/-- A scatter's indices are read and checked before any data moves (R159). -/
def scatterIndices (s : State) (k : Nat) (c : GlnCmd) (mi : MemIn) (si : SpadIn) : GlnRun × List Nat :=
  if gOp c.body == 6 then
    ({ st := s } : GlnRun).indices { gln := k, tile := gTile c.body, mi := mi, si := si } c.ses c.body true
  else ({ st := s }, [])

/-- What becomes of the selected command: a piece runs; a command is passed on, ends at once, is refused, split, or runs. -/
def glnStart (s : State) (k : Nat) (c : GlnCmd) (mi : MemIn) (si : SpadIn) : State :=
  let b := c.body
  let here : State → State := fun s => setGln s k { glnOf s k with running := some c, progress := true }
  match c.src with
  | .piece _ _ => here s
  | _ =>
    let target := if gAuto b then primaryStack s b else none
    match target with
    | some j =>
      if j != k then glnPut s j { c with body := setBits b 80 1 0 } else glnChecked s k c here
    | none => glnChecked s k c here
where
  /-- The checks of the receiving Gleaner, then its dispatch. -/
  glnChecked (s : State) (k : Nat) (c : GlnCmd) (here : State → State) : State :=
    let b := c.body
    if glnAtOnce b then glnEnd s k c 0 0
    else
      match glnMalformed s b with
      | some r => glnEnd s k c 1 r
      | none =>
        match glnRefusal s c.ses b with
        | some st => glnEnd s k c st 0
        | none =>
          if isSplit b then
            let (r, ix) := scatterIndices s k c mi si
            if r.status != 0 then glnEnd r.st k c r.status 0 else glnSplit r.st k c ix
          else here s

/-- The command selected next is passed to another Gleaner whose class is full: the selection waits (R146). -/
def passBlocked (s : State) (k : Nat) (c : GlnCmd) : Bool :=
  gAuto c.body &&
  (match c.src with
   | .piece _ _ => false
   | _ => match primaryStack s c.body with
          | some j => j != k && !glnRoom s j c.body
          | none => false)

/-- GLEANER_DISPATCH (R145). -/
def execGleanerDispatch (t k : Nat) (mi : MemIn) (si : SpadIn) (s : State) : Out :=
  run t s fun s => gate (glnLive s k && (glnOf s k).running.isNone) (fun s =>
    match glnSelect (glnOf s k) s.now with
    | none => s
    | some (c, g) => gate (!passBlocked s k c) (fun s => glnStart (setGln s k g) k c mi si) s) s

/-- GLEANER_AGE_PROMOTE (R145): the head of the normal class has waited GLN_AGE. -/
def execGleanerAgePromote (t k : Nat) (s : State) : Out :=
  run t s fun s =>
    let g := glnOf s k
    gate (glnLive s k && !g.normal.isEmpty && !g.promoted &&
        (match g.headSince with | none => false | some w => decide (w + 1000 * cfg s 0x51 (partOfStack k) ≤ s.now)))
      (fun s => setGln s k { g with promoted := true }) s

/-! ## The end of a run -/

/-- What a piece found joins its command: the first status that is not OK, the flags, the count and the first address. -/
def joinPiece (o : GlnOpen) (r : GlnRun) : GlnOpen :=
  { o with
    pieces := o.pieces - 1,
    status := if o.status != 0 then o.status else r.status,
    flags := o.flags ||| r.fl,
    result := satAdd max32 o.result r.result,
    first := if o.first == 0 then r.first else if r.first == 0 then o.first else min o.first r.first }

/-- The running command or piece of Gleaner `k` has ended. -/
def glnFinish (k : Nat) (c : GlnCmd) (r : GlnRun) : State :=
  let s1 := setGln r.st k { glnOf r.st k with running := none, progress := true }
  match c.src with
  | .piece j id =>
    let g := glnOf s1 j
    setGln s1 j { g with opens := g.opens.map (fun o => if o.id == id then joinPiece o r else o), progress := true }
  | _ =>
    let g := glnOf s1 k
    setGln s1 k { g with
      opens := g.opens ++ [{ id := g.nextId, cmd := c, status := r.status, flags := r.fl, result := r.result, first := r.first }],
      nextId := g.nextId + 1 }

/-- Gleaner that received the running command, whose pieces the others hold. -/
def glnRecv (k : Nat) (c : GlnCmd) : Nat :=
  match c.src with
  | .piece j _ => j
  | _ => k

/-- The running command is of operation `op`: it runs and ends. Every memory line it names can be served. -/
def glnOpRun (op : Nat) (f : GlnIn → GlnCmd → GlnRun → GlnRun) (t k : Nat) (mi : MemIn) (si : SpadIn) (s : State) : Out :=
  run t s fun s =>
    match (glnOf s k).running with
    | none => s
    | some c => gate (glnLive s k && gOp c.body == op && glnReady s (glnExtents c.body)) (fun s =>
        let s1 := if usesTile c.body then eccCount s (gTile c.body % 1024) si else s
        glnFinish k c (f { gln := k, tile := gTile c.body, mi := mi, si := si } c { st := s1 })) s

/-- SCORE_SCAN (R153). -/
def execScoreScan (t k : Nat) (mi : MemIn) (si : SpadIn) (s : State) : Out :=
  glnOpRun 1 (fun g c r => runScore g c.body r) t k mi si s
/-- WEIGHTED_ACC (R154). -/
def execWeightedAcc (t k : Nat) (mi : MemIn) (si : SpadIn) (s : State) : Out :=
  glnOpRun 2 (fun g c r => runWeighted g c.body r) t k mi si s
/-- ACC_MEM (R156). -/
def execAccMem (t k : Nat) (mi : MemIn) (si : SpadIn) (s : State) : Out :=
  glnOpRun 3 (fun g c r => runAcc g (glnRecv k c) c.body r) t k mi si s
/-- OPT_UPDATE (R158). -/
def execOptUpdate (t k : Nat) (mi : MemIn) (si : SpadIn) (s : State) : Out :=
  glnOpRun 4 (fun g c r => runOpt g (glnRecv k c) c.body r) t k mi si s
/-- GATHER (R159). -/
def execGather (t k : Nat) (mi : MemIn) (si : SpadIn) (s : State) : Out :=
  glnOpRun 5 (fun g c r => runGather g c.ses c.body r) t k mi si s
/-- SCATTER (R159). -/
def execScatter (t k : Nat) (mi : MemIn) (si : SpadIn) (s : State) : Out :=
  glnOpRun 6 (fun g c r => runScatter g (glnRecv k c) c.ses c.body r) t k mi si s
/-- UNPACK (R160). -/
def execUnpack (t k : Nat) (mi : MemIn) (si : SpadIn) (s : State) : Out :=
  glnOpRun 7 (fun g c r => runUnpack g c.body r) t k mi si s
/-- GLEANER_FILL (R161). -/
def execGleanerFill (t k : Nat) (mi : MemIn) (si : SpadIn) (s : State) : Out :=
  glnOpRun 8 (fun g c r => runFill g c.body r) t k mi si s
/-- GLEANER_COPY (R161). -/
def execGleanerCopy (t k : Nat) (mi : MemIn) (si : SpadIn) (s : State) : Out :=
  glnOpRun 9 (fun g c r => runCopy g c.body r) t k mi si s
/-- PATTERN_TEST (R162). -/
def execPatternTest (t k : Nat) (mi : MemIn) (si : SpadIn) (s : State) : Out :=
  glnOpRun 0xA (fun g c r => runPattern g (glnRecv k c) c.body r) t k mi si s

/-! ## Completion (R149 to R152) -/

/-- The completion record (Table 6-7). -/
def glnRecord (o : GlnOpen) : List Byte :=
  leBytes 16 (packBits [(o.status, 4), (gOp o.cmd.body, 4), (o.reason, 8), (o.flags.toNat, 8), (0, 8), (o.result, 32), (o.first, 48)])

/-- The record is written where REC_EN asks for it and its address is granted; a command that completed at once writes
none. -/
def writeGlnRecord (s : State) (k : Nat) (o : GlnOpen) (mi : MemIn) : State :=
  let b := o.cmd.body
  if gRecEn b && !glnAtOnce b && gRec b % 16 == 0 && (glnMemRefusal s o.cmd.ses true (gRec b) 16).isNone then
    (maWrite s (k / 6) (gRec b) (glnRecord o) mi).1
  else s

/-- A Gleaner descriptor's wait is answered with a status. -/
def tellForwarder (s : State) (core index status : Nat) : State :=
  match jobOf s core 6 index with
  | none => s
  | some j => setJob s 6 { j with done := some status }

/-- The completion goes to the forwarder through the mesh, or as a GLEANER_DONE packet on VC0 (R149). -/
def glnReport (s : State) (o : GlnOpen) : State :=
  match o.cmd.src with
  | .tile core index => tellForwarder s core index o.status
  | .vc4 hdr => answerPkt s hdr 9 0 o.status []
  | _ => s

/-- GLEANER_COMPLETE (R149): every write is acknowledged; the record is written, and the completion is reported. -/
def execGleanerComplete (t k id : Nat) (mi : MemIn) (s : State) : Out :=
  run t s fun s =>
    match (glnOf s k).opens.find? (fun o => o.id == id) with
    | none => s
    | some o => gate (decide (k < 12) && o.pieces == 0) (fun s =>
        let g := glnOf s k
        glnReport (writeGlnRecord (setGln s k { g with opens := g.opens.filter (fun x => x.id != id), progress := true }) k o mi) o) s

/-- A command from a tile or from VC4, held for 1,001 ms (R150). -/
def glnExpired (now : Nat) (c : GlnCmd) : Bool :=
  (match c.src with | .tile _ _ => true | .vc4 _ => true | _ => false) && c.arrived + 1001000000 ≤ now

/-- The first expired command of a Gleaner, and the Gleaner without it. -/
def glnTakeExpired (g : Gleaner) (now : Nat) : Option (GlnOpen × Gleaner) :=
  let ex := glnExpired now
  match g.high.find? ex, g.normal.find? ex, g.running.filter ex, g.opens.find? (fun o => ex o.cmd) with
  | some c, _, _, _ => some ({ id := g.nextId, cmd := c, status := 6 }, { g with high := g.high.erase c })
  | none, some c, _, _ =>
    let r := g.normal.erase c
    some ({ id := g.nextId, cmd := c, status := 6 },
      { g with normal := r, headSince := if r.isEmpty then none else if r.head? == g.normal.head? then g.headSince else some now,
               promoted := g.promoted && r.head? == g.normal.head? })
  | none, none, some c, _ => some ({ id := g.nextId, cmd := c, status := 6 }, { g with running := none })
  | none, none, none, some o => some ({ o with status := 6 }, { g with opens := g.opens.filter (· != o) })
  | none, none, none, none => none

/-- A piece of the command numbered `id` at Gleaner `k`. -/
def isPieceOf (k id : Nat) (c : GlnCmd) : Bool := c.src == .piece k id

/-- The pieces of a command stop at every Gleaner. -/
def dropPieces (s : State) (k id : Nat) : State :=
  (List.range 12).foldl (fun s j =>
    let g := glnOf s j
    setGln s j { g with
      high := g.high.filter (fun c => !isPieceOf k id c), normal := g.normal.filter (fun c => !isPieceOf k id c),
      running := g.running.filter (fun c => !isPieceOf k id c) }) s

/-- GLEANER_CMD_EXPIRE (R150): stopped with status TIMEOUT; the record is written, and no completion is sent. -/
def execGleanerCmdExpire (t k : Nat) (mi : MemIn) (s : State) : Out :=
  run t s fun s =>
    match glnTakeExpired (glnOf s k) s.now with
    | none => s
    | some (o, g) => gate (decide (k < 12)) (fun s =>
        let s1 := dropPieces (setGln s k { g with progress := true }) k o.id
        writeGlnRecord s1 k o mi) s

/-! ## The forwarder (R149, R150, 04 R113) -/

/-- CAUSE of a completion's status (Table 6-6). -/
def glnCause (status : Nat) : Nat :=
  match status with
  | 2 => 2 | 3 => 3 | 4 => 5 | 6 => 4
  | _ => 6

/-- GLEANER_DESC_COMPLETE (R149, R151): the completion has reached the forwarder. -/
def execGleanerDescComplete (t c index : Nat) (s : State) : Out :=
  run t s fun s =>
    match jobOf s c 6 index with
    | none => s
    | some j =>
      match j.done with
      | none => s
      | some 0 => gate (coreLive s c) (fun s => completeJob s 6 j) s
      | some st => gate (coreLive s c) (fun s => failJob s 6 j (glnCause st)) s

/-- GLEANER_FWD_TIMEOUT (R150): the wait passes GLN_TIMEOUT; a completion in the same instant wins. -/
def execGleanerFwdTimeout (t c index : Nat) (s : State) : Out :=
  run t s fun s =>
    match jobOf s c 6 index with
    | none => s
    | some j => gate (j.done.isNone && j.fail.isNone && decide (j.issuedAt + j.limit ≤ s.now)) (fun s =>
        let s1 := match s.fab.reqs.find? (fun r => r.owner == .forward c index) with
          | none => s
          | some r => timeoutReq s r
        failJob s1 6 j 4) s

/-- A Gleaner descriptor is issued: its command goes through the mesh to a Gleaner of its own die, or on VC4 (R137). -/
def forwardIssue (s : State) (j : Issued) : State :=
  let b := j.desc / 2 ^ 64 * 2 ^ 64
  let ep := gEid b % 1024
  let l := gEid b / 1024
  let i := tileOfCore j.core
  let p := partOfCore j.core
  if l == ownLpkg s && (ep < 288 || 299 < ep) then setJob s 6 { j with done := some 1, started := true }
  else if l == ownLpkg s && (ep - 288) / 6 == i / 144 then
    setJob (glnPut s (ep - 288) { body := b, src := .tile j.core j.index, arrived := s.now, ses := sessionOf s p }) 6
      { j with started := true }
  else
    match sendReq s i p .gleaner l ep { op := 8, vc := 4, cc := if dSigEn j.desc then dSigCc j.desc else 0 } (leBytes 64 b) 0 (.forward j.core j.index) j.limit with
    | none => setJob s 6 { j with fail := some 3 }
    | some (s1, q) => setJob s1 6 { j with started := true, reqs := [q] }

/-- The Gleaner that a forwarder reaches through the mesh has room for the command. -/
def forwardRoom (s : State) (core desc : Nat) : Bool :=
  let ep := gEid desc % 1024
  if gEid desc / 1024 == ownLpkg s && 288 ≤ ep && ep ≤ 299 && (ep - 288) / 6 == tileOfCore core / 144 then
    glnRoom s (ep - 288) desc
  else seqRoom s (tileOfCore core) 1

end Sys2Proof.Machine
end

