-- ==== Sys2Proof/Machine/FenceOps.lean ====
section
/-!
DEFINITION. Machine/FenceOps.lean: aborts, fences, the flight sample's content, and the resets of a partition's units, shared
by faults, power, heat, tenants and the fabric (20 R462 to R479).
-/
namespace Sys2Proof.Machine

/-! ## Job-domain aborts (R468 to R470) -/

/-- An ABORT for the domain was sent or received within the past 10 ms. -/
def abortRecent (s : State) (j : Nat) : Bool := s.faults.aborts.any (fun e => e.1 == j && s.now < e.2 + 10000000)

/-- The domain's ABORT is remembered for 10 ms. -/
def recordAbort (s : State) (j : Nat) : State :=
  { s with faults := { s.faults with aborts := s.faults.aborts.filter (fun e => s.now < e.2 + 10000000) ++ [(j, s.now)] } }

/-- Who caused an abort (Table 20-4). -/
structure Origin where
  lpkg : Nat := 0
  part : Nat := 0
  valid : Bool := false
  operator : Bool := false
  deriving DecidableEq, Repr

/-- This package's partition as an origin. -/
def ownOrigin (s : State) (p : Nat) : Origin :=
  { lpkg := ownLpkg s, part := p, valid := (lpkgOf s s.boot.posId).isSome }

/-- The payload (Table 20-4). -/
def abortBytes (s : State) (reason : Nat) (o : Origin) : List Byte :=
  leBytes 32 (packBits [(s.tick.count.toNat, 64), (if o.valid then o.lpkg else 0, 6), (o.part, 2), (reason, 4),
    (b2n o.valid, 1), (b2n o.operator, 1)])

/-- One ABORT for a domain, to every other logical package, unless one was sent or received within 10 ms. -/
def sendAbort (s : State) (j reason : Nat) (o : Origin) : State :=
  if abortRecent s j then s
  else
    recordAbort ((otherLpkgs s).foldl (fun s l =>
      sendTo s l 344 { op := 0x20, vc := 0, srcEid := ownEid s 344, job := j } (abortBytes s reason o)) s) j

/-! ## Fences (R464, R466, Table 20-3) -/

/-- Why a partition is fenced. -/
structure Why where
  cause : Nat
  detectors : Nat := 0
  hungKind : Nat := 0
  hungIndex : Nat := 0
  /-- cause 10: the domain whose ABORT it was, for which no ABORT is sent -/
  job : Nat := 0
  origin : Origin := {}
  deriving DecidableEq, Repr

/-- Bodies of the commands a Gleaner holds: running, then its queues. -/
def glnHeld (g : Gleaner) : List Nat :=
  ((match g.running with | some c => [c] | none => []) ++ g.fw ++ g.high ++ g.normal).map (·.body)

/-- A Gleaner of a fenced partition: what it holds ends with ENDPOINT_FENCED (06, Coincidences), pieces toward the command
they belong to. -/
def fenceGleaner (s : State) (k : Nat) : State :=
  let g := glnOf s k
  let held := (match g.running with | some c => [c] | none => []) ++ g.fw ++ g.high ++ g.normal
  let s1 := setGln s k {}
  let s2 := held.foldl (fun s c =>
    match c.src with
    | .piece q id =>
      let h := glnOf s q
      setGln s q { h with opens := h.opens.map (fun o =>
        if o.id == id then { o with pieces := o.pieces - 1, status := if o.status == 0 then 4 else o.status } else o) }
    | _ => glnReport (writeGlnRecord s k { id := 0, cmd := c, status := 4 } {}) { id := 0, cmd := c, status := 4 }) s1
  g.opens.foldl (fun s o =>
    let o1 := { o with status := if o.status == 0 then 4 else o.status }
    glnReport (writeGlnRecord (dropPieces s k o.id) k o1 {}) o1) s2

/-- The migration touches a stack of the partition. -/
def moveTouches (p : Nat) (m : Migration) : Bool := partOfStack m.srcStack == p || partOfStack m.dstStack == p

/-- A sealed bale's load stops at the fence and is answered WRONG_STATE (19, Coincidences). -/
def stopBales (s : State) (p : Nat) : State :=
  let mine := fun (f : InFlight) => f.part == p && (match f.kind with
    | .baleLoad _ _ => true
    | _ => false)
  (s.mbx.flight.filter mine).foldl (fun s f => finish s (· == f) 0x21 [] true) s

/-- A fence begins: every step of time 0 of Table 20-3. `st` is the state the partition takes. -/
def beginFence (s : State) (p : Nat) (st : PState) (w : Why) : State :=
  let held := (stacksOf p).map (fun k => glnHeld (glnOf s k))
  let f : Fence := {
    cause := w.cause, detectors := w.detectors, job := if w.cause == 10 then w.job else 0, tick := s.tick.count.toNat,
    start := s.now, hungKind := w.hungKind, hungIndex := w.hungIndex, glns := held }
  let jobs := (partOf s p).jobs
  let s1 := failOpens (stopBales s p) (fun o => o.part == p) 4
  let s2 := setPState { s1 with faults := { s1.faults with fences := mset s1.faults.fences p f } } p st
  let s3 := failQps ((stacksOf p).foldl fenceGleaner s2) p
  let s4 := abandonMoves s3 (moveTouches p)
  let rel : Release := mget {} s4.tick.rel p
  let s5 := { s4 with tick := { s4.tick with rel := mset s4.tick.rel p { rel with out := false, late := false, lag := 0 } } }
  let s6 := faultLog s5 0x01 p [w.cause, w.detectors, f.job, w.hungKind, w.hungIndex]
  (jobs.filter (fun j => !(w.cause == 10 && j == w.job))).foldl (fun s j => sendAbort s j w.cause w.origin) s6

/-- A fence that detectors, commands or the fabric ask for: a partition that is ASSIGNED or RUNNING enters FENCED; any other
is not changed (R467, R470). -/
def fencePart (s : State) (p : Nat) (w : Why) : State :=
  if pstate s p == .running || pstate s p == .assigned then beginFence s p .fenced w else s

/-- A package acts on an abort of a domain (R470, R481, R487): its collectives fail with ABORTED, its members are fenced, and
no ABORT is sent for it for 10 ms. -/
def actOnAbort (s : State) (j cause : Nat) (o : Origin) : State :=
  let s1 := recordAbort (failOpens s (fun c => c.job == j) 9) j
  ((List.range 4).filter (fun p => (partOf s p).jobs.contains j)).foldl
    (fun s p => fencePart s p { cause := cause, job := j, origin := o }) s1

/-- A local abort with REASON 11 or 12 (R481, R487): ABORTs go out, and the package acts on the domain itself. -/
def localAbort (s : State) (j reason : Nat) (o : Origin) : State :=
  actOnAbort (sendAbort s j reason o) j reason o

/-- Domains of groups with a member whose logical package maps to a position. -/
def jobsWith (s : State) (pos : Nat) : List Nat :=
  (s.coll.groups.filter (fun g => g.members.any (fun m => lptPos s m.1 == some pos))).map (·.job) |>.eraseDups

/-- The aborts a lost position or a lost peer controller brings. -/
def abortPosition (s : State) (pos reason : Nat) : State :=
  let o : Origin := { lpkg := (lpkgOf s pos).getD 0, valid := (lpkgOf s pos).isSome }
  (jobsWith s pos).foldl (fun s j => localAbort s j reason o) s

/-! ## The flight sample (R471 to R473) -/

/-- The lowest-numbered working stack of a partition. -/
def workingStack (s : State) (p : Nat) : Option Nat := (stacksOf p).find? (fun k => !(stackOf s k).failed && !(stackOf s k).selfRefresh)

/-- TILE_ID (04 Table 4-7) of core `c` of a tile. -/
def tileId (s : State) (i c : Nat) : Nat :=
  packBits [(i, 9), (c, 2), (partOfTile i, 2), (ownLpkg s, 6), (i / 12 % 12, 4), (i % 12, 4), (i / 144, 1),
    (b2n (tileOf s i).movable, 1), (b2n (lpkgOf s s.boot.posId).isSome, 1)]

/-- WQ_STATUS (04 Table 4-5). -/
def wqStatus (k : Core) : Nat :=
  packBits [(32 - k.queue.length, 6), (b2n k.halted, 1), (b2n (queueEmpty k), 1), (coreInflight k, 8), (k.issued, 16),
    (k.completed, 16)]

/-- WQ_ERR (04 Table 4-6). -/
def wqErr (k : Core) : Nat := packBits [(k.errCause, 4), (k.errType, 4), (k.errIndex, 16)]

/-- A tile's state block (Table 20-6); its cores stopped at the instant `at_`. -/
def stateBlock (s : State) (at_ i : Nat) : Nat :=
  let u := tileOf s i
  packBits ([(tileId s i 0, 64), (u.flags.toNat, 64), (u.vseed, 64), (packBits [(u.eccCorr, 32), (u.eccUncorr, 16)], 64),
    (u.sheafTick, 64), (u.sheafSeq, 32), (u.stream.jobs.length, 3), (0, 1693)] ++
    (List.range 4).flatMap (fun c =>
      let k := coreOf s (4 * i + c)
      [((Config.corePc (4 * i + c) at_).toNat, 64), (k.mepc, 64), (k.mcause, 64), (k.mtval, 64), (wqStatus k, 64), (wqErr k, 64),
       (b2n (k.stall == some .sheafNext), 1), (b2n k.park, 1), (b2n k.done, 1), (0, 1149)]))

/-- A channel context (05 Table 5-1). -/
def chanWord (c : Chan) : Nat :=
  packBits [(b2n c.enable, 1), (b2n c.prio, 1), (b2n c.halted, 1), (0, 1), (c.errCause, 4), (c.errReason, 8), (c.rate, 9),
    (0, 7), (c.ageUs, 8), (c.dbCc, 12), (0, 12), (c.ringEntries, 13), (c.ringSpace, 2), (0, 1), (c.ringEid, 16),
    (c.ringAddr, 48), (0, 16), (c.head, 32), (c.done, 32)]

/-- A descriptor tag (Table 20-7). -/
def descTag (source where_ core st index : Nat) : Nat :=
  packBits [(source, 2), (where_, 9), (core, 2), (st, 2), (0, 1), (index, 32)]

/-- Descriptors of a core, issued then queued, in increasing INDEX. -/
def coreDescs (s : State) (c : Nat) : List (Nat × Nat) :=
  let k := coreOf s c
  let t := tileOf s (tileOfCore c)
  let jobs := ([t.matrix, t.vector, t.dma, t.stream, t.fwd, t.sync].flatMap (·.jobs)).filter (fun j => j.core == c)
  let order := (span k.completed 128).filterMap (fun i => jobs.find? (fun j => j.index == i % 65536))
  order.map (fun j => (descTag 0 (tileOfCore c) (c % 4) 1 j.index, j.desc)) ++
    k.queue.zipIdx.map (fun e => (descTag 0 (tileOfCore c) (c % 4) 0 (k.issued + e.2), e.1))

/-- The descriptor section of a partition (R473). -/
def sampleDescs (s : State) (p : Nat) : List (Nat × Nat) :=
  (span (288 * p) 288).flatMap (coreDescs s) ++
  (span (256 * p) 256).flatMap (fun ch => (workOf s ch).work.map (fun w => (descTag 1 (ch % 256) 0 2 w.index, w.desc))) ++
  (span (16 * p) 16).flatMap (fun ch => match mfind s.coll.heads ch with
    | some (d, i) => [(descTag 2 (ch % 16) 0 2 i, d)]
    | none => []) ++
  (s.eth.qps.filter (fun e => e.2.part == p)).flatMap (fun e => e.2.sendWork.map (fun w => (descTag 3 (e.1 % 512) 0 2 w.index, w.desc)))

/-- The sample of a fenced partition. -/
def buildSample (s : State) (p : Nat) (f : Fence) : Sample :=
  let inRange := fun (k : Nat) => partOfTile (k / spadBytes) == p && k % spadBytes < 65536
  { fence := f, drainNs := (f.drainEnd.getD f.start) - f.start, spad := s.mem.spad.filter (fun e => inRange e.1),
    gens := mkeep s.mem.gens (fun k _ => partOfTile k == p), blocks := (tilesOf p).map (stateBlock s f.start),
    descs := sampleDescs s p,
    chans := (span (256 * p) 256).map (fun ch => chanWord (chanOf s ch)) ++
      (span (16 * p) 16).map (fun ch => chanWord (mget {} s.coll.chans ch)),
    glns := f.glns }

/-- Offsets of the sections: descriptors, channels, Gleaners, and the end. -/
def sampleOffsets (m : Sample) : Nat × Nat × Nat × Nat :=
  let d := 64 + 66560 * 72
  let c := d + 72 * m.descs.length
  let g := c + 32 * m.chans.length
  (d, c, g, g + (m.glns.map (fun l => 2 + 64 * l.length)).sum)

/-- The header (Table 20-5). -/
def sampleHeader (p : Nat) (m : Sample) : Nat :=
  let f := m.fence
  let (d, c, g, e) := sampleOffsets m
  packBits [(e, 32), (p, 2), (0, 2), (f.cause, 4), (f.detectors, 4), (0, 4), (f.job, 16), (f.tick, 64), (m.drainNs, 32),
    (f.nacked, 16), (m.descs.length, 16), (d, 32), (c, 32), (g, 32), (f.hungKind, 4), (f.hungIndex, 12)]

/-- The bytes after the tile records. -/
def sampleTail (m : Sample) : List Byte :=
  m.descs.flatMap (fun e => leBytes 8 e.1 ++ leBytes 64 e.2) ++ m.chans.flatMap (leBytes 32) ++
  m.glns.flatMap (fun l => leBytes 2 l.length ++ l.flatMap (leBytes 64))

/-- Byte `i` of a sample. -/
def sampleByte (p : Nat) (m : Sample) (i : Nat) : Byte :=
  let (d, _, _, _) := sampleOffsets m
  if i < 64 then BitVec.ofNat 8 (sampleHeader p m / 256 ^ i)
  else if i < d then
    let n := (i - 64) / 66560
    let x := (i - 64) % 66560
    if x < 65536 then
      let k := spadBytes * (72 * p + n) + x
      match mfind m.spad k with
      | some b => b
      | none => (match mfind m.gens (72 * p + n) with
        | none => 0
        | some g => Config.spadFree g k)
    else BitVec.ofNat 8 (m.blocks.getD n 0 / 256 ^ (x - 65536))
  else (sampleTail m).getD (i - d) 0

/-! ## Resets of units (R476, R479) -/

/-- The partition's queues, engines, accumulators, completion counters, channel contexts and Gleaner queues. -/
def resetUnits (s : State) (p : Nat) : State :=
  let mine := fun (i : Nat) => partOfTile i == p
  { s with
    tiles := mmap s.tiles (fun i (t : Tile) => if mine i then
      { t with accs := [], matrix := {}, vector := {}, dma := {}, stream := {}, fwd := {}, sync := {} } else t),
    cores := mmap s.cores (fun c (k : Core) => if mine (c / 4) then
      { k with stage := [], queue := [], halted := false, issued := 0, completed := 0, errCause := 0, errType := 0,
               errIndex := 0, idleTicks := 0, progress := false, fails := [], writes := [], stores := [] } else k),
    ccs := mkeep s.ccs (fun k _ => k / 4096 != p),
    wain := { chans := mkeep s.wain.chans (fun k _ => k / 256 != p), works := mkeep s.wain.works (fun k _ => k / 256 != p),
              engines := mkeep s.wain.engines (fun k _ => k / 8 != p) },
    glns := mkeep s.glns (fun k _ => partOfStack k != p),
    coll := { s.coll with
      chans := mkeep s.coll.chans (fun k _ => k / 16 != p), heads := mkeep s.coll.heads (fun k _ => k / 16 != p),
      groups := s.coll.groups.map (fun g => if g.part == p then { g with waiting := [] } else g) } }

/-- Tiles and cores of a partition at their reset values; placement's MOVABLE marks stay. -/
def resetTiles (s : State) (p : Nat) : State :=
  { s with
    tiles := mmap s.tiles (fun i (t : Tile) => if partOfTile i == p then { movable := t.movable } else t),
    cores := mkeep s.cores (fun c _ => partOfTile (c / 4) != p) }

/-- Scratchpads whose words may hold any value: each tile's unlisted bytes become free values (R479, log 6). -/
def scrambleSpads (s : State) (p : Nat) : State :=
  { s with mem := { s.mem with
      spad := s.mem.spad.filter (fun e => partOfTile (e.1 / spadBytes) != p),
      gens := (tilesOf p).foldl (fun m i => mset m i (mget 0 m i + 1)) s.mem.gens } }

/-- Scratchpads cleared to zero (Winnow, bring-up). -/
def clearSpads (s : State) (p : Nat) : State :=
  { s with mem := { s.mem with
      spad := s.mem.spad.filter (fun e => partOfTile (e.1 / spadBytes) != p),
      gens := mkeep s.mem.gens (fun k _ => partOfTile k != p) } }

/-- A stack's health record at its reset values: its counts (07 Table 7-5). -/
def resetHealth (s : State) (k : Nat) : State :=
  setStack s k { stackOf s k with corrLines := 0, uncorrLines := 0, poisonReads := 0, testMismatch := 0 }

/-- Pending and delivered bits of the partition's event range, in every function. -/
def clearEvtRange (s : State) (p : Nat) : State :=
  { s with evt := { s.evt with bits := mmap s.evt.bits (fun k (b : EvtBit) =>
      if 128 + 96 * p ≤ k % 512 && k % 512 < 128 + 96 * (p + 1) then { b with pend := false, dlvd := false } else b) } }

/-- QPs of a partition are released (12 R315). -/
def releaseQps (s : State) (p : Nat) : State :=
  { s with eth := { s.eth with qps := mkeep s.eth.qps (fun _ q => q.part != p) } }

/-- What a partition reset returns to its reset values (R479). -/
def resetPartition (s : State) (p : Nat) : State :=
  let s1 := releaseQps (scrambleSpads (resetTiles (resetUnits s p) p) p) p
  let s2 := clearEvtRange (setPartRec ((stacksOf p).foldl resetHealth s1) p {}) p
  let rel : Release := mget {} s2.tick.rel p
  { s2 with tick := { s2.tick with
      rel := mset s2.tick.rel p { rel with late := false, lag := 0, out := false },
      overruns := mkeep s2.tick.overruns (fun k _ => k % 4 != p) } }

end Sys2Proof.Machine
end

