-- ==== Sys2Proof/Machine/KeyOps.lean ====
section
/-!
DEFINITION. Machine/KeyOps.lean: what keys do at step 5 of a boundary: rotations, the switch of epochs, and the destruction of
old ones (19 R450 to R455).
-/
namespace Sys2Proof.Machine

/-! ## Cellar keys (R450 to R452) -/

/-- The Cellar's old epoch still has a key. -/
def Cellar.both (c : Cellar) : Bool := c.k0.isSome && c.k1.isSome

/-- A written sector that names the old epoch and is not poisoned. -/
def underOld (c : Cellar) (e : Nat × Sector) : Bool := e.2.epoch != c.cur && !e.2.poisoned

/-- Sectors still under the old epoch (R451, R456). -/
def oldSectors (c : Cellar) : Nat := (c.table.filter (underOld c)).length

/-- A staged rotation commits (R450): the DRBG fills the other epoch's slot, which becomes current, and the walk begins. None
where the partition holds no key, the old epoch's key exists, or the DRBG has failed. -/
def rotateCellar (s : State) (p : Nat) : Option State :=
  let c := cellarOf s p
  if !c.lent || c.both || s.keys.drbgFailed then none
  else
    let new := some s.freeCtr
    some (setCellar s.drawn p { c with
      k0 := if c.cur == 0 then c.k0 else new, k1 := if c.cur == 0 then new else c.k1, cur := 1 - c.cur, walk := some 0 })

/-- The old epoch's key is destroyed (R452). -/
def dropCellarKey (s : State) (p : Nat) : State :=
  let c := cellarOf s p
  setCellar s p { c with k0 := if c.cur == 0 then c.k0 else none, k1 := if c.cur == 0 then none else c.k1, destroyIn := none }

/-- A Cellar's step 5: one boundary fewer, and at the second the key goes. -/
def cellarStep5 (s : State) (p : Nat) : State :=
  match (cellarOf s p).destroyIn with
  | none => s
  | some n => if n ≤ 1 then dropCellarKey s p else setCellar s p { cellarOf s p with destroyIn := some (n - 1) }

/-! ## Link keys (R454) -/

/-- The old epoch's keys of a link, in both directions, are destroyed. -/
def dropLinkKey (s : State) (k : Nat) : State :=
  let l := linkOf s k
  let y := l.key
  setLink s k { l with key := { y with
    k0 := if y.cur == 0 then y.k0 else none, k1 := if y.cur == 0 then none else y.k1, destroyIn := none } }

/-- A ready rotation switches at step 5 of the flip tick, or, that tick having passed when the agreement ended, of the first
boundary at least 2 us after it. -/
def flipDue (s : State) (y : LinkKey) : Bool :=
  match y.readyAt with
  | none => false
  | some a => (y.flipTick != 0 && y.flipTick == s.tick.count.toNat) || (y.flipTick < s.tick.count.toNat && a + 2000 ≤ s.now)

/-- RESYNC of a link's lanes counts anew under a new key. -/
def restartResync (s : State) (k : Nat) : State :=
  (List.range 3).foldl (fun s i => setLane s (3 * k + i) { laneOf s (3 * k + i) with resync := 0 }) s

/-- A link's step 5. -/
def linkStep5 (s : State) (k : Nat) : State :=
  let y := (linkOf s k).key
  let s1 := match y.destroyIn with
    | none => s
    | some n =>
      if n ≤ 1 then dropLinkKey s k
      else setLink s k { linkOf s k with key := { y with destroyIn := some (n - 1) } }
  let z := (linkOf s1 k).key
  if flipDue s1 z then
    let s2 := setLink s1 k { linkOf s1 k with key := { z with cur := 1 - z.cur, readyAt := none, rotation := false, destroyIn := some 2 } }
    { restartResync s2 k with keys := { s2.keys with rotations := satAdd max16 s2.keys.rotations 1 } }
  else s1

/-! ## The encryption mode (R455) -/

/-- One tick of the two in which receivers accept both modes has passed. -/
def graceStep (s : State) : State := { s with keys := { s.keys with graceTicks := s.keys.graceTicks - 1 } }

/-- A staged LINK_ENC_SET commits. -/
def commitEnc (s : State) (on : Bool) : State := { s with keys := { s.keys with linkEnc := on, graceTicks := 2 } }

/-! ## Sessions -/

def spdmOf (s : State) (path : Nat) : Spdm := mget {} s.keys.spdm path
def setSpdm (s : State) (path : Nat) (v : Spdm) : State := { s with keys := { s.keys with spdm := mset s.keys.spdm path v } }

/-- A path's secure session ends, and with it its credential and the attested state (R437, R444). -/
def endSpdm (s : State) (path : Nat) : State := { s with keys := { s.keys with spdm := mdel s.keys.spdm path } }

/-- Model key slots of a partition: (KEY_ID, key). -/
def modelSlots (s : State) (p : Nat) : List (Nat × Nat × Nat) := s.keys.model.filter (fun e => e.1 / 4 == p)

/-- A commands' keys go: model, Cellar and IDE keys, and the tenant session (Table 19-9, keys phase). -/
def destroyKeys (s : State) (p : Nat) : State :=
  let s1 := endSpdm (setCellar s p {}) (p + 1)
  { s1 with
    keys := { s1.keys with model := mkeep s1.keys.model (fun k _ => k / 4 != p) },
    host := { s1.host with ide := mkeep s1.host.ide (fun k _ => k / 2 != p + 1) } }

end Sys2Proof.Machine
end

