-- ==== Sys2Proof/Machine/Requests.lean ====
section
/-!
DEFINITION. Machine/Requests.lean: how the request of each kind of owner ends: answered, refused or timed out (10 R243, R265;
04 R110; 05 R133).
-/
namespace Sys2Proof.Machine

/-- A request that a descriptor waits for comes to nothing: the first failure is the descriptor's CAUSE. -/
def jobReqFail (s : State) (c u index seq cause : Nat) : State :=
  match jobOf s c u index with
  | none => s
  | some j => setJob s u { j with reqs := j.reqs.filter (· != seq), fail := some (j.fail.getD cause) }

/-- A request that a descriptor waits for is answered. -/
def jobReqDone (s : State) (c u index seq : Nat) : State :=
  match jobOf s c u index with
  | none => s
  | some j => setJob s u { j with reqs := j.reqs.filter (· != seq) }

/-- A write of a COPY is no longer outstanding. -/
def copyWriteGone (s : State) (c seq : Nat) : State :=
  let k := coreOf s c
  setCore s c { k with writes := k.writes.filter (fun w => w.1 != seq), progress := true }

/-- A board store is no longer outstanding. -/
def storeGone (s : State) (c seq : Nat) : State :=
  let k := coreOf s c
  setCore s c { k with stores := k.stores.filter (· != seq) }

/-- A board load that stalled its core is over. -/
def loadGone (s : State) (c seq : Nat) : State :=
  let k := coreOf s c
  if k.stall == some (.boardLoad seq) then setCore s c { k with stall := none } else s

/-- A request ends in failure, with the CAUSE of its NACK, or 4 for a timeout (R243, R265): writes are reported by a FENCE,
reads and updates by their descriptor, a board load by a load fault, a board store by a store fault or, timed out, by
nothing. -/
def reqFail (s : State) (r : OutReq) (cause : Nat) : State :=
  match r.owner with
  | .copy c => holdFail (copyWriteGone s c r.seq) c cause
  | .put c => holdFail s c cause
  | .copyRead c i _ => jobReqFail s c 3 i r.seq cause
  | .sync c i => jobReqFail s c 4 i r.seq cause
  | .forward c i => jobReqFail s c 6 i r.seq cause
  | .store c a => let s1 := storeGone s c r.seq; if cause == 4 then s1 else coreTrap s1 c 7 a
  | .load c a _ => coreTrap (loadGone s c r.seq) c 5 a
  | .wainRead ch i first k => burstReadFail s ch i first k cause
  | .wainWrite ch i => if cause == 4 then wainWriteTimeout s ch r.seq else wainWriteFail (wainWriteGone s ch r.seq) ch i cause
  | .coll _ => s

/-- A write or update is acknowledged. -/
def ackDone (s : State) (r : OutReq) : State :=
  match r.owner with
  | .copy c => copyWriteGone s c r.seq
  | .store c _ => storeGone s c r.seq
  | .sync c i =>
    (match jobOf s c 4 i with
     | none => s
     | some j => completeJob s 4 { j with reqs := [] })
  | .wainWrite ch _ => wainWriteGone s ch r.seq
  | _ => s

/-- A read is answered with its bytes. -/
def readDone (s : State) (r : OutReq) (bs : List Byte) : State :=
  match r.owner with
  | .copyRead c i dst =>
    (match jobOf s c 3 i with
     | none => s
     | some j =>
       let (out, fl) := convLine (cConv j.desc) (cSat j.desc) bs
       let s1 := raiseFlags (landSpad s (tileOfCore c) dst out (dccOf j.desc)) (tileOfCore c) fl
       jobReqDone s1 c 3 i r.seq)
  | .load c _ n => (loadGone s c r.seq).emit (.coreRead c (leNat (bs.take n)))
  | .wainRead ch i first k => burstReadDone s ch i first k bs
  | _ => s

/-- REQUEST_TIMEOUT (R265): no answer within the limit, measured from the request's injection. A forwarder's wait has its own
step. -/
def execRequestTimeout (t ep q : Nat) (s : State) : Out :=
  run t s fun s =>
    match findReq s ep q with
    | none => s
    | some r => gate (r.kind != .gleaner && injected s r && decide (r.at_ + r.limit ≤ s.now))
        (fun s => reqFail (timeoutReq s r) r 4) s

/-- SEQ_HOLD_END (R264): the value is free again. -/
def execSeqHoldEnd (t ep q : Nat) (s : State) : Out :=
  run t s fun s =>
    { s with fab := { s.fab with holds := s.fab.holds.filter (fun h => !(h.ep == ep && h.seq == q && h.until_ ≤ s.now)) } }

end Sys2Proof.Machine
end

