-- ==== Sys2Proof/Machine/Faults.lean ====
section
/-!
DEFINITION. Machine/Faults.lean: hang detection, the end of a fence, the flight sample, suspect replay, aborts ordered by a
command, and the fault log (20).
-/
namespace Sys2Proof.Machine

/-! ## Hang detection (R463, R464) -/

/-- A boundary is to be made now: its step 1 judges the detectors. -/
def boundaryDue (s : State) : Bool :=
  match s.tick.due with
  | some d => decide (d ≤ s.now)
  | none => false

/-- Boundaries without progress, counting the one that is due. -/
def idleNow (idle : Nat) (progress : Bool) : Nat := if progress then 0 else idle + 1

/-- The sequencer watchdog of a queue fires (04 R94). -/
def queueHung (k : Core) : Bool :=
  k.wdog != 0 && !queueEmpty k && decide (k.wdog ≤ idleNow k.idleTicks k.progress)

/-- A stream-out engine or forwarder whose descriptors all wait under their own rules: judged with their queue. -/
def unitWaits (s : State) (u : Nat) (e : Engine) : Bool :=
  if u == 5 then e.jobs.all (fun j => !blockEligible s j.core j)
  else if u == 6 then e.jobs.all (fun j => s.now < j.issuedAt + j.limit)
  else false

/-- The engine-stall detector of a tile's unit fires. -/
def unitHung (s : State) (i u : Nat) : Bool :=
  let e := engineOf (tileOf s i) u
  !e.jobs.isEmpty && !unitWaits s u e && decide (16 ≤ idleNow e.idleTicks e.progress)

/-- The engine-stall detector of a Gleaner fires. -/
def glnHung (s : State) (k : Nat) : Bool :=
  let g := glnOf s k
  !((glnHeld g).isEmpty && g.opens.isEmpty) && decide (16 ≤ idleNow g.idleTicks g.progress)

/-- The Wain-stall detector of a channel fires (05 R134). -/
def chanHung (s : State) (ch : Nat) : Bool :=
  let w := workOf s ch
  (match w.work with
   | [] => false
   | x :: _ => wOp x.desc != 2) && decide (16 ≤ idleNow w.idleTicks w.progress)

/-- The sheaf-late detector fires: the fifth boundary after the release (02 R51). -/
def sheafHung (s : State) (p : Nat) : Bool :=
  let r : Release := mget {} s.tick.rel p
  r.out && !r.excused && decide (5 ≤ r.since + 1)

/-- Cores of a partition whose watchdog fires, tile units (unit, tile), Gleaners and channels, in the order of Table 20-2. -/
def hungQueues (s : State) (p : Nat) : List Nat := (span (288 * p) 288).filter (fun c => queueHung (coreOf s c))
def hungUnits (s : State) (p : Nat) : List (Nat × Nat) :=
  (tilesOf p).flatMap (fun i => ([1, 2, 3, 5, 6].filter (unitHung s i)).map (fun u => (u, i)))
def hungGlns (s : State) (p : Nat) : List Nat := (stacksOf p).filter (glnHung s)
def hungChans (s : State) (p : Nat) : List Nat := (span (256 * p) 256).filter (chanHung s)

/-- HUNG_KIND of a tile's unit (Table 20-5). -/
def kindOfUnit (u : Nat) : Nat :=
  match u with
  | 1 => 2 | 2 => 3 | 3 => 4 | 5 => 5
  | _ => 6

/-- The hung unit recorded: the first in the order of Table 20-2. -/
def hungUnit (s : State) (p : Nat) : Nat × Nat :=
  match hungQueues s p with
  | c :: _ => (1, c)
  | [] =>
    match hungUnits s p with
    | (u, i) :: _ => (kindOfUnit u, i)
    | [] =>
      match hungGlns s p with
      | k :: _ => (7, k)
      | [] =>
        match hungChans s p with
        | ch :: _ => (8, ch % 256)
        | [] => (0, 0)

/-- The detectors of a partition are judged at step 1; where any fires, its events are raised and the fence begins with the
lowest cause (R464). -/
def detect (s : State) (p : Nat) : State :=
  if pstate s p != .running && pstate s p != .assigned then s
  else
    let d := [!(hungQueues s p).isEmpty, !(hungUnits s p).isEmpty || !(hungGlns s p).isEmpty, !(hungChans s p).isEmpty,
      sheafHung s p]
    match (span 1 4).find? (fun c => d.getD (c - 1) false) with
    | none => s
    | some cause =>
      let (kind, index) := hungUnit s p
      let s1 := if d.getD 0 false then firePart s p 3 else s
      let s2 := if d.getD 2 false then firePart s1 p 5 else s1
      beginFence s2 p .fenced { cause := cause, detectors := packBits (d.map (fun b => (b2n b, 1))), hungKind := kind,
                                hungIndex := index, origin := ownOrigin s p }

/-- SHEAF_HUNG (02 R51). -/
def execSheafHung (t p : Nat) (s : State) : Out :=
  run t s fun s => gate (boundaryDue s && decide (p < 4) && sheafHung s p) (fun s => detect s p) s

/-- SEQUENCER_WATCHDOG (04 R94). -/
def execSequencerWatchdog (t c : Nat) (s : State) : Out :=
  run t s fun s => gate (boundaryDue s && decide (c < 1152) && queueHung (coreOf s c)) (fun s => detect s (partOfCore c)) s

/-- ENGINE_STALL (R463): a tile's unit (1 matrix, 2 vector, 3 tile DMA, 5 stream-out, 6 forwarder), or a Gleaner (7). -/
def execEngineStall (t u i : Nat) (s : State) : Out :=
  run t s fun s =>
    if u == 7 then gate (boundaryDue s && decide (i < 12) && glnHung s i) (fun s => detect s (partOfStack i)) s
    else gate (boundaryDue s && decide (i < 288) && [1, 2, 3, 5, 6].contains u && unitHung s i u)
      (fun s => detect s (partOfTile i)) s

/-- WAIN_STALL (05 R134). -/
def execWainStall (t ch : Nat) (s : State) : Out :=
  run t s fun s => gate (boundaryDue s && decide (ch < 1024) && chanHung s ch) (fun s => detect s (partOfChan ch)) s

/-! ## The end of a fence (R466, R471, R478) -/

def fenceOf (s : State) (p : Nat) : Option Fence := mfind s.faults.fences p
def setFence (s : State) (p : Nat) (f : Fence) : State := { s with faults := { s.faults with fences := mset s.faults.fences p f } }
def dropFence (s : State) (p : Nat) : State := { s with faults := { s.faults with fences := mdel s.faults.fences p } }

/-- The fence is complete: a PART_FENCE is answered, and a PART_RESET that waited goes on to RESETTING (R466, R478). -/
def fenceComplete (s : State) (p : Nat) (f : Fence) : State :=
  let s1 := setFence s p { f with complete := true }
  let s2 := finish s1 (fun x => x.kind == .partFence && x.part == p) 0 [] true
  if s2.mbx.flight.any (fun x => x.kind == .partReset && x.part == p) then
    resetPartition (setPState (dropFence s2 p) p .resetting) p
  else s2

/-- The end of the drain (R466): each outbound request still unanswered fails as a declared timeout (10 R265). Inbound ones that
its Gleaners held were answered at the fence's start. -/
def drained (s : State) (p : Nat) : State :=
  (s.fab.reqs.filter (fun r => r.part == p)).foldl (fun s r => reqFail (timeoutReq s r) r 4) s

/-- FENCE_DRAIN_END (R466): 100 us after the start, and not before the Cellar's dirty sectors are written or R311 gives up on
them. Fences of causes 8 and 9, and those that take no sample, are complete. A Winnow's fence writes no dirty sector, and its
keys phase follows (19 R458). -/
def execFenceDrainEnd (t p : Nat) (s : State) : Out :=
  run t s fun s =>
    match fenceOf s p with
    | none => s
    | some f =>
      let dirty := (cellarOf s p).buf.any (·.dirty)
      gate (f.drainEnd.isNone && decide (f.start + 100000 ≤ s.now) &&
          (!dirty || f.cause == 8 || canMaster s (p + 1) || decide (f.start + 10000000 ≤ s.now))) (fun s =>
        let s1 := drained (if f.cause != 8 && canMaster s (p + 1) then cleanCellar s p else s) p
        let f1 := { f with drainEnd := some s.now }
        if f.cause == 8 then destroyKeys (dropFence s1 p) p
        else if f.cause == 9 then dropFence s1 p
        else if s1.mbx.headless || (workingStack s1 p).isNone then fenceComplete s1 p f1
        else setFence s1 p f1) s

/-- FLIGHT_SAMPLE_STORE (R471, R474): the active Hayward stores the sample; the fence is complete. -/
def execFlightSampleStore (t p : Nat) (s : State) : Out :=
  run t s fun s =>
    match fenceOf s p with
    | none => s
    | some f => gate (f.drainEnd.isSome && !f.complete && serving s) (fun s =>
        let m := buildSample s p f
        let s1 := { s with faults := { s.faults with samples := mset s.faults.samples p m } }
        let first := (m.descs.find? (fun e => bits e.1 13 2 != 0)).getD (0, 0)
        fenceComplete (faultLog s1 0x02 p [f.cause, m.descs.length, first.1, first.2 % 2 ^ 128]) p f) s

/-- FLIGHT_SAMPLE_READ (R471). -/
def execFlightSampleRead (t : Nat) (a : MbxArgs) (s : State) : Out :=
  let len := fun (r : Req) (s : State) =>
    match mfind s.faults.samples r.part with
    | none => 0
    | some m =>
      let top := if r.ploc == 0 && r.mb != 5 then 32 else if r.ploc == 1 then 4096 else 2 ^ 28 - 1
      min (min r.respMax top) ((sampleOffsets m).2.2.2 - r.f 0 32)
  mbxCmd { opcode := 0x0901, rights := 3, pkg := .uc, partUse := .one,
           parts := some [.assigned, .running, .fenced, .failed, .dormant] } anyReq
    (fun r s => { wrong := (mfind s.faults.samples r.part).isNone, resp := some (len r s) })
    (fun r s =>
      match mfind s.faults.samples r.part with
      | none => (s, .done 0x21 [])
      | some m => (s, .done 0 ((span (r.f 0 32) (len r s)).map (sampleByte r.part m)))) t a s

/-! ## Suspect replay (R475 to R477) -/

/-- The unit that runs a work-queue descriptor. -/
def unitOfDesc (d : Nat) : Nat := dType d

/-- Suspects of a sample, with their tags (R475). A Gleaner's commands carry no tag of Table 20-7: the stack and the place
stand in one (log 26). -/
def suspectsOf (p : Nat) (m : Sample) : List (Nat × Nat) :=
  let f := m.fence
  let st := fun (e : Nat × Nat) => bits e.1 13 2
  let live := m.descs.filter (fun e => st e == 1 || st e == 2)
  match f.hungKind with
  | 0 => live
  | 1 =>
    let mine := m.descs.filter (fun e => bits e.1 0 2 == 0 && 4 * bits e.1 2 9 + bits e.1 11 2 == f.hungIndex)
    mine.filter (fun e => st e == 1) ++ (mine.filter (fun e => st e == 0)).take 1
  | 7 => ((m.glns.getD (f.hungIndex - 3 * p) []).zipIdx).map (fun e => (descTag 0 f.hungIndex 0 1 e.2, e.1))
  | 8 => live.filter (fun e => bits e.1 0 2 == 1 && bits e.1 2 9 == f.hungIndex)
  | k => live.filter (fun e => bits e.1 0 2 == 0 && bits e.1 2 9 == f.hungIndex && kindOfUnit (unitOfDesc e.2) == k)

/-- The suspect would send a packet off the package (R476). -/
def leavesPackage (s : State) (p : Nat) (gln : Bool) (e : Nat × Nat) : Bool :=
  let d := e.2
  let c := 4 * bits e.1 2 9 + bits e.1 11 2
  let src := bits e.1 0 2
  let far := fun (t : Tgt) => isFar t
  if gln then gEid d / 1024 != ownLpkg s
  else if src == 1 then
    let ch := 256 * p + bits e.1 2 9
    wOp d == 1 && (far (wainSrc s ch d (wSrc d) (wSrcLen d)) || far (wainDst s ch d (wDst d) (wDstLen d)))
  else if src != 0 then true
  else match dType d with
    | 3 => cOp d == 0 && (far (srcTgt s c d 0) || far (dstTgt s c d 0))
    | 4 => yRemote d && yOp d != 2 && yEid d / 1024 != ownLpkg s
    | 5 => oTarget d == 0 || (oDstSpace d != 2 && oDstEid d / 1024 != ownLpkg s)
    | 6 => gEid d / 1024 != ownLpkg s
    | _ => false

/-- WAIT_EN, SIG_EN and DCC_EN cleared. -/
def alone (gln : Bool) (e : Nat × Nat) : Nat :=
  if gln then e.2
  else
    let d := setBits e.2 4 2 0
    if bits e.1 0 2 == 1 then setBits d 353 1 0
    else match dType d with
      | 3 => setBits d 306 1 0
      | 5 => setBits d 266 1 0
      | _ => d

/-- The sample's suspects are Gleaner commands. -/
def glnReplay (s : State) (p : Nat) : Bool := ((mfind s.faults.samples p).map (fun m => m.fence.hungKind)) == some 7

/-- A suspect is pushed alone. -/
def pushSuspect (s : State) (p : Nat) (e : Nat × Nat) : State :=
  let gln := glnReplay s p
  let d := alone gln e
  if gln then setGln s (bits e.1 2 9) { fw := [{ body := d, src := .firmware, arrived := s.now, ses := sessionOf s p }] }
  else if bits e.1 0 2 == 1 then
    let ch := 256 * p + bits e.1 2 9
    setWork (setChan s ch { enable := true }) ch { work := [{ desc := d, index := 0 }] }
  else
    let c := 4 * bits e.1 2 9 + bits e.1 11 2
    setCore s c { coreOf s c with queue := [d] }

/-- The suspect under way has completed or failed. -/
def suspectEnded (s : State) (p : Nat) (e : Nat × Nat) : Bool :=
  if glnReplay s p then
    let g := glnOf s (bits e.1 2 9)
    (glnHeld g).isEmpty && g.opens.isEmpty
  else if bits e.1 0 2 == 1 then
    let ch := 256 * p + bits e.1 2 9
    (workOf s ch).work.isEmpty || (chanOf s ch).halted
  else queueEmpty (coreOf s (4 * bits e.1 2 9 + bits e.1 11 2))

def setReplay (s : State) (p : Nat) (r : Replay) : State :=
  { s with faults := { s.faults with replays := mset s.faults.replays p r } }

/-- The next suspect runs, those that would leave the package being skipped. -/
def nextSuspect (s : State) (p : Nat) (r : Replay) : List (Nat × Nat) → State
  | [] => setReplay s p r
  | e :: l =>
    if leavesPackage s p (glnReplay s p) e then
      nextSuspect s p { r with next := r.next + 1, skipped := r.skipped + 1 } l
    else pushSuspect (setReplay s p { r with startedAt := s.now }) p e

/-- REPLAY (R476). -/
def execReplay (t : Nat) (a : MbxArgs) (s : State) : Out :=
  mbxCmd { opcode := 0x0902, rights := 3, pkg := .uc, partUse := .one, parts := some [.fenced], resp := 8 } anyReq
    (fun r s => { bad := r.f 0 16 == 0 || 10000 < r.f 0 16,
                  wrong := (mfind s.faults.samples r.part).isNone || !((fenceOf s r.part).map (·.complete)).getD false })
    (fun r s =>
      match mfind s.faults.samples r.part with
      | none => (s, .done 0x21 [])
      | some m =>
        if replaying s r.part then (s, .done 0x30 [])
        else
          let l := suspectsOf r.part m
          let v : Replay := { suspects := l, ms := r.f 0 16, startedAt := s.now }
          (nextSuspect (setReplay (resetUnits s r.part) r.part v) r.part v l, .prog .replay)) t a s

/-- REPLAY_SUSPECT_TIMEOUT (R476): the suspect under way is cleared where it has ended; still incomplete at SUSPECT_MS it has
hung again, and its unit is reset. Then the next one runs. -/
def execReplaySuspectTimeout (t p : Nat) (s : State) : Out :=
  run t s fun s =>
    match mfind s.faults.replays p with
    | none => s
    | some r =>
      match r.suspects[r.next]? with
      | none => s
      | some e =>
        let late := decide (r.startedAt + 1000000 * r.ms ≤ s.now)
        let ended := suspectEnded s p e
        gate (ended || late) (fun s =>
          let r1 := { r with next := r.next + 1, hung := if ended then r.hung else r.hung ++ [r.next] }
          nextSuspect (resetUnits s p) p r1 (r.suspects.drop (r.next + 1))) s

/-- The replay result (Table 20-8). -/
def replayResult (r : Replay) : Nat :=
  let named := (r.hung.head?.bind (fun i => r.suspects[i]?)).getD (0, 0)
  let res := if r.skipped == r.suspects.length then 3 else if r.hung.isEmpty then 0 else if r.hung.length == 1 then 1 else 2
  packBits [(res, 2), (bits named.1 0 2, 2), (bits named.1 2 9, 9), (bits named.1 11 2, 2), (0, 1), (bits named.1 16 16, 16),
    (min 255 r.suspects.length, 8), (min 255 r.skipped, 8), (min 255 r.hung.length, 8)]

/-- The replay of a partition ends: the result is posted and logged (R477). -/
def endReplay (s : State) (p : Nat) (r : Replay) : State :=
  let s1 := faultLog { s with faults := { s.faults with replays := mdel s.faults.replays p } } 0x04 p [replayResult r]
  finish (resetUnits s1 p) (fun f => f.kind == .replay && f.part == p) 0 (leBytes 8 (replayResult r)) true

/-- REPLAY_COMPLETE (R477). -/
def execReplayComplete (t p : Nat) (s : State) : Out :=
  run t s fun s =>
    match mfind s.faults.replays p with
    | none => s
    | some r => gate (decide (r.suspects.length ≤ r.next)) (fun s => endReplay s p r) s

/-! ## Commands (15 Table 15-20) -/

/-- JOB_ABORT (R468, R469). -/
def execJobAbort (t : Nat) (a : MbxArgs) (s : State) : Out :=
  mbxCmd { opcode := 0x0904, rights := 3, pkg := .c, partUse := .free } anyReq
    (fun r s => { bad := r.f 0 16 == 0, denied := r.tenant && !(partOf s r.part).jobs.contains (r.f 0 16) })
    (fun r s =>
      let own := ownOrigin s (if r.op then 0 else r.part)
      let o := { own with operator := r.op }
      (actOnAbort (sendAbort s (r.f 0 16) 7 o) (r.f 0 16) 7 o, ok)) t a s

/-- VIOLATION_READ (10 R267): 12,352 bytes; the class counts clear. -/
def execViolationRead (t : Nat) (a : MbxArgs) (s : State) : Out :=
  mbxCmd { opcode := 0x0903, rights := 1, pkg := .any, partUse := .pkg, resp := 12352 } anyReq noChk
    (fun _ s =>
      let counts := (List.range 9).flatMap (fun c => leBytes 4 (mget 0 s.fab.classes (c + 1)))
      let caps := s.fab.captures.flatMap (fun c => leBytes 32 c.hdr ++ leBytes 4 c.link ++ leBytes 4 c.cls ++ leBytes 8 c.tick)
      ({ s with fab := { s.fab with classes := [] } }, .done 0 (fit 12352 (fit 64 counts ++ caps)))) t a s

/-- An entry of the log (Table 20-12). -/
def logBytes (e : LogEntry) : List Byte :=
  leBytes 64 (packBits [(e.seq, 64), (e.tick, 64), (e.aonMs, 64), (e.boot, 16), (e.type, 8), (e.severity, 2), (e.part, 3),
    (0, 3), (Config.faultData e.type e.data, 288)])

/-- The log's image from a byte on (R489). -/
def logImage (s : State) (off n : Nat) : List Byte :=
  let l := s.faults.store
  let hdr := leBytes 64 (packBits [(l.length, 32), (s.faults.dropped, 32), ((l.head?.map (·.seq)).getD 0, 64)])
  ((hdr ++ l.flatMap logBytes).drop off).take n

/-- FAULT_LOG_READ (R489). -/
def execFaultLogRead (t : Nat) (a : MbxArgs) (s : State) : Out :=
  let len := fun (r : Req) (s : State) =>
    let top := if r.ploc == 0 && r.mb != 5 then 32 else if r.ploc == 1 then 4096 else 2 ^ 28 - 1
    min (min r.respMax top) (64 + 64 * s.faults.store.length - r.f 0 32)
  mbxCmd { opcode := 0x0900, rights := 1, pkg := .any, partUse := .pkg } anyReq
    (fun r s => { resp := some (len r s) })
    (fun r s => (s, .done 0 (logImage s (r.f 0 32) (len r s)))) t a s

/-- The store's ring takes the buffered entries; when it is full the oldest sector of 1,024 is erased (R488). -/
def flushLog (s : State) : State :=
  let all := s.faults.store ++ s.faults.buffer
  let excess := if 262144 < all.length then (all.length - 262144 + 1023) / 1024 * 1024 else 0
  { s with faults := { s.faults with store := all.drop excess, buffer := [] } }

/-- FAULT_LOG_FLUSH (R488): the hold-up energy check comes first (21 R496). -/
def execFaultLogFlush (t bankMv : Nat) (s : State) : Out :=
  run t s fun s => gate (serving s && !s.faults.buffer.isEmpty && s.fw.heldOp.isNone) (fun s =>
    let need := if 262144 < s.faults.store.length + s.faults.buffer.length then eraseMJ else programMJ
    if energyOk s bankMv need then flushLog s else energyFail s 2 bankMv) s

end Sys2Proof.Machine
end

