-- ==== Sys2Proof/Machine/Lanes.lean ====
section
/-!
DEFINITION. Machine/Lanes.lean: lanes and links: training, live adaptation, margins, drops, codewords and link flits, and the
fabric commands on links and lanes (09, 10 R254, 15 Tables 15-11).
-/
namespace Sys2Proof.Machine

/-! ## Lanes of a link (R220) -/

def laneNo (k i : Nat) : Nat := 3 * k + i

/-- The lanes of the fabric have power and may train: from stage S7 on, outside Off and a flow stop (R236). -/
def fabricOn (s : State) : Bool :=
  (match s.boot.stage with | none => false | some n => decide (7 ≤ n)) && !s.heat.stopped && !s.boot.poweredOff

/-- Lanes of a mask of three. -/
def popcount3 (m : Nat) : Nat := m % 2 + m / 2 % 2 + m / 4 % 2

/-- Receive lane `i` of link `k` is in service. -/
def inService (s : State) (k i : Nat) : Bool := (laneOf s (laneNo k i)).lstate == .inService

/-- No lane of a link is in service. -/
def noneInService (s : State) (k : Nat) : Bool := (List.range 3).all (fun i => !inService s k i)

/-- A STATUS flit of a link (Table 9-3). -/
def sendStatus (s : State) (k : Nat) : State :=
  let m := fun i => unsx 8 (laneOf s (laneNo k i)).margin
  sendFlit s k 2 (packBits [(s.boot.posId, 7), (k, 7), ((linkOf s k).rxLanes, 3), (0, 15), (m 0, 8), (m 1, 8), (m 2, 8)])

/-! ## Link states (R223, R233, R234) -/

/-- Everything queued toward a link is discarded, each packet counted (R256, R266). -/
def dropQueue (s : State) (k : Nat) : State :=
  let l := touch s (linkOf s k)
  let s1 := setLink s k (touch s { l with queue := [] })
  l.queue.foldl (fun s e => discard (releaseOut s e) k) s1

/-- What a lane has received of a packet is discarded as truncated, and its flits are freed (R218, R266). -/
def truncateRx (s : State) (n : Nat) : State :=
  let a := laneOf s n
  match a.rx with
  | none => s
  | some (h, got, _) => freeFlits (discard (setLane s n { a with rx := none }) (n / 3)) (n / 3) (pairOf h) (1 + got.length)

/-- A link takes a state: liveness changes go out in a LINKMAP (10 R251); leaving service discards its queue and destroys its
keys (19 Table 19-4); entering it starts the credits anew (10 R254). -/
def setLinkState (s : State) (k : Nat) (st : LinkState) : State :=
  let before := usable s k
  let s1 := setLink s k { linkOf s k with state := st }
  let after := usable s1 k
  if before == after then s1
  else
    let s2 := { s1 with fab := { s1.fab with mapDirty := true } }
    if after then
      let l := linkOf s2 k
      setLink s2 k { l with pairs := mmap l.pairs (fun _ (p : Pair) => { held := p.held, outstanding := 68 + p.held }),
                            deficit := [], since := [], promoted := [], touched := s.now }
    else
      let s3 := dropQueue s2 k
      setLink s3 k { linkOf s3 k with key := {} }

/-- An attempt of full training begins (R224). -/
def startTraining (s : State) (k : Nat) : State :=
  let s1 := setLinkState s k .training
  let l := linkOf s1 k
  let s2 := setLink s1 k { l with attempts := satAdd max16 l.attempts 1, trainStart := some s.now, retryAt := none,
                                  txLanes := 0, rxLanes := 0 }
  (List.range 3).foldl (fun s i =>
    let n := laneNo k i
    let a := laneOf s n
    if a.lstate == .failed || a.lstate == .disabled then s
    else setLane (truncateRx s n) n { laneOf (truncateRx s n) n with lstate := .training, skip := true }) s2

/-- The state that the accepted lanes of both directions give (Table 9-6, R233). -/
def settleLink (s : State) (k : Nat) : State :=
  let l := linkOf s k
  if l.state == .up || l.state == .degraded || l.state == .down then
    let tx := popcount3 l.txLanes
    let rx := popcount3 l.rxLanes
    let st : LinkState := if 2 ≤ tx && 2 ≤ rx then (if tx == 3 && rx == 3 then .up else .degraded) else .down
    let s1 := setLinkState s k st
    if st == .down && l.state != .down && noneInService s1 k && (List.range 3).any (fun i => (laneOf s1 (laneNo k i)).signal) then
      startTraining s1 k
    else s1
  else s

/-- A receive lane leaves service (R229): graceful where the packet in progress is whole, else what it brought is lost. -/
def dropLane (s : State) (n cause : Nat) (st : LState) (graceful : Bool) : State :=
  let k := n / 3
  let s1 := if graceful then s else truncateRx s n
  let a := laneOf s1 n
  let b : Lane := { a with lstate := st, lastCause := cause, drops := satAdd max16 a.drops 1, belowDrop := 0, runUncorr := 0,
                           winUncorr := 0, skip := !graceful || a.skip }
  let s2 := setLane s1 n b
  let l := linkOf s2 k
  let s3 := setLink s2 k { l with rxLanes := setBits l.rxLanes (n % 3) 1 0 }
  settleLink (fire (sendStatus s3 k) 16) k

/-- A rotation of a link's keys is to begin at this end (19 R454). -/
def orderRotation (flip : Nat) (l : Link) : Link :=
  if l.key.rotation || l.key.both || l.key.current.isNone then l
  else { l with key := { l.key with rotation := true, init := true, flipTick := flip, msg := 0, frags := 0 } }

/-- A lane whose receiver accepts it enters service (R232); its RESYNC counts the entry, and where it would pass 65,535 the
link rotates as if ordered (19 R454). -/
def acceptLane (s : State) (n : Nat) : State :=
  let k := n / 3
  let a := laneOf s n
  let s1 := setLane s n { a with lstate := .inService, skip := true, rx := none, winAt := s.now, belowDrop := 0, cw := 0,
                                 resync := min max16 (a.resync + 1) }
  let l := linkOf s1 k
  let l1 := if max16 ≤ a.resync then orderRotation 0 l else l
  sendStatus (setLink s1 k { l1 with rxLanes := setBits l.rxLanes (n % 3) 1 1 }) k

/-! ## Training (R222 to R226) -/

/-- LINK_SIGNAL_DETECT (R224, R225, Table 9-6): a signal appears on receive lane `n`. -/
def execLinkSignalDetect (t n : Nat) (s : State) : Out :=
  run t s fun s =>
    let k := n / 3
    let a := laneOf s n
    gate (fabricOn s && decide (n < 213) && !a.signal) (fun s =>
      let l := linkOf s k
      let s1 := setLane s n { a with signal := true, lostAt := none,
                                     lstate := if a.lstate == .miswired then .retrain else a.lstate }
      if l.state == .lost || l.state == .miswired || (l.state == .down && l.retryAt.isNone && noneInService s k) then
        startTraining s1 k
      else s1) s

/-- What the far end sent in its training frames on one receive lane (R225): its position, link and lane index; and the
margin reached (R224 step 4), none where the lane did not train. -/
def laneTrained (s : State) (i : Nat) (margins : List (Option Int)) (indices : List Nat) : LState :=
  match (margins[i]?).join with
  | none => .retrain
  | some m => if indices[i]? != some i then .miswired else if (cfg s 0x28 4 : Int) ≤ m then .inService else .retrain

/-- LINK_TRAIN_COMPLETE (R224 to R226): the attempt ends. `pos`, `link` and `indices` are the far end's identity fields,
`peer` its serial CRC, `far` the lanes that it accepts, `margins` what each own lane reached. -/
def execLinkTrainComplete (t k pos link : Nat) (indices : List Nat) (peer far : Nat) (margins : List (Option Int)) (s : State) :
    Out :=
  run t s fun s =>
    let l := linkOf s k
    gate (fabricOn s && decide (k < 71) && l.state == .training) (fun s =>
      if pos != farEnd s k || link != 70 - k then
        faultLog (setLinkState (setLink s k { l with trainStart := none, peerId := peer }) k .miswired) 0x40 4 [k, peer]
      else
        let s1 := setLink s k { l with trainStart := none, peerId := peer, txLanes := far % 8 }
        let late := match l.trainStart with | none => false | some a => decide (a + 12000000000 < s.now)
        let s2 := (List.range 3).foldl (fun s i =>
          let n := laneNo k i
          let a := laneOf s n
          if a.lstate == .failed || a.lstate == .disabled then s
          else
            let st := laneTrained s i margins indices
            let s1 := setLane s n { a with lstate := st, margin := ((margins[i]?).join).getD a.margin }
            if st == .inService && !late then acceptLane s1 n else s1) s1
        let g := linkOf s2 k
        if !late && 2 ≤ popcount3 g.rxLanes && 2 ≤ popcount3 g.txLanes then settleLink (setLink s2 k { g with state := .down }) k
        else
          let s3 := setLinkState s2 k .down
          (List.range 3).foldl (fun s i =>
            let a := laneOf s (laneNo k i)
            if a.lstate == .inService || a.lstate == .retrain then setLane s (laneNo k i) { a with lstate := .off } else s)
            (setLink s3 k { linkOf s3 k with rxLanes := 0, txLanes := 0, retryAt := some (s.now + 1000000000) })) s

/-- LINK_TRAIN_RETRY (R226): 1 s after a failed attempt. -/
def execLinkTrainRetry (t k : Nat) (s : State) : Out :=
  run t s fun s =>
    let l := linkOf s k
    gate (fabricOn s && decide (k < 71) && l.state == .down &&
        (match l.retryAt with | none => false | some a => decide (a ≤ s.now))) (fun s => startTraining s k) s

/-- LOOPBACK_RETRAIN (R222): every 10 s the three loopback lanes retrain; a margin below 3.0 dB raises the SerDes-self-test
event. -/
def execLoopbackRetrain (t : Nat) (margins : List Int) (s : State) : Out :=
  run t s fun s => gate (fabricOn s && decide (s.fab.loopAt + 10000000000 ≤ s.now)) (fun s =>
    let m := (margins.take 3).zipIdx.foldl (fun m e => mset m e.2 e.1) s.fab.loop
    let s1 := { s with fab := { s.fab with loop := m, loopAt := s.now } }
    if (margins.take 3).any (fun x => decide (x < 30)) then fire s1 14 else s1) s

/-! ## Codewords (R215 to R218) -/

/-- One flit of a lane's codeword, with its head marker: a link flit waits for its own step; a packet header starts a packet,
ending one that still expected body flits; a body flit continues one. -/
def flitIn (n : Nat) (s : State) (e : Nat × Bool) : State :=
  let (f, head) := e
  let a := laneOf s n
  let k := n / 3
  if head then
    if bits f 0 16 == 0xFFFF then setLane s n { a with arrived := a.arrived ++ [{ hdr := f }] }
    else
      let isTrunc := hcrcOk f && hOp f == 0
      let ended : List Byte := match a.rx with
        | some (h, got, _) => leBytes 32 h ++ got.flatMap (leBytes 32)
        | none => []
      let s1 := if isTrunc then setLane s n { a with rx := none } else truncateRx s n
      let b := laneOf s1 n
      if isTrunc then setLane s1 n { b with arrived := b.arrived ++ [{ hdr := f, pay := ended }], skip := false }
      else if !hcrcOk f || 32 < hLen f then setLane s1 n { b with arrived := b.arrived ++ [{ hdr := f }], skip := true }
      else
        let body := hLen f + b2n (hEnc f)
        if body == 0 then setLane s1 n { b with arrived := b.arrived ++ [{ hdr := f }], skip := false }
        else setLane s1 n { b with rx := some (f, [], body), skip := false }
  else if a.skip then s
  else
    match a.rx with
    | none => s
    | some (h, got, left) =>
      let got1 := got ++ [f]
      if left ≤ 1 then setLane s n { a with rx := none, arrived := a.arrived ++ [{ hdr := h, pay := got1.flatMap (leBytes 32) }] }
      else if k < 71 then setLane s n { a with rx := some (h, got1, left - 1) }
      else s

/-- CODEWORD_RECEIVE (R215, R218, R229): a codeword with `errs` symbols in error arrives on lane `n`; `heads` are its head
markers, `flits` its flits as decoded. More than 15 are uncorrectable: the codeword is discarded whole. -/
def execCodewordReceive (t n errs heads : Nat) (flits : List Nat) (s : State) : Out :=
  run t s fun s =>
    let k := n / 3
    let a := laneOf s n
    gate (fabricOn s && decide (n < 213) && a.lstate == .inService) (fun s0 =>
      let l := linkOf s0 k
      let a : Lane := { a with cw := (a.cw + 1) % 2 ^ 48 }
      let s := setLane s0 n a
      if 15 < errs then
        let s1 := setLink s k { l with port := { l.port with fecUncorr := satAdd max16 l.port.fecUncorr 1 } }
        let s2 := truncateRx s1 n
        let b := laneOf s2 n
        let c : Lane := { b with uncorrCw := satAdd max16 b.uncorrCw 1, winUncorr := b.winUncorr + 1,
                                 runUncorr := b.runUncorr + 1, skip := true }
        let s3 := setLane s2 n c
        if 16 ≤ c.winUncorr then dropLane s3 n 2 .retrain false
        else if 8 ≤ c.runUncorr then dropLane s3 n 3 .retrain false else s3
      else
        let s1 := setLink s k { l with port := { l.port with fecCorr := satAdd max32 l.port.fecCorr errs } }
        let s2 := setLane s1 n { a with corrSym := satAdd max32 a.corrSym errs, curMax := max a.curMax errs, runUncorr := 0 }
        ((flits.take 20).zipIdx.map (fun e => (e.1 % 2 ^ 256, bit heads e.2))).foldl (flitIn n) s2) s

/-- LANE_SIGNAL_LOST (R229, R234): the signal of receive lane `n` ends. All three of a link within 2 us make it LOST. -/
def execLaneSignalLost (t n : Nat) (s : State) : Out :=
  run t s fun s =>
    let k := n / 3
    let a := laneOf s n
    gate (decide (n < 213) && a.signal) (fun s =>
      let s1 := setLane s n { a with signal := false, lostAt := some s.now }
      let l := linkOf s1 k
      let all := (List.range 3).all (fun i =>
        let b := laneOf s1 (laneNo k i)
        !b.signal && (match b.lostAt with | none => false | some w => decide (s.now ≤ w + 2000)))
      if all && l.state != .disabled && l.state != .lost then
        let s2 := (List.range 3).foldl (fun s i =>
          let m := laneNo k i
          let s1 := truncateRx s m
          let b := laneOf s1 m
          if b.lstate == .failed || b.lstate == .disabled then s1
          else setLane s1 m { b with lstate := .off, lastCause := 4, drops := if b.lstate == .inService then satAdd max16 b.drops 1 else b.drops, skip := true }) s1
        let g := linkOf s2 k
        let s3 := setLinkState (setLink s2 k { g with losEvents := satAdd max16 g.losEvents 1, rxLanes := 0, txLanes := 0,
                                                      trainStart := none, retryAt := none }) k .lost
        abortPosition (faultLog (fire s3 17) 0x42 4 [farEnd s3 k]) (farEnd s3 k) 12
      else if a.lstate == .inService then dropLane s1 n 4 .retrain false
      else s1) s

/-! ## Live adaptation and margins (R227 to R229, R232) -/

/-- MARGIN_WINDOW (R228, R229): the end of a 1 ms window of a lane in service, with its margin and SNR in 0.1 dB. -/
def execMarginWindow (t n : Nat) (margin : Int) (snr : Nat) (s : State) : Out :=
  run t s fun s =>
    let a := laneOf s n
    gate (fabricOn s && decide (n < 213) && a.lstate == .inService && decide (a.winAt + 1000000 ≤ s.now)) (fun s =>
      let m : Int := max (-128) (min 127 margin)
      let low := decide (m < (cfg s 0x26 4 : Int))
      let due := low && (match a.lastMarginEvt with | none => true | some w => decide (w + 1000000000 ≤ s.now))
      let below := if m < (cfg s 0x27 4 : Int) then a.belowDrop + 1 else 0
      let b : Lane := { a with margin := m, snr := min 255 snr, maxSym := a.curMax, curMax := 0, winUncorr := 0, winAt := s.now,
                               belowDrop := below, lastMarginEvt := if due then some s.now else a.lastMarginEvt }
      let s1 := setLane s n b
      let s2 := if due then fire s1 15 else s1
      if 2 ≤ below then dropLane s2 n 1 .retrain true else s2) s

/-- RX_ADAPT_UPDATE (R227): every 65,536 symbols the receiver's equaliser takes a step; it may ask the far transmitter for one
of a tap. -/
def execRxAdaptUpdate (t n : Nat) (dfe1 : Int) (ctle : Nat) (ask : Option (Nat × Nat)) (s : State) : Out :=
  run t s fun s =>
    let a := laneOf s n
    gate (fabricOn s && decide (n < 213) && (a.lstate == .inService || a.lstate == .retrain)) (fun s =>
      let s1 := setLane s n { a with dfe1 := max (-128) (min 127 dfe1), ctle := ctle % 32 }
      match ask with
      | none => s1
      | some (tap, step) => sendFlit s1 (n / 3) 4 (packBits [(n % 3, 2), (tap, 3), (step, 2)])) s

/-- LANE_RETRAIN_COMPLETE (R232): the lane rejoins service, or the retrain failed; another serial CRC at the far end sends the
link to full training. -/
def execLaneRetrainComplete (t n : Nat) (margin : Int) (peer : Nat) (s : State) : Out :=
  run t s fun s =>
    let k := n / 3
    let a := laneOf s n
    gate (fabricOn s && decide (n < 213) && a.lstate == .retrain) (fun s =>
      if peer != (linkOf s k).peerId then startTraining s k
      else if (cfg s 0x28 4 : Int) ≤ margin then
        settleLink (acceptLane (setLane s n { a with margin := max (-128) (min 127 margin), retrains := satAdd max16 a.retrains 1 }) n) k
      else
        let fails := a.fails.filter (fun f => s.now < f + 600000000000) ++ [s.now]
        setLane s n { a with fails := fails, lastCause := 6, lstate := if 3 ≤ fails.length then .failed else .retrain }) s

/-! ## Link flits (R219, R230, R235; 10 R254) -/

/-- The first link flit that waits on a lane. Link flits do not wait for the packets around them (R216). -/
def flitHead (s : State) (n : Nat) : Option Pkt := (laneOf s n).arrived.find? (fun p => bits p.hdr 0 16 == 0xFFFF)

/-- CTRL_LOST of a link flit (R235): set on two in a row, the peer's controller is lost; clear, it is back. -/
def ctrlBit (s : State) (k f : Nat) : State :=
  let l := linkOf s k
  if bit f 24 then
    let s1 := setLink s k { l with ctrlRun := l.ctrlRun + 1, ctrlLost := l.ctrlLost || decide (1 ≤ l.ctrlRun) }
    if !l.ctrlLost && 1 ≤ l.ctrlRun then abortPosition (fire s1 18) (farEnd s1 k) 11 else s1
  else setLink s k { l with ctrlRun := 0, ctrlLost := false }

/-- The first link flit on lane `n`, of TYPE `kind` and sound, is taken. -/
def takeFlit (s : State) (n kind : Nat) (f : State → Nat → State) : State :=
  let a := laneOf s n
  match flitHead s n with
  | none => s
  | some p =>
    if n < 213 && bits p.hdr 16 8 == kind && hcrcOk p.hdr then
      f (ctrlBit (setLane s n { a with arrived := a.arrived.erase p }) (n / 3) p.hdr) p.hdr
    else s

/-- LINK_FLIT_IDLE (R219). -/
def execLinkFlitIdle (t n : Nat) (s : State) : Out :=
  run t s fun s => takeFlit s n 1 (fun s _ => s)

/-- LINK_FLIT_STATUS (R230): the lanes that the far receiver accepts. -/
def execLinkFlitStatus (t n : Nat) (s : State) : Out :=
  run t s fun s => takeFlit s n 2 (fun s f =>
    let k := n / 3
    settleLink (setLink s k { linkOf s k with txLanes := bits f 46 3 }) k)

/-- A pair's credits after a running count (10 R254). -/
def creditIn (f i : Nat) (p : Pair) : Pair :=
  let c := bits f (32 + 12 * i) 12
  { p with credits := p.credits + (c + 4096 - p.lastCount) % 4096, lastCount := c }

/-- LINK_FLIT_CREDIT (10 R254). -/
def execLinkFlitCredit (t n : Nat) (s : State) : Out :=
  run t s fun s => takeFlit s n 3 (fun s f =>
    let k := n / 3
    let l := touch s (linkOf s k)
    setLink s k (touch s { l with pairs := (List.range 12).foldl (fun m i => mset m i (creditIn f i (mget {} m i))) l.pairs }))

/-- A tap after one step; at its limit it holds. Main is unsigned, the others signed, of 6 bits. -/
def tapStep (tap step : Nat) (v : Int) : Int :=
  let lo : Int := if tap == 2 then 0 else -32
  let hi : Int := if tap == 2 then 63 else 31
  match step with
  | 1 => min hi (v + 1)
  | 2 => max lo (v - 1)
  | _ => v

/-- LINK_FLIT_ADAPT (R227): a step of a transmitter tap, at most one per millisecond. -/
def execLinkFlitAdapt (t n : Nat) (s : State) : Out :=
  run t s fun s => takeFlit s n 4 (fun s f =>
    let m := laneNo (n / 3) (bits f 32 2)
    let tap := bits f 34 3
    let step := bits f 37 2
    let a := laneOf s m
    let due := match mfind a.tapAt tap with | none => true | some w => decide (w + 1000000 ≤ s.now)
    if bits f 32 2 == 3 || 4 < tap || step == 0 || step == 3 || !due then s
    else setLane s m { a with taps := lset a.taps tap (tapStep tap step (a.taps.getD tap 0)), tapAt := mset a.tapAt tap s.now })

/-! ## LINK_CTRL (15 Table 15-11) -/

/-- LINK_CTRL with one OP; a value that is not assigned falls to OP 0's row, to be refused. -/
def linkCtrl (op : Nat) (f : State → Nat → Nat → State) (t : Nat) (a : MbxArgs) (s : State) : Out :=
  mbxCmd { opcode := 0x0402, rights := 1, pkg := .uc, partUse := .pkg }
    (fun r => r.f 0 4 == op || (op == 0 && 5 < r.f 0 4))
    (fun r _ => { bad := 5 < r.f 0 4 || 70 < r.f 8 7 || r.f 16 2 == 3 })
    (fun r s => (f s (r.f 8 7) (laneNo (r.f 8 7) (r.f 16 2)), ok)) t a s

/-- LINK_DISABLE (R229, R223): each lane drops gracefully, and the link enters DISABLED. -/
def execLinkDisable (t : Nat) (a : MbxArgs) (s : State) : Out :=
  linkCtrl 0 (fun s k _ =>
    if (linkOf s k).state == .disabled then s
    else
      let s1 := (List.range 3).foldl (fun s i =>
        let n := laneNo k i
        if inService s k i then dropLane s n 5 .disabled true else setLane s n { laneOf s n with lstate := .disabled }) s
      let s2 := setLinkState s1 k .disabled
      setLink s2 k { linkOf s2 k with trainStart := none, retryAt := none, rxLanes := 0, txLanes := 0 }) t a s

/-- LINK_ENABLE (R223): a DISABLED link becomes DOWN and trains. -/
def execLinkEnable (t : Nat) (a : MbxArgs) (s : State) : Out :=
  linkCtrl 1 (fun s k _ =>
    if (linkOf s k).state != .disabled then s
    else
      let s1 := (List.range 3).foldl (fun s i =>
        let n := laneNo k i
        if (laneOf s n).lstate == .disabled then setLane s n { laneOf s n with lstate := .off } else s) s
      let s2 := setLinkState s1 k .down
      if (List.range 3).any (fun i => (laneOf s2 (laneNo k i)).signal) && fabricOn s2 then startTraining s2 k else s2) t a s

/-- LINK_RETRAIN (R225): full training; MISWIRED clears. -/
def execLinkRetrain (t : Nat) (a : MbxArgs) (s : State) : Out :=
  linkCtrl 2 (fun s k _ => if (linkOf s k).state == .disabled then s else startTraining s k) t a s

/-- QUARANTINE_RELEASE (10 R268). -/
def execQuarantineRelease (t : Nat) (a : MbxArgs) (s : State) : Out :=
  linkCtrl 3 (fun s k _ =>
    let l := linkOf s k
    let s1 := setLink s k { l with quarantined := false }
    if l.quarantined then { s1 with fab := { s1.fab with mapDirty := true } } else s1) t a s

/-- LANE_DISABLE (R229). -/
def execLaneDisable (t : Nat) (a : MbxArgs) (s : State) : Out :=
  linkCtrl 4 (fun s _ n =>
    if (laneOf s n).lstate == .disabled then s
    else if (laneOf s n).lstate == .inService then dropLane s n 5 .disabled true
    else setLane s n { laneOf s n with lstate := .disabled }) t a s

/-- LANE_ENABLE (R232). -/
def execLaneEnable (t : Nat) (a : MbxArgs) (s : State) : Out :=
  linkCtrl 5 (fun s _ n =>
    let b := laneOf s n
    if b.lstate == .disabled || b.lstate == .failed then setLane s n { b with lstate := .retrain, fails := [] } else s) t a s

/-! ## Telemetry (R237; 10 R269, R270) -/

def lstateCode : LState → Nat
  | .off => 0 | .training => 1 | .inService => 2 | .retrain => 3 | .failed => 4 | .disabled => 5 | .miswired => 6

def linkCode : LinkState → Nat
  | .disabled => 0 | .down => 1 | .training => 2 | .up => 3 | .degraded => 4 | .miswired => 5 | .lost => 6

/-- A lane record (Table 9-8). -/
def laneRecord (s : State) (n : Nat) : Nat :=
  let a := laneOf s n
  let tap := fun i => (unsx 6 (a.taps.getD i 0), 6)
  packBits [(a.corrSym, 32), (a.uncorrCw, 16), (a.maxSym, 4), (0, 12), (unsx 8 a.margin, 8), (a.snr, 8), (lstateCode a.lstate, 3),
    (b2n (bit (linkOf s (n / 3)).txLanes (n % 3)), 1), (a.lastCause, 4), (0, 8), (a.drops, 16), (a.retrains, 16),
    tap 0, tap 1, tap 2, tap 3, tap 4, (0, 2), (unsx 8 a.dfe1, 8), (a.ctle, 5)]

/-- A link record (Table 9-11). -/
def linkRecord (s : State) (k : Nat) : Nat :=
  let l := linkOf s k
  packBits [(farEnd s k, 7), (0, 1), (linkCode l.state, 3), (b2n l.quarantined, 1), (l.txLanes, 3), (l.rxLanes, 3),
    (b2n l.ctrlLost, 1), (0, 13), (l.peerId, 32), (l.attempts, 16), (l.losEvents, 16)]

/-- Lowest margin of an in-service lane of a link; 0 where there is none. -/
def minMargin (s : State) (k : Nat) : Int :=
  let ms := ((List.range 3).filter (inService s k)).map (fun i => (laneOf s (laneNo k i)).margin)
  match ms with
  | [] => 0
  | m :: r => r.foldl min m

/-- A router port record (10 Table 10-9). -/
def portRecord (s : State) (k : Nat) : Nat :=
  let l := touch s (linkOf s k)
  let p := l.port
  packBits ([(p.txPkts, 32), (p.rxPkts, 32), (p.txFlits, 48), (p.rxFlits, 48), (p.transit, 32), (min max16 (loftDepth l), 16),
    (min max16 p.peak, 16)] ++ (List.range 6).map (fun v => (mget 0 p.stall v, 24)) ++
    [(p.fecCorr, 32), (p.fecUncorr, 16), (unsx 8 (minMargin s k), 8), (markK s l, 12), (0, 12), (p.ceMarked, 32),
     (p.violations, 16), (p.discards, 16)])

/-- RC fields of a port record clear. -/
def clearPort (s : State) (k : Nat) : State :=
  let l := touch s (linkOf s k)
  setLink s k { l with port := { peak := l.port.peak, curPeak := l.port.curPeak } }

/-- A partition fabric record (10 Table 10-10). -/
def partRecord (s : State) (p : Nat) : Nat :=
  let r := partRec s p
  packBits [(r.timeouts, 32), (r.late, 32), (r.nackRx, 16), (r.nackTx, 16), (r.noRoute, 16), (r.cellarTo, 16), (r.cellarInt, 16),
    (r.ideViol, 16)]

/-- LANE_STATUS (R237). -/
def execLaneStatus (t : Nat) (a : MbxArgs) (s : State) : Out :=
  mbxCmd { opcode := 0x0403, rights := 1, pkg := .any, partUse := .pkg, resp := 6816 } anyReq noChk
    (fun _ s =>
      let s1 := { s with fab := { s.fab with lanes := mmap s.fab.lanes (fun _ (l : Lane) =>
        { l with corrSym := 0, uncorrCw := 0, drops := 0, retrains := 0 }) } }
      (s1, .done 0 ((List.range 213).flatMap (fun n => leBytes 32 (laneRecord s n))))) t a s

/-- LINK_STATUS (R237). -/
def execLinkStatus (t : Nat) (a : MbxArgs) (s : State) : Out :=
  mbxCmd { opcode := 0x0404, rights := 1, pkg := .any, partUse := .pkg, resp := 1136 } anyReq noChk
    (fun _ s =>
      let s1 := { s with fab := { s.fab with links := mmap s.fab.links (fun _ (l : Link) => { l with attempts := 0, losEvents := 0 }) } }
      (s1, .done 0 ((List.range 71).flatMap (fun k => leBytes 16 (linkRecord s k))))) t a s

/-- ROUTER_TELEMETRY (10 R269). -/
def execRouterTelemetry (t : Nat) (a : MbxArgs) (s : State) : Out :=
  mbxCmd { opcode := 0x0405, rights := 1, pkg := .any, partUse := .pkg, resp := 4544 } anyReq noChk
    (fun _ s => ((List.range 71).foldl clearPort s, .done 0 ((List.range 71).flatMap (fun k => leBytes 64 (portRecord s k)))))
    t a s

/-- PART_FABRIC (10 R270): a tenant's read clears nothing. -/
def execPartFabric (t : Nat) (a : MbxArgs) (s : State) : Out :=
  mbxCmd { opcode := 0x0406, rights := 3, pkg := .any, partUse := .one, resp := 32 } anyReq noChk
    (fun r s => (if r.op then setPartRec s r.part {} else s, .done 0 (leBytes 32 (partRecord s r.part)))) t a s

end Sys2Proof.Machine
end

