-- ==== Sys2Proof/Machine/PowerOps.lean ====
section
/-!
DEFINITION. Machine/PowerOps.lean: the limits, the grants, the shed, the tallies, the minute and the forecast (16, 17), shared
by the power and heat commands, the pins and the tick boundary.
-/
namespace Sys2Proof.Machine

/-! ## Power of the dies -/

/-- Whole number of a rational, downward; 0 where it is negative. -/
def natOf (r : Rat) : Nat := r.floor.toNat

/-- Mean of a list, 0 for none. -/
def meanOf (l : List Rat) : Rat := if l.isEmpty then 0 else l.sum / (l.length : Nat)

/-- The active Hayward acts (13 R327). -/
def hayOn (s : State) : Bool := s.sess.pkg.isSome && !s.mbx.headless && !s.mbx.busy && !s.boot.poweredOff

/-- The rails of compute die `d` are on: VR_EN[d] is high, and Fallow has not turned them off. -/
def dieOn (s : State) (d : Nat) : Bool :=
  decide (d < 2) && s.boot.vrEn.getLsbD d && !s.power.fallow.contains d && !s.boot.poweredOff

/-- A quadrant has power, and its clock is not stopped by a flow stop (17 Table 17-3). -/
def quadOn (s : State) (q : Nat) : Bool := decide (q < 8) && dieOn s (q / 4) && !s.heat.stopped

/-- The quadrant's clock, halved during a shed (R383); 0 in Fallow or while gated (R400). -/
def quadClk (s : State) (q : Nat) : Nat :=
  let v := quadOf s q
  if !quadOn s q || v.gated || s.power.govD == 0 then 0 else if v.halved then v.clkMHz / 2 else v.clkMHz

/-! ## Limits (R379 to R385) -/

/-- Energy of the 60 s window, J: bins hold mJ. -/
def windowJ (w : Power) : Rat := (w.bins.sum + w.binEnergy) / 1000

/-- Mean draw of the bin that leaves the window next, W. -/
def leavingW (w : Power) : Rat := w.bins.getD 5998 0 / 10

/-- p_out + h of R380 under a sustained grant. -/
def allowanceOf (w : Power) (s : Rat) : Rat := leavingW w + (s * 60 - windowJ w)

/-- The package limits in force with their causes (Table 16-3). -/
def limits (s : State) : List (Rat × Nat) :=
  [(s.power.allowance, 1), (((s.power.burst : Nat) : Rat), 2)] ++
  (if s.power.shedOn then [(((s.power.shed : Nat) : Rat), 3)] else []) ++
  (if s.power.leaseExpired then [(s.power.sustained, 4)] else []) ++
  (match s.heat.flowLimit with
    | some w => [(((w : Nat) : Rat), 5)]
    | none => [])

/-- The lower of two limits; of equal ones, the lower cause. -/
def lowerLimit (a b : Rat × Nat) : Rat × Nat := if b.1 < a.1 then b else a

/-- The lowest package limit in force. -/
def lowest (s : State) : Rat × Nat := (limits s).foldl lowerLimit (s.power.allowance, 1)

/-- The floor (R385). -/
def floorW (s : State) : Rat :=
  match s.power.fallow.length with
  | 0 => 760
  | 1 => 600
  | _ => 450

/-- The mode's target of a quadrant, before limits (Table 16-4); `eff` is the point of least energy per cycle. -/
def modeTarget (mode eff : Nat) : Nat :=
  match mode with
  | 0 => 2100
  | 1 => 1800
  | _ => max 1200 (min 1800 (eff / 25 * 25))

/-- The target the mode reports where no load is known. -/
def nominalTarget (s : State) : Nat := modeTarget s.power.mode 1500

/-- A region's response acts (R411). -/
def throttled (r : Region) : Bool := r.off != 0 || r.pace < 16 || r.hot || r.hardSince.isSome || r.held

/-- LIMIT_CAUSE (R381): the cause of the lowest limit. The grant's own limits are named where they bind; the mode target
governs where nothing does. -/
def limitCause (s : State) : Nat :=
  let (w, c) := lowest s
  if w < floorW s then 9
  else if 3 ≤ c then c
  else if s.power.ceilingMHz < nominalTarget s || s.power.govD < 16 then c
  else if s.power.quads.any (fun e => e.2.issueD < 16) || s.power.rails.any (fun e => e.2.pace < 16) then 7
  else if s.heat.regions.any (fun e => throttled e.2) then 6
  else if s.power.capD.any (fun e => e.2 < 16) then 8
  else 0

/-- Modelled draw of the last 1 us, and its means over 1 ms and over the window. -/
def draw1us (s : State) : Rat := s.power.draws.head?.getD 0
def draw1ms (s : State) : Rat := s.power.draws.sum / 1000
def draw60s (s : State) : Rat := windowJ s.power / 60

/-- An issue throttle of 1 to 15 of every 16 cycles, as the package chooses (R377). -/
def someD (s : State) (i : Nat) : Nat := 1 + Config.choice s.freeCtr i % 15

/-- The governor's issue throttle (R382, R385): D = 0 where the limit lies below the floor; a common D while the draw of the
last 1 us exceeds the limit. -/
def governIssue (s : State) : State :=
  let w := (lowest s).1
  let d := if w < floorW s then 0 else if w < draw1us s then someD s 0 else 16
  { s.drawn with power := { s.power with govD := d } }

/-! ## Grants (R372, R379, R384) -/

/-- The sustained grant takes a value; a fall scales every bin (R380). -/
def setSustained (s : State) (w : Rat) : State :=
  let p := s.power
  let k := w / p.sustained
  let q := if w < p.sustained then { p with bins := p.bins.map (· * k), binEnergy := p.binEnergy * k } else p
  { s with power := { q with sustained := w } }

/-- A package-level GRANT_SET commits: a 0 keeps a level, the burst cap is never below the grant, a new lease starts, and the
orphan condition ends. -/
def commitGrant (s : State) (sus burst shed orphan lease : Nat) : State :=
  let s1 := setSustained s ((sus : Nat) : Rat)
  let p := s1.power
  let ms := if lease == 0 then p.leaseMs else lease
  { s1 with power := { p with
      burst := max sus (if burst == 0 then p.burst else burst), shed := if shed == 0 then p.shed else shed,
      orphan := if orphan == 0 then p.orphan else orphan, leaseMs := ms, leaseEnd := some (s.now + 1000000 * ms),
      leaseExpired := false, ramp := none } }

/-- The ramp to the orphan level at a boundary (R384): linear over 1 s from the expiry. -/
def rampStep (s : State) : State :=
  match s.power.ramp with
  | none => s
  | some (t0, w0) =>
    let e := min 1000000000 (s.now - t0)
    let least := min w0 ((s.power.orphan : Nat) : Rat)
    let s1 := setSustained s (w0 - (w0 - least) * ((e : Nat) : Rat) / 1000000000)
    if e == 1000000000 then { s1 with power := { s1.power with ramp := none } } else s1

/-! ## Shed (R383) -/

/-- The filtered SHED_N goes low: the shed level governs at once, every Active quadrant's clock is halved, changes in progress
stop, and source 2 fires. -/
def shedStart (s : State) : State :=
  let quads := (List.range 8).filter (quadOn s)
  let s1 := quads.foldl (fun s q =>
    let v := quadOf s q
    setQuad s q { v with halved := true, stopped := v.clkMHz != v.tgtMHz || v.mV != v.tgtMV, wantMHz := none }) s
  fire (governIssue { s1 with power := { s1.power with shedOn := true, shedEnding := false } }) 2

/-- The filtered SHED_N goes high: the limit returns at step 4 of the next boundary. -/
def shedHigh (s : State) : State :=
  if s.power.shedOn then { s with power := { s.power with shedEnding := true } } else s

/-- Step 4 after SHED_N has gone high. -/
def shedEnd (s : State) : State :=
  if s.power.shedEnding then { s with power := { s.power with shedOn := false, shedEnding := false } } else s

/-! ## Clocks (R386, R389, R390) -/

/-- A quadrant's change toward a clock begins. -/
def setTarget (s : State) (q mhz : Nat) : State :=
  let v := quadOf s q
  setQuad s q { v with tgtMHz := mhz, tgtMV := quadSetpoint s q mhz, stopped := false, wantMHz := none }

/-- Rises that wait for step 4 begin (Table 16-4): in Efficiency at most once in 60 s. -/
def applyRises (s : State) : State :=
  (List.range 8).foldl (fun s q =>
    let v := quadOf s q
    match v.wantMHz with
    | none => s
    | some f =>
      if !quadOn s q then s
      else if s.power.mode == 2 && (match v.lastRise with | none => false | some t => decide (s.now < t + 60000000000)) then s
      else
        let s1 := setTarget s q f
        setQuad s1 q { quadOf s1 q with lastRise := some s.now }) s

/-- The ageing trim of a quadrant is adjusted (R390). -/
def trimQuad (s : State) (q : Nat) : State :=
  let v := quadOf s q
  let low := match v.leastSlack with
    | none => false
    | some x => decide (x < 60)
  let easy := match v.leastSlack with
    | none => false
    | some x => decide (100 < x)
  let runs := if easy then v.easyPeriods + 1 else 0
  let v1 := if low then (if v.trim < 40 then { v with trim := v.trim + 5 } else { v with maxMHz := max 600 (v.maxMHz - 25) })
    else if runs == 10 then { v with trim := v.trim - 5 } else v
  let s1 := setQuad s q { v1 with trimAt := s.now, leastSlack := none, easyPeriods := if runs == 10 then 0 else runs,
                                  tgtMHz := min v1.tgtMHz v1.maxMHz }
  setQuad s1 q { quadOf s1 q with tgtMV := quadSetpoint s1 q (quadOf s1 q).tgtMHz }

/-- The trim of a quadrant falls due (R390, and its coincidence with a stretch). -/
def trimDue (s : State) (q : Nat) : Bool :=
  let v := quadOf s q
  quadOn s q && !v.stretched && decide (v.trimAt + 60000000000 ≤ s.now)

/-! ## Fitted rails and tallies (R378, R397, R398) -/

def railOf (s : State) (r : Nat) : Rail := mget {} s.power.rails r
def setRail (s : State) (r : Nat) (v : Rail) : State := { s with power := { s.power with rails := mset s.power.rails r v } }

/-- Continuous and 10 us limits of a rail, A (Table 16-1). -/
def railLimits (r : Nat) : Rat × Rat :=
  match r with
  | 8 => (160, 160) | 9 => (360, 360) | 10 => (50, 50) | 11 => (100, 100) | 12 => (2, 2) | 13 => (320, 320)
  | 14 => (120, 120) | 15 => (20, 20) | 16 => (200, 200) | 17 => (3, 3) | 18 => (1/2, 1/2)
  | _ => (240, 330)

/-- Voltage of a rail, mV: a quadrant's setpoint, else the nominal value. -/
def railMV (s : State) (r : Nat) : Nat :=
  match r with
  | 10 => 1200 | 13 => 1050 | 15 => 1800 | 17 => 1800 | 18 => 3300
  | _ => if r < 8 then (if dieOn s (r / 4) then (quadOf s r).mV else 0) else 750

def clampRat (x lo hi : Rat) : Rat := max lo (min hi x)

/-- The refit of one rail at step 2 (R378). -/
def refitRail (c : Rat) (v : Rail) : Rail :=
  let cleared := { v with sum := 0, n := 0, aSum := 0, aN := 0 }
  if v.n == 0 then cleared
  else
    let m : Rat := (v.sum : Nat) / (1000 * v.n : Nat)
    let a : Rat := if v.aN == 0 then 0 else v.aSum / (v.aN : Nat)
    if 5 / 100 * c ≤ a then { cleared with g := clampRat (v.g + (m - v.o - v.g * a) / (16 * a)) (80 / 100) (125 / 100) }
    else { cleared with o := clampRat (v.o + (m - v.g * a - v.o) / 16) (-(5 / 100 * c)) (5 / 100 * c) }

/-- The refit by the active Hayward. -/
def refit (s : State) : State :=
  if hayOn s then { s with power := { s.power with rails := mmap s.power.rails (fun r v => refitRail (railLimits r).1 v) } } else s

/-- The rails that the limiter throttles (R377): the quadrants', VDD_D2D and the stacks'. -/
def limitedRail (r : Nat) : Bool := r < 8 || r == 11 || (13 ≤ r && r ≤ 16)

/-- Modelled power of a rail over the last 1 us, W. -/
def railW (s : State) (r : Nat) : Rat := meanOf ((railOf s r).est.take 10) * ((railMV s r : Nat) : Rat) / 1000

def addRat (m : SMap Rat) (k : Nat) (x : Rat) : SMap Rat := mset m k (mget 0 m k + x)

/-- The end of a frame in the tallies (R397): VDD_D2D by the bytes on each die's link, the fabric energy by the bytes counted
at the fabric die; and the frame's energies go into the history of the forecast (R413). -/
def endFrameTally (s : State) : State :=
  let p := s.power
  let by_ := fun k => ((mget 0 p.frameBytes k : Nat) : Rat)
  let e := fun k => mget 0 p.frameEnergy k
  let d2d := fun (q : Nat) =>
    let d := q / 2
    let n := by_ (2 * d) + by_ (2 * d + 1)
    if n == 0 then e d / 2 else e d * by_ q / n
  let all := ((span 4 5).map by_).sum
  let attr := fun (q : Nat) => if all == 0 then 0 else e 2 * by_ (4 + q) / all
  let t := (List.range 4).foldl (fun t q => addRat (addRat t q (d2d q)) (5 + q) (attr q)) p.tally
  let push := fun (h : SMap (List Rat)) (k : Nat) (x : Rat) => mset h k ((x :: mget [] h k).take 48)
  let hist := (List.range 4).foldl (fun h q => push h q (e (10 + q) + d2d q)) s.heat.history
  { s with
    power := { p with
      tally := t, frameBytes := [], frameEnergy := [],
      mirror := (List.range 9).foldl (fun m k => mset m k (natOf (mget 0 t k))) p.mirror,
      mirrorTick := s.tick.count.toNat },
    heat := { s.heat with history := push hist 4 (e 2) } }

/-! ## The minute (R399) -/

/-- A minute ends: its report is built (Table 16-9), and the next one begins. -/
def endMinute (s : State) : State :=
  let m := s.power.minute
  let ms := (s.now - m.startNs) / 1000000
  let avg : Nat := natOf (m.energyMJ / ((max 1 ms : Nat) : Rat))
  let rep := packBits [(m.number + 1, 32), (s.tick.count.toNat, 64), (natOf m.energyMJ, 32), (min 4095 (natOf m.peakW), 12),
    (min 4095 avg, 12), (natOf s.power.sustained, 12), (0, 12), (min 65535 m.droops, 16), (min 65535 (m.railNs / 10000), 16),
    (min 65535 (m.shedNs / 1000000), 16), (min 65535 m.overrunFrames, 16), (b2n m.leaseExpired, 1), (b2n m.flowScaled, 1),
    (b2n m.thermal, 1), (b2n m.belowFloor, 1)]
  { s with power := { s.power with report := rep, minute := { startNs := s.now, number := m.number + 1 } } }

/-- 60 s of AON time have passed since the previous minute ended. -/
def minuteDue (s : State) : Bool := decide (s.power.minute.startNs + 60000000000 ≤ s.now)

/-! ## The forecast (17 R413, R414) -/

/-- The frames repeat with period `n`: each of the last 32 - n within 5 % of the frame n earlier. -/
def repeats (h : List Rat) (n : Nat) : Bool :=
  decide (32 ≤ h.length) && (List.range (32 - n)).all (fun i =>
    let a := h.getD i 0
    let d := a - h.getD (i + n) 0
    decide (max d (-d) ≤ 5 / 100 * a))

/-- Energies of a partition in the 16 frames to come, and whether a period was found. -/
def project (h : List Rat) (running : Bool) : List Rat × Bool :=
  match if running then (span 1 16).find? (repeats h) else none with
  | some n => ((List.range 16).map (fun j => h.getD (n - 1 - j % n) 0), true)
  | none => (List.replicate 16 (meanOf (h.take 4)), false)

/-- Grant levels with those staged for a tick or before it. -/
def grantAt (s : State) (tick : Nat) : Rat × Nat :=
  s.sess.staged.foldl (fun g e =>
    match e.change with
    | .grant sus burst _ _ _ =>
      if (match e.tick with | none => true | some k => decide (k ≤ tick)) then
        (((sus : Nat) : Rat), max sus (if burst == 0 then g.2 else burst)) else g
    | _ => g) (s.power.sustained, s.power.burst)

/-- The lowest limit known for a frame: in force, and staged for its tick (R413). -/
def knownLimit (s : State) (tick : Nat) : Rat :=
  let (sus, burst) := grantAt s tick
  let flow := match s.heat.stagedLimit with
    | some (_, l) => l
    | none => s.heat.flowLimit
  let base := min (allowanceOf s.power sus) ((burst : Nat) : Rat)
  let a := if s.power.shedOn && !s.power.shedEnding then min base ((s.power.shed : Nat) : Rat) else base
  match flow with
  | some w => min a ((w : Nat) : Rat)
  | none => a

/-- Tick period of the frame that a tick starts, us. -/
def periodAt (s : State) (tick : Nat) : Nat :=
  if s.tick.nextValid && s.tick.periodAt.toNat ≤ tick then s.tick.nextUs else s.tick.periodUs

/-- The forecast of the 16 frames from this boundary on. The draw of the frame just ended is set against the W0 that
forecast it; a W0 that differs by more than 5 % from the last signalled raises 0x46 on I3C, at most once per 1 ms. -/
def buildForecast (s : State) (frameNs : Nat) : State :=
  let k := s.tick.count.toNat
  let parts := (List.range 4).map (fun p => project (mget [] s.heat.history p) (pstate s p == .running))
  let shared := meanOf ((mget [] s.heat.history 4).take 4)
  let watts := (List.range 16).map (fun j =>
    let e := (parts.map (fun x => x.1.getD j 0)).sum + shared
    max 0 (min (e * 1000 / ((periodAt s (k + j) : Nat) : Rat)) (knownLimit s (k + j))))
  let energy := ((List.range 5).map (fun p => (mget [] s.heat.history p).headD 0)).sum
  let seen := energy * 1000000 / ((max 1 frameNs : Nat) : Rat)
  let h := s.heat
  let errs := match h.w with
    | [] => h.errs
    | w0 :: _ => ((((4 * w0 : Nat) : Rat), seen) :: h.errs).take 64
  let w := watts.map (fun x => min 1023 (natOf (x / 4)))
  let w0 := w.headD 0
  let far := match h.lastSignalled with
    | none => true
    | some x => decide (5 * x < 100 * (max x w0 - min x w0))
  let may := match h.lastIbi with
    | none => true
    | some t => decide (t + 1000000 ≤ s.now)
  let s1 := { s with heat := { h with
      w := w, firstTick := k, periodic := packBits (parts.map (fun x => (b2n x.2, 1))), errs := errs } }
  if far && may then { s1 with heat := { s1.heat with lastSignalled := some w0, lastIbi := some s.now } }.emit (.i3cIbi 0x46)
  else s1

/-- ERROR_PCT: mean absolute error of W0 over the frames held, in percent of the measured draw. -/
def errorPct (h : Heat) : Nat :=
  let l := (h.errs.filter (fun e => e.2 != 0)).map (fun e => max (e.1 - e.2) (e.2 - e.1) * 100 / e.2)
  min 255 (natOf (meanOf l))

/-- The forecast record (Table 17-6). -/
def forecastRecord (s : State) : Nat :=
  packBits ([(s.heat.firstTick, 64)] ++ (List.range 16).map (fun j => (s.heat.w.getD j 0, 10)) ++
    [(s.heat.periodic, 4), (0, 4), (errorPct s.heat, 8)])

/-! ## Fallow (R395 to R396, Table 16-7) -/

/-- The partitions of a die. -/
def partsOfDie (d : Nat) : List Nat := span (2 * d) 2

def recordState (s : State) (p : Nat) (st : PState) : State :=
  { s with sess := { s.sess with parts := mset s.sess.parts p { partOf s p with recorded := st } } }

/-- A reset that the partition's die stops is answered HW_FAULT. -/
def stopReset (s : State) (p : Nat) : State :=
  finish { s with faults := { s.faults with resets := mdel s.faults.resets p } } (fun f => f.kind == .partReset && f.part == p)
    0x50 [] true

/-- A partition of a die that enters Fallow (R395). By the flow rule an ASSIGNED or RUNNING one is fenced first, a reset
stops, and an ABORT goes to each of its job domains (20 R468). -/
def fallowPart (s : State) (p : Nat) (byFlow : Bool) : State :=
  let own := ownOrigin s p
  let aborts := fun (s : State) => (partOf s p).jobs.foldl (fun s j => sendAbort s j 9 own) s
  match pstate s p with
  | .failed => s
  | .winnowing => s
  | .dormant => s
  | .free => setPState (recordState s p .free) p .dormant
  | .fenced => setPState (recordState (stopReset (if byFlow then aborts s else s) p) p .fenced) p .dormant
  | .resetting => setPState (recordState (aborts (stopReset s p)) p .fenced) p .dormant
  | st =>
    if byFlow then
      let s1 := beginFence (setPState s p .fenced) p .dormant { cause := 9, origin := own }
      recordState s1 p .fenced
    else setPState (recordState s p st) p .dormant

/-- Dies begin Fallow entry: their partitions become DORMANT, and dirty Cellar sectors are written. -/
def beginFallow (s : State) (dies : List Nat) (byFlow : Bool) : State :=
  let todo := dies.filter (fun d => !s.power.fallow.contains d && (mfind s.power.entering d).isNone)
  todo.foldl (fun s d =>
    let s1 := (partsOfDie d).foldl (fun s p => fallowPart s p byFlow) s
    let s2 := (partsOfDie d).foldl (fun s p => if canMaster s (p + 1) then cleanCellar s p else s) s1
    { s2 with power := { s2.power with
        entering := mset s2.power.entering d s.now, exiting := mdel s2.power.exiting d, byFlow := s2.power.byFlow || byFlow } }) s

/-- The tile state of a die is lost: tiles, cores, completion counters, and the scratchpads' contents. -/
def loseDie (s : State) (d : Nat) : State :=
  (partsOfDie d).foldl (fun s p =>
    let s1 := scrambleSpads (resetTiles s p) p
    { s1 with ccs := mkeep s1.ccs (fun k _ => k / 4096 != p) }) s

/-- The stacks of a die enter or leave self-refresh. -/
def refreshDie (s : State) (d : Nat) (on : Bool) : State :=
  (span (6 * d) 6).foldl (fun s k => setStack s k { stackOf s k with selfRefresh := on }) s

/-- A die is in Fallow: stacks in self-refresh, quadrant rails off over AVSBus, MSI-X delivery held (14 R359). -/
def enterFallow (s : State) (d : Nat) : State :=
  let s1 := refreshDie (loseDie s d) d true
  let s2 := (span (4 * d) 4).foldl (fun s q => (setQuad s q { quadOf s q with gated := false, stretched := false, wantMHz := none }).emit
    (.avsSet q 0)) s1
  { s2 with
    power := { s2.power with entering := mdel s2.power.entering d, fallow := (List.range 2).filter (fun x => s2.power.fallow.contains x || x == d) },
    evt := { s2.evt with held := true } }

/-- Every die in Fallow begins its exit: quadrant rails on at the 1.20 GHz point. -/
def beginExit (s : State) : State :=
  let dies := s.power.fallow.filter (fun d => (mfind s.power.exiting d).isNone)
  dies.foldl (fun s d =>
    let s1 := (span (4 * d) 4).foldl (fun s q =>
      let mv := quadSetpoint s q 1200
      (setQuad s q { quadOf s q with clkMHz := 1200, mV := mv, tgtMHz := 1200, tgtMV := mv, halved := false, stopped := false }).emit
        (.avsSet q mv)) s
    { s1 with
      power := { s1.power with exiting := mset s1.power.exiting d s.now },
      boot := { s1.boot with vrEn := s1.boot.vrEn ||| BitVec.ofNat 4 (2 ^ d) } }) s

/-- A die has left Fallow: its stacks are out of self-refresh, and its DORMANT partitions take their recorded states. A reduced
Winnow fills its stacks from now on (19 R461); a full one has been held up. -/
def leaveFallow (s : State) (d : Nat) : State :=
  let s1 := refreshDie s d false
  let s2 := (partsOfDie d).foldl (fun s p => if pstate s p == .dormant then setPState s p (partOf s p).recorded else s) s1
  let left := s2.power.fallow.filter (· != d)
  { s2 with
    keys := { s2.keys with
      winnow := mmap s2.keys.winnow (fun p w => if dieOfPart p == d && w.2 then (s.now, true) else w),
      winnowSlow := (partsOfDie d).foldl (fun m p => mset m p true) s2.keys.winnowSlow },
    power := { s2.power with
      exiting := mdel s2.power.exiting d, fallow := left, byFlow := s2.power.byFlow && !left.isEmpty },
    evt := { s2.evt with held := s2.evt.held && !left.isEmpty } }

/-! ## Effective flow (17 R405) -/

/-- f_eff of a report times 35,000: each degree above 40 counts as 5 %. -/
def flowEff (r : FlowRep) : Int := 10 * (r.ml : Int) - 175 * max 0 (r.inlet - 400)

/-- The effective flow is at least 0.80, or 0.50. -/
def flowGood (r : FlowRep) : Bool := decide (28000 ≤ flowEff r)
def flowHalf (r : FlowRep) : Bool := decide (17500 ≤ flowEff r)

/-- The state and limit a report gives (Table 17-2): 2,400 * (0.4 + 2 * (f_eff - 0.5)) W in between. -/
def judgeFlow (r : FlowRep) : Nat × Option Nat :=
  if flowGood r then (0, none)
  else if flowHalf r then (1, some (natOf (2400 * (4 / 10 + 2 * (((flowEff r : Int) : Rat) / 35000 - 1 / 2)))))
  else (2, some 960)

/-! ## The flow stop and the trip (17 R408, R412, Table 17-3) -/

/-- Every fabric lane and both Ethernet ports go to electrical idle. -/
def linksIdle (s : State) : State :=
  let s1 := (List.range 71).foldl (fun s k =>
    if (linkOf s k).state == .disabled then s
    else
      let t := setLinkState s k .down
      setLink t k { linkOf t k with txLanes := 0, rxLanes := 0, retryAt := none, trainStart := none }) s
  let s2 := (List.range 213).foldl (fun s n =>
    let t := truncateRx s n
    let a := laneOf t n
    if a.lstate == .disabled || a.lstate == .failed then setLane t n { a with signal := false }
    else setLane t n { a with lstate := .off, signal := false }) s1
  { s2 with eth := { s2.eth with ports := mmap s2.eth.ports (fun _ p => { p with linkUp := false, paused := [], xoff := false }) } }

/-- The response of Table 17-3: clocks stop, lanes fall idle, the stacks refresh themselves, VR_EN[1:0] fall, both dies are
off and their partitions DORMANT. -/
def flowResponse (s : State) : State :=
  if s.heat.stopped then s
  else
    let s1 := (List.range 4).foldl (fun s p => fallowPart s p true) s
    let s2 := linksIdle s1
    let s3 := (List.range 2).foldl (fun s d => refreshDie (loseDie s d) d true) s2
    { s3 with
      heat := { s3.heat with stopped := true },
      power := { s3.power with fallow := [0, 1], entering := [], exiting := [], byFlow := true },
      evt := { s3.evt with held := true },
      boot := { s3.boot with vrEn := s3.boot.vrEn &&& 12, vrLoweredAt := some s.now, tripOrStop := true } }

end Sys2Proof.Machine
end

