-- ==== Sys2Proof/Machine/Power.lean ====
section
/-!
DEFINITION. Machine/Power.lean: the power commands, the limiter and governor, clocks, trim and droop, tallies and the power
states (16, 15 Table 15-12).
-/
namespace Sys2Proof.Machine

/-! ## Commands (Table 15-12) -/

/-- A field of watts in its range, or 0. -/
def wattsOk (v : Nat) : Bool := v == 0 || (600 ≤ v && v ≤ 2400)

/-- GRANT_SET (R372, R379): package levels with PART 4, a cap with PART 0 to 3. -/
def execGrantSet (t : Nat) (a : MbxArgs) (s : State) : Out :=
  mbxCmd { opcode := 0x0500, rights := 1, pkg := .uc, partUse := .free, resp := 8 } anyReq
    (fun r s =>
      let sus := r.f 64 16
      let burst := r.f 80 16
      let lease := r.f 128 32
      let cap := r.f 64 16
      { tickChk s r with bad := tickBad s (r.f 0 64) ||
          (if r.part == 4 then
            sus < 600 || 2400 < sus || (burst != 0 && (burst < sus || 2400 < burst)) || !wattsOk (r.f 96 16) ||
              !wattsOk (r.f 112 16) || (lease != 0 && (lease < 100 || 600000 < lease))
          else cap != 0 && (cap < 100 || 600 < cap)) })
    (fun r s =>
      stageAns s (r.f 0 64)
        (if r.part == 4 then .grant (r.f 64 16) (r.f 80 16) (r.f 96 16) (r.f 112 16) (r.f 128 32)
        else .partCap r.part (r.f 64 16))) t a s

/-- MODE_SET (R386). -/
def execModeSet (t : Nat) (a : MbxArgs) (s : State) : Out :=
  mbxCmd { opcode := 0x0501, rights := 1, pkg := .uc, partUse := .pkg, resp := 8 } anyReq
    (fun r s => { tickChk s r with bad := tickBad s (r.f 0 64) || r.f 64 2 == 3 })
    (fun r s => stageAns s (r.f 0 64) (.mode (r.f 64 2))) t a s

/-- The POWER_STATE_SET row (Table 15-12). -/
def powerCmd : Cmd := { opcode := 0x0502, rights := 1, pkg := .c, partUse := .pkg }

/-- A power-state command is in progress: its dies are held (13 R333). -/
def powerBusy (s : State) : Bool := s.mbx.flight.any (fun f => f.kind == .powerState)

/-- POWER_STATE_SET 0 (R394, R395): Idle ends at step 8 of the next boundary, and every die in Fallow leaves it. -/
def execPowerStateActive (t : Nat) (a : MbxArgs) (s : State) : Out :=
  mbxCmd powerCmd (fun r => r.f 0 2 == 0)
    (fun _ s => { wrong := s.heat.stopped || (s.heat.flowState == 3 &&
      (match s.heat.report with
        | some v => !flowGood v
        | none => true)) })
    (fun _ s =>
      if powerBusy s then (s, .done 0x30 [])
      else
        let s1 := { s with
          power := { s.power with idleNext := some false, exitAfter := !s.power.entering.isEmpty },
          heat := { s.heat with flowState := if s.heat.flowState == 3 then 0 else s.heat.flowState,
                                stagedLimit := if s.heat.flowState == 3 then some (s.now, none) else s.heat.stagedLimit } }
        (beginExit s1, .prog .powerState)) t a s

/-- POWER_STATE_SET 1 (R394): from step 8 of the next boundary no sheaf is released. -/
def execPowerStateIdle (t : Nat) (a : MbxArgs) (s : State) : Out :=
  mbxCmd powerCmd (fun r => r.f 0 2 == 1) noChk
    (fun _ s =>
      if powerBusy s then (s, .done 0x30 [])
      else ({ s with power := { s.power with idleNext := some true } }, .prog .powerState)) t a s

/-- Dies of a mask. -/
def diesOf (m : Nat) : List Nat := (List.range 2).filter (fun d => bit m d)

/-- POWER_STATE_SET 2 (R394, R395). -/
def execPowerStateFallow (t : Nat) (a : MbxArgs) (s : State) : Out :=
  thenDo
    (mbxCmd powerCmd (fun r => r.f 0 2 == 2)
      (fun r s => { bad := r.f 2 2 == 0,
                    wrong := (diesOf (r.f 2 2)).any (fun d => (partsOfDie d).any (fun p =>
                      [PState.running, .resetting, .winnowing].contains (pstate s p))) })
      (fun r s => if powerBusy s then (s, .done 0x30 []) else (beginFallow s (diesOf (r.f 2 2)) false, .prog .powerState)) t a s)
    (fun s =>
      if s.power.entering.isEmpty && s.power.exiting.isEmpty && s.power.idleNext.isNone && !s.power.offReq then
        finish s (fun f => f.kind == .powerState) 0 [] a.returnOk
      else s)

/-- The package goes off (R394, 22 R513): every block but the AON island is reset, its rails fall in order, and only
COLD_RST_N leaves the state; the Event Hub keeps its sources in the AON island. -/
def powerOff (s : State) : State :=
  let s1 := aonReset s s.boot.nextKind
  { s1 with
    boot := { s1.boot with stage := some 8, bootStage := 8, poweredOff := true, nextKind := 1,
                           thermTripN := s.boot.thermTripN },
    tick := { s1.tick with state := .halted }, evt := { s.evt with held := false } }

/-- POWER_STATE_SET 3: WRONG_STATE while any partition is not FREE. -/
def execPowerStateOff (t : Nat) (a : MbxArgs) (s : State) : Out :=
  thenDo
    (mbxCmd powerCmd (fun r => r.f 0 2 == 3)
      (fun _ s => { wrong := (List.range 4).any (fun p => pstate s p != .free) })
      (fun _ s =>
        if powerBusy s then (s, .done 0x30 [])
        else ({ s with power := { s.power with offReq := true } }, .prog .powerState)) t a s)
    (fun s => if s.power.offReq then powerOff (finish s (fun f => f.kind == .powerState) 0 [] a.returnOk) else s)

/-- POWER_STATE of the records (Tables 15-5, 16-10). -/
def powerState (s : State) : Nat := if !s.power.fallow.isEmpty then 2 else if s.power.idle then 1 else 0

/-- FALLOW_DIES. -/
def fallowDies (s : State) : Nat := packBits ((List.range 2).map (fun d => (b2n (s.power.fallow.contains d), 1)))

/-- ms of the lease left, rounded up. -/
def leaseLeft (s : State) : Nat :=
  match s.power.leaseEnd with
  | some e => (e - s.now + 999999) / 1000000
  | none => 0

/-- The power record (Table 16-10); a tenant's carries its own partition's fields. -/
def powerRecord (s : State) (tenant : Option Nat) : Nat :=
  let w := s.power
  let op := fun (v : Nat) => if tenant.isNone then v else 0
  let cap := fun p => if (tenant.map (· == p)).getD true then mget 0 w.caps p else 0
  let clk := fun q => if (tenant.map (· == q / 2)).getD true then quadClk s q / 10 else 0
  packBits ([(w.mode, 2), (powerState s, 2), (op (fallowDies s), 2), (0, 2), (op (limitCause s), 4), (0, 4),
    (op (natOf w.sustained), 12), (op w.burst, 12), (op w.shed, 12), (op w.orphan, 12), (op (leaseLeft s), 20),
    (op (b2n w.leaseExpired), 1), (0, 11), (op (min 4095 (natOf (lowest s).1)), 12), (op (min 4095 (natOf (draw1ms s))), 12),
    (op (min 4095 (natOf (draw60s s))), 12), (op (min 4095 (natOf w.minute.peakW)), 12)] ++
    (List.range 4).map (fun p => (cap p, 10)) ++ (List.range 8).map (fun q => (clk q, 8)))

/-- The sender's partition, where it is a tenant. -/
def Req.tenantPart (r : Req) : Option Nat := if r.tenant then some r.part else none

/-- POWER_STATUS (R400). -/
def execPowerStatus (t : Nat) (a : MbxArgs) (s : State) : Out :=
  mbxCmd { opcode := 0x0503, rights := 3, pkg := .any, partUse := .pkg, resp := 32 } anyReq noChk
    (fun r s => (s, .done 0 (leBytes 32 (powerRecord s r.tenantPart)))) t a s

/-- TALLY_READ (R397): nine counts for the operator, a tenant's own two. -/
def execTallyRead (t : Nat) (a : MbxArgs) (s : State) : Out :=
  mbxCmd { opcode := 0x0504, rights := 3, pkg := .any, partUse := .pkg } anyReq
    (fun r _ => { resp := some (if r.op then 72 else 16) })
    (fun r s =>
      let ks := if r.op then List.range 9 else [r.part, 5 + r.part]
      (s, .done 0 (ks.flatMap (fun k => leBytes 8 (natOf (mget 0 s.power.tally k)))))) t a s

/-- FORECAST_READ (17 R414). -/
def execForecastRead (t : Nat) (a : MbxArgs) (s : State) : Out :=
  mbxCmd { opcode := 0x0505, rights := 5, pkg := .uc, partUse := .pkg, resp := 32 } anyReq noChk
    (fun _ s => (s, .done 0 (leBytes 32 (forecastRecord s)))) t a s

/-- MINUTE_REPORT (R399). -/
def execMinuteReport (t : Nat) (a : MbxArgs) (s : State) : Out :=
  mbxCmd { opcode := 0x0506, rights := 5, pkg := .uc, partUse := .pkg, resp := 32 } anyReq noChk
    (fun _ s => (s, .done 0 (leBytes 32 s.power.report))) t a s

/-! ## Fallow (Table 16-7) -/

/-- FALLOW_ENTRY_COMPLETE (R395): the last die's entry answers the command; an exit asked for meanwhile then begins. -/
def execFallowEntryComplete (t d : Nat) (s : State) : Out :=
  run t s fun s => gate (mfind s.power.entering d).isSome (fun s =>
    let s1 := enterFallow s d
    if s1.power.entering.isEmpty then
      let s2 := if s1.power.byFlow then s1 else finish s1 (fun f => f.kind == .powerState) 0 [] true
      if s2.power.exitAfter then beginExit { s2 with power := { s2.power with exitAfter := false } } else s2
    else s1) s

/-- FALLOW_EXIT_COMPLETE (R395). -/
def execFallowExitComplete (t d : Nat) (s : State) : Out :=
  run t s fun s => gate (mfind s.power.exiting d).isSome (fun s =>
    let s1 := leaveFallow s d
    if s1.power.exiting.isEmpty then finish s1 (fun f => f.kind == .powerState) 0 [] true else s1) s

/-- A flow or thermal condition of chapter 17 holds. -/
def heatCondition (s : State) : Bool :=
  s.heat.flowState != 0 || s.heat.stopped || s.heat.tripped || s.heat.regions.any (fun e => throttled e.2)

/-- FALLOW_WAKE (R396): a wake request that sources 0 to 5 did not raise. -/
def execFallowWake (t : Nat) (s : State) : Out :=
  run t s fun s => gate (s.evt.wakeReq && !s.evt.wakePriv && !s.power.fallow.isEmpty && s.power.entering.isEmpty &&
      !s.power.byFlow && !heatCondition s && hayOn s)
    (fun s => beginExit { s with evt := { s.evt with wakeReq := false } }) s

/-! ## Leases, rails, governor (R376 to R385) -/

/-- A boundary that is due by the lease's end commits a package-level grant (Coincidences). -/
def grantDue (s : State) (endAt : Nat) : Bool :=
  (match s.tick.due with
    | some d => decide (d ≤ endAt)
    | none => false) &&
  s.sess.staged.any (fun e => match e.change, e.tick with
    | .grant _ _ _ _ _, none => true
    | .grant _ _ _ _ _, some k => decide (k ≤ s.tick.count.toNat + 1)
    | _, _ => false)

/-- LEASE_EXPIRE (R384): it needs a boundary's step 4, so not while headless (20 R486). -/
def execLeaseExpire (t : Nat) (s : State) : Out :=
  run t s fun s =>
    match s.power.leaseEnd with
    | none => s
    | some e => gate (decide (e ≤ s.now) && !s.mbx.headless && !grantDue s e) (fun s =>
        let w := s.power
        fire { s with power := { w with
          leaseEnd := none, leaseExpired := true, ramp := some (s.now, w.sustained),
          minute := { w.minute with leaseExpired := true } } } 24) s

/-- The rails of an AVSBus, in turn (Table 16-1). -/
def busRails (bus : Nat) : List Nat :=
  match bus with
  | 0 => span 0 4
  | 1 => span 4 4
  | 2 => span 8 5
  | _ => span 13 6

/-- AVS_CURRENT_READ (R376): bus 0 to 3 reads its next rail, in mA. -/
def execAvsCurrentRead (t bus mA : Nat) (s : State) : Out :=
  run t s fun s => gate (decide (bus < 4) && hayOn s) (fun s =>
    let rs := busRails bus
    let i := mget 0 s.power.avsNext bus
    let r := rs.getD (i % rs.length) 0
    let v := railOf s r
    let s1 := setRail s r { v with reading := mA, sum := v.sum + mA, n := v.n + 1 }
    { s1 with power := { s1.power with avsNext := mset s1.power.avsNext bus ((i + 1) % rs.length) } }) s

/-- The limiter's answer on a rail: its loads are throttled while an average would pass a limit (R377). -/
def limitRail (s : State) (r : Nat) : State :=
  let v := railOf s r
  let (c, b) := railLimits r
  let past := limitedRail r && (b < (v.est.take 100).sum / 100 || c < v.est.sum / 10000)
  let d := if past then someD s r else 16
  if r < 8 then setQuad s r { quadOf s r with issueD := d } else setRail s r { v with pace := d }

/-- RAIL_LIMITER_UPDATE (R377): `raw` are the activity model's estimates a_r in mA, one per rail. -/
def execRailLimiterUpdate (t : Nat) (raw : List Nat) (s : State) : Out :=
  run t s fun s => gate (raw.length == 19 && !s.boot.poweredOff && s.boot.stage.isSome) (fun s =>
    let s1 := raw.zipIdx.foldl (fun s (e : Nat × Nat) =>
      let v := railOf s e.2
      let a : Rat := ((e.1 : Nat) : Rat) / 1000
      setRail s e.2 { v with est := ((v.g * a + v.o) :: v.est).take 10000, aSum := v.aSum + a, aN := v.aN + 1 }) s
    let s2 := ((List.range 19).foldl limitRail s1).drawn
    let on := s2.power.quads.any (fun e => e.2.issueD < 16) || s2.power.rails.any (fun e => e.2.pace < 16)
    let m := s2.power.minute
    if on then { s2 with power := { s2.power with minute := { m with railNs := m.railNs + 100 } } } else s2) s

/-- GOVERNOR_UPDATE (R380). -/
def execGovernorUpdate (t : Nat) (s : State) : Out :=
  run t s fun s => gate (decide (s.power.govAt + 10000 ≤ s.now) && !s.boot.poweredOff && s.boot.stage.isSome) (fun s =>
    let s1 := { s with power := { s.power with govAt := s.now, allowance := allowanceOf s.power s.power.sustained } }
    let s2 := governIssue s1
    if limitCause s2 == 9 then
      { s2 with power := { s2.power with minute := { s2.power.minute with belowFloor := true } } } else s2) s

/-- The clock a quadrant is to take under the common ceiling `fits` (R382, R386, 17 R411). -/
def wantedClock (s : State) (q fits eff : Nat) : Nat :=
  let hot := 2100 - (mget {} s.heat.regions q : Region).off
  max 600 (min (min (modeTarget s.power.mode eff) (fits / 25 * 25)) (min hot (quadOf s q).maxMHz))

/-- One quadrant's part of a ceiling update: a halved clock is taken as it stands, a fall begins at once, a rise at once in
Throughput and else at step 4. -/
def ceilQuad (s : State) (q fits eff : Nat) : State :=
  let v0 := quadOf s q
  let v := if v0.halved then { v0 with halved := false, clkMHz := max 600 (v0.clkMHz / 50 * 25), stopped := true } else v0
  let s1 := setQuad s q v
  let f := wantedClock s1 q fits eff
  let now_ := if v.stopped then v.clkMHz else v.tgtMHz
  if f < now_ then setTarget s1 q f
  else if now_ < f then
    if s.power.mode == 0 then setTarget s1 q f
    else
      let s2 := if v.stopped then setTarget s1 q v.clkMHz else s1
      setQuad s2 q { quadOf s2 q with wantMHz := some f }
  else if v.stopped then setTarget s1 q f
  else setQuad s1 q { v with wantMHz := none }

/-- CLOCK_CEILING_UPDATE (R382): `fits` is the highest clock in MHz at which the modelled draw fits the limit, `eff` each
quadrant's clock of least energy per cycle. -/
def execClockCeilingUpdate (t fits : Nat) (eff : List Nat) (s : State) : Out :=
  run t s fun s => gate (decide (s.power.ceilAt + 100000 ≤ s.now) && hayOn s) (fun s =>
    let s1 := (List.range 8).foldl (fun s q => if quadOn s q then ceilQuad s q fits (eff.getD q 1500) else s) s
    { s1 with power := { s1.power with ceilingMHz := max 600 (min 2100 (fits / 25 * 25)), ceilAt := s.now } }) s

/-! ## Voltage and frequency, droop (R389 to R392) -/

/-- A step's interval has passed. -/
def spaced (last : Option Nat) (ns now : Nat) : Bool :=
  match last with
  | none => true
  | some t => decide (t + ns ≤ now)

/-- VF_STEP (R389, R392): voltage first on the way up, frequency first on the way down; frozen while stretched and for 1 us
after, in a switch-over, and once a shed has stopped it. -/
def execVfStep (t q : Nat) (s : State) : Out :=
  run t s fun s =>
    let v := quadOf s q
    gate (quadOn s q && hayOn s && !v.stretched && !v.stopped &&
        (match v.frozenUntil with
          | none => true
          | some u => decide (u ≤ s.now))) (fun s =>
      if v.clkMHz ≤ v.tgtMHz && v.mV < v.tgtMV then
        if spaced v.lastVStep 2000 s.now then
          let mv := min v.tgtMV (v.mV + 5)
          (setQuad s q { v with mV := mv, lastVStep := some s.now }).emit (.avsSet q mv)
        else s
      else if v.clkMHz < v.tgtMHz then
        if spaced v.lastFStep 1000 s.now then setQuad s q { v with clkMHz := min v.tgtMHz (v.clkMHz + 25), lastFStep := some s.now }
        else s
      else if v.tgtMHz < v.clkMHz then
        if spaced v.lastFStep 1000 s.now then setQuad s q { v with clkMHz := max v.tgtMHz (v.clkMHz - 25), lastFStep := some s.now }
        else s
      else if v.tgtMV < v.mV then
        if spaced v.lastVStep 2000 s.now then
          let mv := max v.tgtMV (v.mV - 5)
          (setQuad s q { v with mV := mv, lastVStep := some s.now }).emit (.avsSet q mv)
        else s
      else s) s

/-- AGEING_TRIM_UPDATE (R390): at the first step 4 after each 60 s. -/
def execAgeingTrimUpdate (t q : Nat) (s : State) : Out :=
  run t s fun s => gate (boundaryDue s && trimDue s q && hayOn s) (fun s => trimQuad s q) s

/-- DROOP_DETECT (R391, R392). -/
def execDroopDetect (t q : Nat) (s : State) : Out :=
  run t s fun s =>
    let v := quadOf s q
    gate (quadOn s q && !v.stretched) (fun s =>
      let m := s.power.minute
      let s1 := setQuad s q { v with stretched := true, stretches := v.stretches + 1, quietCycles := 0 }
      { s1 with power := { s1.power with minute := { m with droops := m.droops + 1 } } }) s

/-- DROOP_RECOVER (R391): every detector has read above its threshold plus 10 mV for `cycles` consecutive cycles. -/
def execDroopRecover (t q cycles : Nat) (s : State) : Out :=
  run t s fun s =>
    let v := quadOf s q
    gate (quadOn s q && v.stretched) (fun s =>
      if cycles < 32 then setQuad s q { v with quietCycles := cycles }
      else setQuad s q { v with stretched := false, quietCycles := cycles, frozenUntil := some (s.now + 1000) }) s

/-- DROOP_THRESHOLD_UPDATE (R391): the monitors' least slack, in mV and per mille of the cycle. -/
def execDroopThresholdUpdate (t q slackMV slackPm : Nat) (s : State) : Out :=
  run t s fun s =>
    let v := quadOf s q
    gate (quadOn s q && decide (v.droopAt + 1000000 ≤ s.now)) (fun s =>
      setQuad s q { v with
        droopAt := s.now, droopMV := max 15 (min 50 (slackMV - 10)),
        leastSlack := if v.stretched then v.leastSlack else some (match v.leastSlack with
          | none => slackPm
          | some x => min x slackPm) }) s

/-- Every core of a quadrant is stalled on SHEAF_NEXT or parked, with its queue EMPTY (R394). -/
def quadIdle (s : State) (q : Nat) : Bool :=
  (span (144 * q) 144).all (fun c =>
    let k := coreOf s c
    (k.park || k.stall == some .sheafNext) && queueEmpty k)

/-- QUADRANT_GATE (R394): also no traffic comes in, as the step's coming about says. -/
def execQuadrantGate (t q : Nat) (s : State) : Out :=
  run t s fun s => gate (quadOn s q && !(quadOf s q).gated && quadIdle s q)
    (fun s => setQuad s q { quadOf s q with gated := true }) s

/-- QUADRANT_UNGATE (R394): a release or an arriving packet; in Idle the clocks stay gated. -/
def execQuadrantUngate (t q : Nat) (s : State) : Out :=
  run t s fun s => gate (quadOn s q && (quadOf s q).gated && !s.power.idle)
    (fun s => setQuad s q { quadOf s q with gated := false }) s

/-! ## Tallies (R397) -/

/-- One instant's draw into the bins of 10 ms (R380). -/
def binIn (w : Power) (now : Nat) (mj : Rat) : Power :=
  let n := (now - w.binStart) / 10000000
  let w1 := if n == 0 then w
    else { w with
      bins := (List.replicate (min 6000 (n - 1)) 0 ++ w.binEnergy :: w.bins).take 5999, binEnergy := 0,
      binStart := w.binStart + 10000000 * n }
  { w1 with binEnergy := w1.binEnergy + mj }

/-- The partition caps throttle their two quadrants (R393). -/
def capIssue (s : State) : State :=
  (List.range 4).foldl (fun s p =>
    let cap := mget 0 s.power.caps p
    let past := cap != 0 && decide (((cap : Nat) : Rat) < (mget [] s.power.partDraws p).sum / 1000)
    { s with power := { s.power with capD := mset s.power.capD p (if past then someD s (1 + p) else 16) } }) s

/-- TALLY_INTEGRATE (R397): 1 us of the fitted model. `shares` are the per-stack model's weights of the twelve stacks,
`dieBytes` the partitions' bytes on their die's links, `fabBytes` the partitions' and the transit bytes at the fabric die. -/
def execTallyIntegrate (t : Nat) (shares dieBytes fabBytes : List Nat) (s : State) : Out :=
  run t s fun s => gate (decide (s.power.tallyAt + 1000 ≤ s.now) && !s.boot.poweredOff && s.boot.stage.isSome) (fun s =>
    let w := (List.range 19).map (railW s)
    let at_ := fun r => w.getD r 0
    let stk := at_ 13 + at_ 14 + at_ 15 + at_ 16
    let all := ((shares.take 12).sum : Nat)
    let share := fun p => if all == 0 then 1 / 4 else (((stacksOf p).map (fun k => shares.getD k 0)).sum : Rat) / ((all : Nat) : Rat)
    let own := fun p => at_ (2 * p) + at_ (2 * p + 1) + stk * share p
    let fab := at_ 8 + at_ 9 + at_ 10 + at_ 12 + at_ 17 + at_ 18
    let draw := w.sum
    let d2d := fun p =>
      let n := dieBytes.getD (2 * (p / 2)) 0 + dieBytes.getD (2 * (p / 2) + 1) 0
      if n == 0 then at_ 11 / 4 else at_ 11 / 2 * (((dieBytes.getD p 0 : Nat) : Rat) / ((n : Nat) : Rat))
    let mj := fun (x : Rat) => x / 1000
    let p := s.power
    let tally := (List.range 4).foldl (fun t q => addRat t q (mj (own q))) (addRat p.tally 4 (mj fab))
    let fe := (List.range 4).foldl (fun t q => addRat t (10 + q) (mj (own q)))
      (addRat (addRat (addRat p.frameEnergy 0 (mj (at_ 11 / 2))) 1 (mj (at_ 11 / 2))) 2 (mj fab))
    let fb := (List.range 5).foldl (fun m k => mset m (4 + k) (mget 0 m (4 + k) + fabBytes.getD k 0))
      ((List.range 4).foldl (fun m k => mset m k (mget 0 m k + dieBytes.getD k 0)) p.frameBytes)
    let draws := (draw :: p.draws).take 1000
    let m := p.minute
    let peak := if p.tallyAt / 100000 != s.now / 100000 then max m.peakW (draws.sum / 1000) else m.peakW
    let p1 := binIn { p with
      tally := tally, frameEnergy := fe, frameBytes := fb, draws := draws, tallyAt := s.now,
      partDraws := (List.range 4).foldl (fun h q => mset h q ((own q + d2d q) :: (mget [] h q)  |>.take 1000)) p.partDraws,
      minute := { m with energyMJ := m.energyMJ + mj draw, peakW := peak,
                         shedNs := if p.shedOn then m.shedNs + 1000 else m.shedNs } } s.now (mj draw)
    governIssue (capIssue { s with power := p1 })) s

/-- MINUTE_END (R399): at step 2 of the boundary that is due. -/
def execMinuteEnd (t : Nat) (s : State) : Out :=
  run t s fun s => gate (boundaryDue s && minuteDue s) endMinute s

end Sys2Proof.Machine
end

