-- ==== Sys2Proof/Machine/BringUp.lean ====
section
/-!
DEFINITION. Machine/BringUp.lean: power-up, the reset pins, stages S0 to S8, the memory test's steps, and a lost rail (18, 22,
14 R350, 21 R497).
-/
namespace Sys2Proof.Machine

/-! ## Power-up and resets (R416) -/

/-- POWER_UP (R416): the AON island clears its bring-up record and holds every other block in reset; what the package store and
the fuses hold stays. -/
def execPowerUp (t : Nat) (s : State) : Out :=
  let now := max s.now t
  .next { State.reset with
    now := now, powerUpAt := now, pending := s.pending, freeCtr := s.freeCtr, outbox := s.outbox, fuses := s.fuses,
    power := { minute := { startNs := now } },
    faults := { store := s.faults.store, nextSeq := s.faults.nextSeq, boot := s.faults.boot },
    fw := { slotA := s.fw.slotA, slotB := s.fw.slotB, recordSeq := s.fw.recordSeq } }

/-- COLD_RESET (R416, 22 R517): COLD_RST_N has held a level for 100 AON cycles or more; a shorter low changes nothing. -/
def execColdReset (t : Nat) (level : Bool) (cycles : Nat) (s : State) : Out :=
  run t s fun s => gate (decide (100 ≤ cycles) && level != s.boot.coldRstN) (fun s =>
    if level then tryStartS0 { s with boot := { s.boot with coldRstN := true } }
    else aonReset { s with boot := { s.boot with coldRstN := false, pgLost := false } } 1) s

/-- A filtered pin takes a level (14 R350): 0 FLOW_OK, 1 SHED_N, 2 PG_IN. -/
def pinChange (s : State) (pin : Nat) (level : Bool) : State :=
  let f := mget {} s.evt.pins pin
  let s0 := { s with evt := { s.evt with pins := mset s.evt.pins pin { f with level := level } } }
  let s1 := fire s0 (6 + pin)
  match pin, level with
  | 0, true => { s1 with heat := { s1.heat with flowHighSince := some s.now, flowLowSince := none } }
  | 0, false => { s1 with heat := { s1.heat with flowLowSince := some s.now, flowHighSince := none } }
  | 1, true => shedHigh s1
  | 1, false => shedStart s1
  | _, true => tryStartS0 s1
  | _, false => if s1.boot.poweredOff then s1 else fire (aonReset s0 1) 8

/-- PIN_FILTER_CHANGE (14 R350): a pin has held a level for `cycles` AON cycles; fewer than N are a glitch. -/
def execPinFilterChange (t pin : Nat) (level : Bool) (cycles : Nat) (s : State) : Out :=
  run t s fun s =>
    let f := mget {} s.evt.pins pin
    gate (decide (pin < 3) && level != f.level) (fun s =>
      if cycles < cfg s (0x38 + pin) 4 then
        { s with evt := { s.evt with pins := mset s.evt.pins pin { f with glitches := satAdd 1023 f.glitches 1 } } }
      else pinChange s pin level) s

/-! ## S0 (R421 to R423) -/

/-- 7 days, ns. -/
def sevenDays : Nat := 604800000000000

/-- The full test is chosen (R422). -/
def fullTest (s : State) : Bool :=
  let b := s.boot
  b.resetKind == 0 || b.s6Unfinished || b.tripOrStop ||
  (match b.fullPassAt with
    | none => true
    | some f => decide (f + sevenDays < s.now))

/-- BRINGUP_S0: the straps, whether the fuse read passes, and the hold-up bank's drop in uV and voltage in mV. -/
def execBringupS0 (t strap : Nat) (fuseOk : Bool) (dvUv bankMv : Nat) (s : State) : Out :=
  run t s fun s => gate (inStage s 0 && decide (strap < 128) && mayRaise s) (fun s =>
    let valid := decide (1000 ≤ dvUv) && decide (dvUv ≤ 200000)
    let uf := if valid then 100000000 / dvUv else 0
    let s1 := { s with boot := { s.boot with
      posId := strap, testFull := fullTest s, holdupUf := uf, holdupMv := bankMv, holdupValid := valid } }
    let body := packBits [(strap, 7), (b2n fuseOk, 1), (uf / 100, 16), (bankMv, 16), (b2n valid, 1)]
    if 72 ≤ strap then stopBringUp s1 0 0x01 body
    else if !fuseOk then stopBringUp s1 0 0x02 body
    else
      let s2 := endStage s1 0 (if valid then 0 else 1) (if valid then 0 else 0x03) body
      { s2 with boot := { s2.boot with vrEn := 4 } }) s

/-! ## S1 (21 R497) -/

/-- Why a slot does not pass: 0 signature, 1 hash, 2 security version. -/
def slotFault (s : State) (k : Nat) (fails : List (Option Nat)) : Option Nat :=
  match fails.getD k none with
  | some c => some c
  | none => if (slotOf s k).secVersion < s.fuses.secCounter then some 2 else none

/-- The CONFIRMED slots, the higher VERSION first. -/
def confirmedSlots (s : State) : List Nat :=
  let l := [0, 1].filter (fun k => (slotOf s k).state == .confirmed)
  if s.fw.slotA.version < s.fw.slotB.version then l.reverse else l

/-- A slot that failed is logged and to be rejected. -/
def slotFailed (s : State) (k c : Nat) : State :=
  let s1 := faultLog s 0x63 4 [k, c]
  { s1 with fw := { s1.fw with toReject := s1.fw.toReject ++ [k] } }

/-- The first slot of a list that passes. -/
def firstSlot (fails : List (Option Nat)) : List Nat → State → State × Option Nat
  | [], s => (s, none)
  | k :: r, s =>
    match slotFault s k fails with
    | none => (s, some k)
    | some c => firstSlot fails r (slotFailed s k c)

/-- The Hasp's choice (21 R497): the fallback flag, the trial target, then the CONFIRMED slots. -/
def chooseSlot (s : State) (fails : List (Option Nat)) : State × Option Nat :=
  if s.fw.fallback then
    let left := [0, 1].filter (fun k => (slotOf s k).state == .staged)
    let s1 := { s with fw := { s.fw with fallback := false, toReject := left } }
    match firstSlot fails (confirmedSlots s1) s1 with
    | (s2, some k) => (faultLog s2 0x65 4 [left.headD 0, k], some k)
    | (s2, none) => (s2, none)
  else
    match s.fw.trial with
    | some k =>
      (match slotFault s k fails with
        | none => ({ s with fw := { s.fw with trialBoot := true } }, some k)
        | some c =>
          let s1 := slotFailed { s with fw := { s.fw with trial := none, windowEnd := none } } k c
          firstSlot fails (confirmedSlots s1) s1)
    | none => firstSlot fails (confirmedSlots s) s

/-- BRINGUP_S1 (R424): `fails` says for slot A and slot B what their verification finds. -/
def execBringupS1 (t : Nat) (failA failB : Option Nat) (s : State) : Out :=
  run t s fun s => gate (inStage s 1) (fun s =>
    let fails := [failA, failB]
    let (s1, pick) := chooseSlot { s with fw := { s.fw with toReject := [], trialBoot := false } } fails
    let body := fun k => packBits [(k, 2), (s.fuses.secCounter, 8)]
    match pick with
    | none => stopBringUp s1 1 0x10 (body 0)
    | some k =>
      let s2 := { s1 with fw := { s1.fw with running := k, runningVersion := (slotOf s1 k).version } }
      endStage s2 1 0 0 (body (2 ^ k))) s

/-! ## S2 (13 R322, R424) -/

/-- A Hayward after its self-test of S2. -/
def startedHay (s : State) (pass : Bool) (code : Nat) (st : HayState) (fails : List Nat) : Hayward :=
  if pass then { state := st, lastPass := true, fwVersion := s.fw.runningVersion, activations := b2n (st == .active) }
  else { state := .failed, lastFail := code, failCount := 1, fails := fails ++ [s.now], restartAt := some (s.now + 1000000000) }

/-- UPDATE_STATE at the end of S2 (21 Table 21-4). -/
def bootUpdateState (s : State) : Nat :=
  if s.fw.trialBoot then 4
  else if [0, 1].any (fun k => (slotOf s k).state == .staged && !s.fw.toReject.contains k) then 2 else 0

/-- The end of S2 (R424): the package enters BRINGUP, the mailboxes open, the tick generator enters ACQUIRING, and the flow
state is UNKNOWN (17 R405, R406). -/
def endS2 (s : State) : State :=
  fire { s with
    sess := { s.sess with pkg := some .bringup },
    tick := { s.tick with running := true, state := .acquiring, base := s.now, prev := s.now },
    heat := { s.heat with flowState := 4, lastReport := s.now },
    mbx := { s.mbx with quietSince := s.now, watchdogAt := s.now } } 23

/-- The record's S2 writes (21 R497): failed and left slots are marked REJECTED once the energy check passes. -/
def s2Record (s : State) (bankMv : Nat) : State :=
  if s.fw.toReject.isEmpty then s
  else if energyOk s bankMv eraseMJ then markRejected s
  else energyFail s 3 bankMv

/-- BRINGUP_S2: each Hayward's self-test result with its LAST_FAIL code, and the bank voltage in mV. -/
def execBringupS2 (t : Nat) (passA : Bool) (failA : Nat) (passB : Bool) (failB bankMv : Nat) (s : State) : Out :=
  run t s fun s => gate (inStage s 2) (fun s =>
    let a := startedHay s passA failA .active (hayOf s 0).fails
    let b := startedHay s passB failB (if passA then .standby else .active) (hayOf s 1).fails
    let s1 := setHay (setHay s 0 a) 1 b
    let code := fun (p : Bool) (x : Nat) => if p then 0 else x
    let stc := fun (h : Hayward) => match h.state with
      | .active => 2
      | .standby => 3
      | _ => 4
    let body := packBits [(stc a, 3), (stc b, 3), (0, 2), (code passA failA, 4), (code passB failB, 4)]
    if !passA && !passB then stopBringUp s1 2 0x20 body
    else
      let s2 := { s1 with mbx := { s1.mbx with activeId := if passA then 0 else 1 } }
      let s3 := if passA && passB then s2 else faultLog s2 0x10 4 [b2n passA, if passA then failB else failA]
      let s4 := { s3 with fw := { s3.fw with updateState := bootUpdateState s3 } }
      let both := passA && passB
      endStage (raiseCounter (s2Record (endS2 s4) bankMv)) 2 (b2n (!both)) (if both then 0 else 0x21) body) s

/-! ## S3 (R425, R426, 22 R510, R511) -/

/-- The quadrant rails' setpoints before they are enabled (22 R511). -/
def startQuads (s : State) : State :=
  (List.range 8).foldl (fun s q =>
    let mv := quadSetpoint s q 1200
    (setQuad s q { quadOf s q with clkMHz := 1200, mV := mv, tgtMHz := 1200, tgtMV := mv, gated := false, halved := false }).emit
      (.avsSet q mv)) s

/-- A compute die's link has failed: its partitions are FAILED and its stacks count as failed. -/
def failDie (s : State) (d : Nat) : State :=
  (span (6 * d) 6).foldl failStack ((partsOfDie d).foldl (fun s p => setPState s p .failed) s)

/-- BRINGUP_S3: bit masks of the compute dies and of the stacks whose links trained. -/
def execBringupS3 (t d2d stk : Nat) (s : State) : Out :=
  run t s fun s => gate (inStage s 3 && flowPin s && mayRaise s) (fun s =>
    let s1 := startQuads { s with boot := { s.boot with vrEn := 15 } }
    let s2 := (List.range 2).foldl (fun s d => if bit d2d d then s else failDie s d) s1
    let s3 := (List.range 12).foldl (fun s k =>
      let up := bit stk k && bit d2d (k / 6)
      let s' := setStack s k { stackOf s k with linkUp := up, selfRefresh := false }
      if bit stk k then s' else failStack s' k) s2
    let wait := msFrom s.boot.stageStart (limitFrom s 3)
    let body := packBits [(d2d, 2), (stk, 12), (wait, 32)]
    let cause := if d2d % 4 != 3 then 0x30 else if stk % 4096 != 4095 then 0x31 else 0
    endStage s3 3 (b2n (cause != 0)) cause body) s

/-! ## S4 and S5 (R427, R428) -/

/-- Physical tiles that the fuses name. -/
def fuseTiles (s : State) : List Nat := s.fuses.defects.map (fun e => 13 * e.1 + e.2)

/-- New defects are logged (Table 20-13): die, column, physical row, found by BIST. -/
def logDefects (s : State) (l : List Nat) : State :=
  l.foldl (fun s k => faultLog s 0x23 4 [k / 156, k / 13 % 12, k % 13, 0]) s

/-- A mask of columns 12 * d + c. -/
def colMask (f : Nat → Bool) : Nat := packBits ((List.range 24).map (fun c => (b2n (f c), 1)))

/-- BRINGUP_S4: physical tiles 13 * column + row that BIST fails, and each quadrant's ageing trim in mV. -/
def execBringupS4 (t : Nat) (bist trims : List Nat) (s : State) : Out :=
  run t s fun s => gate (inStage s 4) (fun s =>
    let fused := fuseTiles s
    let new := (bist.filter (fun k => k < 312 && !fused.contains k)).eraseDups
    let s1 := { s with boot := { s.boot with defective := fused ++ new } }
    let s2 := failColumns (buildMap (logDefects s1 new))
    let s3 := (List.range 8).foldl (fun s q =>
      let u := setQuad s q { quadOf s q with trim := min 40 (trims.getD q 0), trimAt := s.now, leastSlack := none }
      setQuad u q { quadOf u q with tgtMV := quadSetpoint u q (quadOf u q).tgtMHz }) s2
    let cols := s3.boot.failedCols
    let body := packBits [(colMask (fun c => (goodRows s3 c).length ≤ 12), 24), (colMask cols.contains, 24),
      (min 255 new.length, 8)]
    let cause := if !cols.isEmpty then 0x40 else if !new.isEmpty then 0x41 else 0
    endStage s3 4 (b2n (cause == 0x40)) cause body) s

/-- BRINGUP_S5: units sent their image twice; physical tiles and Gleaners that failed twice; whether a Thresher or a SerDes DSP
did. Every core then starts its image and stalls on SHEAF_NEXT. -/
def execBringupS5 (t retries : Nat) (tiles glns : List Nat) (other : Bool) (s : State) : Out :=
  run t s fun s => gate (inStage s 5) (fun s =>
    let bad := (tiles.filter (fun k => k < 312 && !s.boot.defective.contains k)).eraseDups
    let s1 := { s with boot := { s.boot with defective := s.boot.defective ++ bad } }
    let s2 := if bad.isEmpty then s1 else failColumns (buildMap (logDefects s1 bad))
    let dead := (List.range 12).filter glns.contains
    let s3 := dead.foldl failStack s2
    let body := packBits [(min max16 retries, 16), (packBits ((List.range 12).map (fun k => (b2n (dead.contains k), 1))), 12)]
    if other then stopBringUp s3 5 0x51 body
    else
      let s4 := { s3 with tiles := [], cores := [] }
      let cause := if bad.isEmpty && dead.isEmpty then 0 else 0x50
      endStage s4 5 (b2n (cause != 0)) cause body) s

/-! ## S6 (R429, 07 R181 to R183) -/

/-- The starts of the test's steps, ms (07 Table 7-6, R182); the last is the zero fill. -/
def testStarts (full : Bool) : List Nat :=
  if full then [0, 1500, 3000, 4500, 6000, 42000, 78000, 114000, 150000] else [0, 1500, 3000, 4500, 6000, 20000]

/-- The frames in which the step that ends found a mismatch or an uncorrectable line, and mismatching words of a stack. -/
def testResult (s : State) (k : Nat) (frames : List (Nat × Nat)) (words : Nat) : State :=
  let v := stackOf s k
  let new := (frames.filter (fun e => e.1 == k && e.2 < framesPerStack s)).map (·.2)
  setStack s k { v with retired := (v.retired ++ new).eraseDups, testMismatch := satAdd max16 v.testMismatch words }

/-- MEMORY_TEST_STEP (07 R181, R182): the next step begins at its time; `frames` and `words` are the results of the one that
ends. The last step fills every line with zero. -/
def execMemoryTestStep (t : Nat) (frames : List (Nat × Nat)) (words : List Nat) (s : State) : Out :=
  run t s fun s =>
    let starts := testStarts s.boot.testFull
    match s.memTest with
    | none => gate (inStage s 6 && decide (s.boot.stageStart + 4000000000 ≤ s.now)) (fun s =>
        let s1 := (List.range 12).foldl (fun s k => setStack s k { stackOf s k with retired := [], testMismatch := 0 }) s
        { s1 with memTest := some { full := s.boot.testFull, start := s.now, step := 0 } }) s
    | some m =>
      match starts[m.step + 1]? with
      | none => s
      | some at_ => gate (inStage s 6 && decide (m.start + 1000000 * at_ ≤ s.now)) (fun s =>
          let s1 := (List.range 12).foldl (fun s k => testResult s k frames (words.getD k 0)) s
          let s2 := { s1 with memTest := some { m with step := m.step + 1 } }
          if m.step + 2 == starts.length then
            let s3 := { s2 with mem := { s2.mem with stk := [] } }
            (List.range 12).foldl (fun s k => setStack s k { stackOf s k with bad := [], poisoned := [], writeBack := [] }) s3
          else s2) s

/-- A stack after training and test: its lanes, degraded pseudo-channels and peak; patrol at address 0, level 0. -/
def trainStack (s : State) (k : Nat) (lanes : List LaneTrain) (degraded : List (Nat × Nat)) (peak : Nat) : State :=
  let v := stackOf s k
  let ls := (lanes.filter (fun l => l.stack == k)).foldl (fun (m : SMap StkLane) l =>
    mset m l.lane { delay := l.delay, offset := l.offset, marked := l.marked }) []
  let pcs := (degraded.filter (fun e => e.1 == k)).foldl (fun (m : SMap PseudoChan) e => mset m e.2 { degraded := true }) []
  setStack s k { v with
    lanes := ls, pcs := pcs, peak := peak, patrolPos := 0, patrolLevel := 0, patrolAt := s.now,
    corrInterval := 0, quietRun := 0, trained := !v.failed }

/-- R183 on a stack: retired frames are logged; more than 64, or a degraded pseudo-channel, fail it. -/
def judgeStack (s : State) (k : Nat) : State :=
  let v := stackOf s k
  if v.failed then s
  else
    let s1 := v.retired.foldl (fun s f => faultLog s 0x21 (partOfStack k) [k, f]) s
    if 64 < v.retired.length || v.pcs.any (fun e => e.2.degraded) then
      failStack (setStack s1 k { stackOf s1 k with trained := false }) k
    else s1

/-- BRINGUP_S6 (R429): the lanes' training, the degraded pseudo-channels and each stack's peak temperature in the holds. -/
def execBringupS6 (t : Nat) (lanes : List LaneTrain) (degraded : List (Nat × Nat)) (peaks : List Nat) (s : State) : Out :=
  run t s fun s =>
    match s.memTest with
    | none => s
    | some m => gate (inStage s 6 && m.step + 1 == (testStarts s.boot.testFull).length) (fun s =>
        let before := (List.range 12).filter (fun k => (stackOf s k).failed)
        let s1 := (List.range 12).foldl (fun s k => trainStack s k lanes degraded (peaks.getD k 0)) s
        let s2 := (List.range 12).foldl judgeStack s1
        let new := (List.range 12).any (fun k => (stackOf s2 k).failed && !before.contains k)
        let cause := if new then 0x60 else if (List.range 12).any (fun k => !(stackOf s2 k).retired.isEmpty) then 0x61 else 0
        let body := packBits ([(packBits ((List.range 12).map (fun k => (b2n (stackOf s2 k).failed, 1))), 12), (0, 4)] ++
          (List.range 12).map (fun k => ((stackOf s2 k).retired.length, 16)) ++
          (List.range 12).map (fun k => (min 255 (stackOf s2 k).peak, 8)) ++
          [(((List.range 12).map (fun k => ((stackOf s2 k).lanes.filter (fun e => e.2.marked != 0)).length)).sum, 16)])
        let s3 := { s2 with
          memTest := none,
          boot := { s2.boot with s6Unfinished := false,
                                 tripOrStop := s2.boot.tripOrStop && !s2.boot.testFull,
                                 fullPassAt := if s2.boot.testFull && !new then some s2.now else s2.boot.fullPassAt } }
        endStage s3 6 (b2n new) cause body) s

/-! ## S7 and S8 (R430, R435) -/

/-- A link counts as up at the end of S7. -/
def linkIs (s : State) (st : LinkState) (k : Nat) : Bool := (linkOf s k).state == st

/-- No lane of a link has a signal. -/
def absent (s : State) (k : Nat) : Bool := (List.range 3).all (fun i => !(laneOf s (laneNo k i)).signal)

/-- BRINGUP_S7 (R430): the loopback lanes' margins in 0.1 dB. It ends when every link is UP, DEGRADED or MISWIRED, or after
12 s. -/
def execBringupS7 (t : Nat) (margins : List Int) (s : State) : Out :=
  run t s fun s =>
    let ks := List.range 71
    let settled := ks.all (fun k => linkIs s .up k || linkIs s .degraded k || linkIs s .miswired k)
    gate (inStage s 7 && !s.heat.stopped && (settled || decide (s.boot.stageStart + 12000000000 ≤ s.now))) (fun s =>
      let n := fun (f : Nat → Bool) => (ks.filter f).length
      let low := (margins.take 3).any (fun x => decide (x < 30))
      let worst := (margins.take 3).foldl min (margins.headD 0)
      let s1 := { s with fab := { s.fab with
        loop := (margins.take 3).zipIdx.foldl (fun m e => mset m e.2 e.1) s.fab.loop, loopAt := s.now } }
      let s2 := if low then fire s1 14 else s1
      let body := packBits [(n (linkIs s .up), 7), (n (linkIs s .degraded), 7), (n (linkIs s .miswired), 7), (n (absent s), 7),
        (unsx 8 worst, 8)]
      let notUp := ks.any (fun k => !(linkIs s .up k || linkIs s .degraded k))
      let cause := if notUp then 0x70 else if low then 0x71 else 0
      endStage s2 7 (b2n (cause != 0)) cause body) s

/-- BRINGUP_S8 (R435): the package enters UNCONFIGURED. -/
def execBringupS8 (t : Nat) (s : State) : Out :=
  run t s fun s => gate (s.boot.stage == some 8 && s.sess.pkg == some .bringup && s.boot.stopped.isNone && !s.mbx.headless) (fun s =>
    let body := packBits [(capacityFrames s, 24), (packBits ((List.range 4).map (fun p => (b2n (pstate s p == .failed), 1))), 4)]
    let s1 := storeReport s 8 0 0 body
    { s1 with sess := { s1.sess with pkg := some .unconfigured } }) s

/-! ## Limits and a lost rail (R418, 22 R512) -/

/-- STAGE_LIMIT_EXPIRE (R418): S7 ends by itself at 12 s; S3 waits for FLOW_OK without limit. -/
def execStageLimitExpire (t : Nat) (s : State) : Out :=
  run t s fun s =>
    match s.boot.stage with
    | none => s
    | some n => gate (decide (n ≤ 6) && s.boot.stopped.isNone && !(3 ≤ n && s.mbx.headless) && (n != 3 || flowPin s) &&
        decide (limitFrom s n + stageLimit n s.boot.testFull < s.now)) (fun s => stopBringUp s n 0x8F 0) s

/-- VR_EN of a rail (Table 16-1); the read-only rails have none. -/
def railEnable (r : Nat) : Option Nat :=
  if r < 4 then some 0 else if r < 8 then some 1 else if r < 12 then some 2 else if 13 ≤ r && r < 17 then some 3 else none

/-- RAIL_PG_LOSS (22 R512): the AON island drops every VR_EN and holds the package until COLD_RST_N or a power-up. -/
def execRailPgLoss (t rail : Nat) (s : State) : Out :=
  run t s fun s =>
    match railEnable rail with
    | none => s
    | some e => gate (s.boot.vrEn.getLsbD e && (8 ≤ rail || !s.power.fallow.contains (rail / 4))) (fun s =>
        let s1 := aonReset s 1
        refreshAlert { s1 with boot := { s1.boot with pgLost := true, bootStage := 0xF } }) s

end Sys2Proof.Machine
end

