-- ==== Sys2Proof/Machine/Events.lean ====
section
/-!
DEFINITION. Machine/Events.lean: the commands of the Event Hub (14).
-/
namespace Sys2Proof.Machine

/-- A source is to be delivered to `f`: pending, unmasked, not delivered, and not held in Fallow (R351, R359). -/
def deliverable (s : State) (f src : Nat) : Bool :=
  let b := evtBit s f src
  decide (f < 5) && sees f src && assigned src && b.pend && !b.mask && !b.dlvd && !s.evt.held && !s.boot.poweredOff

/-- Delivery commits and one message goes to the function's MSI-X logic (R351). -/
def deliverTo (s : State) (f src : Nat) : State :=
  let b := evtBit s f src
  msixSend (setEvtBit s f src { b with dlvd := true }) f b.vec

/-- EVENT_DELIVER (R351). -/
def execEventDeliver (t f src : Nat) (s : State) : Out :=
  run t s fun s => gate (deliverable s f src) (fun s => deliverTo s f src) s

/-- The sources of register index `n`, or of `n` and `n + 1` in a 64-bit access, with their bits of the data (R356). -/
def regSources (n data : Nat) (wide : Bool) : List (Nat × Bool) :=
  (List.range (if wide then 64 else 32)).map (fun b => (32 * n + b, bit data b))

/-- An EVT_ register index names a register, and a 64-bit access is aligned (R356, 00 R14). -/
def regIndexOk (n : Nat) (wide : Bool) : Bool := decide (n < 16) && (!wide || n % 2 == 0)

/-- One pending bit is written (R353): 1 sets it as a firing would, 0 clears it and its delivered state; bits 5:0 of
EVT_PEND0 are RO (R354). -/
def pendWriteBit (f : Nat) (s : State) (e : Nat × Bool) : State :=
  let (src, v) := e
  if sees f src && assigned src && decide (5 < src) then
    let b := evtBit s f src
    setEvtBit s f src (if v then { b with pend := true } else { b with pend := false, dlvd := false })
  else s

/-- EVT_PEND_WRITE (R353). -/
def execEvtPendWrite (t f n data : Nat) (wide : Bool) (s : State) : Out :=
  run t s fun s => gate (barOpen s f (0x2000 + 4 * n) && regIndexOk n wide)
    (fun s => (regSources n data wide).foldl (pendWriteBit f) s) s

/-- One mask bit is written (R352). -/
def maskWriteBit (f : Nat) (s : State) (e : Nat × Bool) : State :=
  let (src, v) := e
  if sees f src && assigned src then setEvtBit s f src { evtBit s f src with mask := v } else s

/-- EVT_MASK_WRITE (R352): a source pending and not delivered that it unmasks is then delivered by EVENT_DELIVER. -/
def execEvtMaskWrite (t f n data : Nat) (wide : Bool) (s : State) : Out :=
  run t s fun s => gate (barOpen s f (0x2040 + 4 * n) && regIndexOk n wide)
    (fun s => (regSources n data wide).foldl (maskWriteBit f) s) s

/-- EVT_PRIV_SET_WRITE (R354): a host's write is discarded and counted in SYS_ERR; the active Hayward's fires the
sources. -/
def execEvtPrivSetWrite (t f data : Nat) (byHost : Bool) (s : State) : Out :=
  run t s fun s =>
    if byHost then gate (barOpen s f 0x2300) (fun s => sysErrInc s f) s
    else gate (!s.mbx.headless && s.sess.pkg.isSome)
      (fun s => (List.range 6).foldl (fun s i => if bit data i then fire s i else s) s) s

/-- EVT_PRIV_CLR_WRITE (R354): each 1 clears the pending bit and its delivered state in the writer's copy. -/
def execEvtPrivClrWrite (t f data : Nat) (s : State) : Out :=
  run t s fun s => gate (barOpen s f 0x2304)
    (fun s => (List.range 6).foldl
      (fun s i => if bit data i then setEvtBit s f i { evtBit s f i with pend := false, dlvd := false } else s) s) s

end Sys2Proof.Machine
end

