-- ==== Sys2Proof/Machine/Host.lean ====
section
/-!
DEFINITION. Machine/Host.lean: the PCIe endpoint: BAR4, resets, mastering, IDE and the timeouts of device reads (12 R304 to
R312).
-/
namespace Sys2Proof.Machine

def ideOf (s : State) (f i : Nat) : Ide := mget {} s.host.ide (2 * f + i)
def setIde (s : State) (f i : Nat) (v : Ide) : State :=
  { s with host := { s.host with ide := mset s.host.ide (2 * f + i) v } }

/-- A request outside every stream falls within an address association of a Secure stream of the function (R309). -/
def ideOutside (s : State) (f addr : Nat) (inStream : Bool) : Bool :=
  !inStream && (List.range 2).any (fun i => (ideOf s f i).secure && (ideOf s f i).assoc.any (fun a => a.1 ≤ addr && addr < a.2))

/-- A stream of the function has failed, and no new key set has reached Secure (R309). -/
def ideFailed (s : State) (f : Nat) : Bool := (List.range 2).any (fun i => (ideOf s f i).failed)

/-- A request refused for arriving outside a stream counts in the partition fabric record (R309). -/
def ideViolation (s : State) (f : Nat) : State :=
  setPartRec s (f - 1) { partRec s (f - 1) with ideViol := satAdd max16 (partRec s (f - 1)).ideViol 1 }

/-- Memory address of a BAR4 offset (R306). -/
def bar4Addr (f off : Nat) : Nat := (f - 1) * 2 ^ 38 + off

/-- Every page of a request belongs to a buffer allocated to the partition. -/
def bar4Mapped (s : State) (f off n : Nat) : Bool :=
  off + n ≤ 2 ^ 38 && (linesOf (bar4Addr f off) n).all (fun a =>
    match bufAt s a with
    | none => false
    | some (_, b) => b.owner == f - 1)

/-- A BAR4 request's refusal: 1 Unsupported Request, 2 Completer Abort (R306, R309, R312). -/
def bar4Refusal (s : State) (f off n : Nat) (inStream : Bool) : Option Nat :=
  if (fnOf s f).d3 then some 1
  else if refusing s (f - 1) then some 2
  else if ideOutside s f off inStream then some 1
  else if ideFailed s f then some 2
  else if !bar4Mapped s f off n then some 1 else none

/-- A refusal's count. -/
def bar4Refuse (s : State) (f off : Nat) (inStream : Bool) : State :=
  if !(fnOf s f).d3 && !refusing s (f - 1) && ideOutside s f off inStream then ideViolation s f else s

/-- BAR4_READ (R306, R307): served, with the EP bit where a line is uncorrectable or poisoned, or refused. -/
def execBar4Read (t f off n : Nat) (inStream : Bool) (mi : MemIn) (s : State) : Out :=
  run t s fun s => gate (s.host.linkUp && decide (1 ≤ f) && decide (f ≤ 4) && decide (0 < n)) (fun s =>
    match bar4Refusal s f off n inStream with
    | some c => (bar4Refuse s f off inStream).emit (.hostCpl f c [])
    | none => gate (rangeReady s (bar4Addr f off) n) (fun s =>
        let (s1, bs, bad) := maRead s 2 (bar4Addr f off) n mi
        s1.emit (.hostCpl f (if bad.isEmpty then 0 else 3) bs)) s) s

/-- BAR4_WRITE (R306): posted; a refused one moves no data, and a line that cannot take it is the uncorrectable-memory event
of the partition, raised where the line is read (07 R171). -/
def execBar4Write (t f off : Nat) (data : List Byte) (inStream : Bool) (mi : MemIn) (s : State) : Out :=
  run t s fun s => gate (s.host.linkUp && decide (1 ≤ f) && decide (f ≤ 4) && data != []) (fun s =>
    match bar4Refusal s f off data.length inStream with
    | some _ => bar4Refuse s f off inStream
    | none => gate (rangeReady s (bar4Addr f off) data.length) (fun s =>
        (maWrite s 2 (bar4Addr f off) data mi).1) s) s

/-! ## Mastering (R308, R311) -/

/-- Messages held in the pending-bit array are sent once nothing masks them. -/
def flushPba (s : State) (f : Nat) : State :=
  let n := fnOf s f
  if canMaster s f && !n.fmask then
    let open_ := n.pba.filter (fun v => !(mget {} n.vecs v).masked)
    open_.foldl (fun s v => s.emit (.msix f v))
      (setFn s f { n with pba := n.pba.filter (fun v => (mget {} n.vecs v).masked) })
  else s

/-- The function can master the link again, or can no longer: dirty Cellar sectors and held messages go out, or the time of
R311 starts to run. -/
def masterChange (s : State) (f : Nat) : State :=
  if canMaster s f then
    let s1 := flushPba { s with host := { s.host with blockedSince := mdel s.host.blockedSince f } } f
    if 1 ≤ f then cleanCellar s1 (f - 1) else s1
  else if (mfind s.host.blockedSince f).isSome then s
  else { s with host := { s.host with blockedSince := mset s.host.blockedSince f s.now } }

/-- PCIE_CONFIG_WRITE (R308, R311, 14 R351). -/
def execPcieConfigWrite (t f : Nat) (bme d3 fmask : Bool) (s : State) : Out :=
  run t s fun s => gate (s.host.linkUp && decide (f < 5))
    (fun s => masterChange (setFn s f { fnOf s f with bme := bme, d3 := d3, fmask := fmask }) f) s

/-- PCIE_LINK_UP (R304): lanes that failed leave a reduced width. -/
def execPcieLinkUp (t width : Nat) (s : State) : Out :=
  run t s fun s => gate ([1, 2, 4, 8, 16].contains width && s.sess.pkg.isSome)
    (fun s => (List.range 5).foldl masterChange { s with host := { s.host with linkUp := true, width := width } }) s

/-- PCIE_LINK_DOWN (R311). -/
def execPcieLinkDown (t : Nat) (s : State) : Out :=
  run t s fun s => gate s.host.linkUp
    (fun s => (List.range 5).foldl masterChange { s with host := { s.host with linkUp := false, width := 0 } }) s

/-! ## Resets (R310, Table 12-3) -/

/-- A function's EVT_ fields at their reset values (14 R357); the glitch counts are PF0's. -/
def resetEvt (s : State) (f : Nat) : State :=
  { s with evt := { s.evt with
      bits := mkeep s.evt.bits (fun k _ => k / 512 != f),
      pins := if f == 0 then mmap s.evt.pins (fun _ p => { p with glitches := 0 }) else s.evt.pins } }

/-- A function's configuration space, MSI-X, IDE streams, mailbox rings and EVT_ fields; commands taken before run on, and
their responses are discarded. SYS_ERR returns to 0 (00 R15), and the function's SPDM session ends (19 Table 19-1). -/
def resetFn (s : State) (f : Nat) : State :=
  let s1 := resetBox (resetEvt (setFn s f {}) f) f
  masterChange { s1 with
    host := { s1.host with ide := mkeep s1.host.ide (fun k _ => k / 2 != f), sysErr := mdel s1.host.sysErr f },
    keys := { s1.keys with spdm := mdel s1.keys.spdm f } } f

/-- PCIE_RESET (R310): PERST_N, hot reset or link disable. -/
def execPcieReset (t : Nat) (s : State) : Out :=
  run t s fun s => (List.range 5).foldl resetFn { s with host := { s.host with linkUp := false, width := 0 } }

/-- FLR (R310). -/
def execFlr (t f : Nat) (s : State) : Out :=
  run t s fun s => gate (s.host.linkUp && decide (f < 5)) (fun s => resetFn s f) s

/-! ## Failures of device requests and of IDE -/

/-- DEVICE_READ_TIMEOUT (R308, R311): a Cellar sector's read times out, is answered by an error, or has waited 10 ms for a
function that cannot master the link; its lines are returned poisoned. (A mailbox payload fetch that times out is a mailbox
command's `fetchOk`.) -/
def execDeviceReadTimeout (t p g : Nat) (s : State) : Out :=
  run t s fun s =>
    let asked := match cellarBuf s p g with | some b => b.pending | none => true
    let blocked := match mfind s.host.blockedSince (p + 1) with
      | none => true
      | some b => decide (b + 10000000 ≤ s.now)
    gate (decide (p < 4) && (cellarOf s p).lent && (mfind (cellarOf s p).table g).isSome && asked && blocked) (fun s =>
      let c := cellarOf s p
      let rest := c.buf.filter (fun x => x.sector != g)
      gate (decide (rest.length < 64)) (fun s =>
        setPartRec (setCellar s p { c with buf := rest ++
            [{ sector := g, data := (mget {} c.table g).data, poison := 2 ^ 32 - 1 }] }) p
          { partRec s p with cellarTo := satAdd max16 (partRec s p).cellarTo 1 }) s) s

/-- IDE_INTEGRITY_FAIL (R309): a Secure stream goes to Insecure; the event is raised in any case (19, Coincidences). -/
def execIdeIntegrityFail (t f i : Nat) (s : State) : Out :=
  run t s fun s => gate (decide (1 ≤ f) && decide (f ≤ 4) && decide (i < 2)) (fun s =>
    let v := ideOf s f i
    firePart (if v.secure then setIde s f i { v with secure := false, keySet := false, failed := true } else s) (f - 1) 11) s

end Sys2Proof.Machine
end

