-- ==== Sys2Proof/Machine/Registers.lean ====
section
/-!
DEFINITION. Machine/Registers.lean: the registers of BAR0 and the CSRs that have no command of their own: reads that clear,
plain writes, and accesses that are refused (00 R11 to R15, 02 R54, 04 Tables 4-2 to 4-8, 13 Table 13-5, 14 Table 14-3).
-/
namespace Sys2Proof.Machine

/-! ## Values of the registers, 32 bits at an offset -/

/-- SYS_IDENT (00 Table 0-2). -/
def sysIdent (s : State) : Nat := 0x0C110000 + 256 * s.fuses.variant + 0x20

/-- Partitions whose TICK_ bits function `f` sees (02 R54). -/
def tickSees (f p : Nat) : Bool := f == 0 || f == p + 1

/-- TICK_OVERRUN (Table 2-14). -/
def tickOverrun (s : State) (f : Nat) : Nat :=
  let rel := fun p : Nat => (mget {} s.tick.rel p : Release)
  let late := fun p => tickSees f p && (rel p).late
  packBits ((List.range 4).map (fun p => (b2n (late p), 1)) ++
    [(0, 4), (((List.range 4).map (fun p => if late p then (rel p).lag else 0)).foldl max 0, 3)])

/-- TICK_OVERRUN_COUNT of a function's copy. -/
def overrunCount (s : State) (f : Nat) : Nat :=
  min max32 ((List.range 4).map (fun p => mget 0 s.tick.overruns (4 * f + p))).sum

/-- Sync state code (Table 2-2). -/
def syncCode (x : SyncState) : Nat :=
  match x with
  | .acquiring => 0 | .locked => 1 | .freeRun => 2 | .halted => 3

/-- GOOD_RUN: 0 again once the last local tick's T/8 has passed with no edge near it (02 R38). -/
def goodRunNow (s : State) : Nat :=
  if s.tick.state == .freeRun && !s.tick.seenLast && s.tick.prev + 125 * s.tick.periodUs < s.now then 0 else s.tick.goodRun

/-- TICK_SYNC_STATE (Table 2-11); its reset value until the generator runs. -/
def syncWord (s : State) : Nat :=
  packBits [(syncCode s.tick.state, 2), (b2n s.tick.countValid, 1), (b2n s.tick.localCount, 1), (s.tick.missRun, 4),
    (goodRunNow s, 3), (0, 5), (if s.tick.sf.aligned || !s.tick.running then s.tick.sf.pos else 127, 7)]

/-- MBX_STATUS (13 Table 13-5, offset 0x1010). -/
def mbxStatus (s : State) (f : Nat) : Nat :=
  let b := boxOf s f
  let other := hayOf s (1 - s.mbx.activeId)
  packBits [(s.mbx.activeId, 1), (b2n s.mbx.busy, 1), (b2n b.throttledUntil.isSome, 1), (b2n b.overrun, 1),
    (b2n s.mbx.headless, 1), (b2n (other.state == .standby && other.lastPass), 1), (0, 2), (inFlight s f, 5)]

/-- Bits of 32 sources as one word: 0 where the function does not see the source (R349), and of an unassigned source its
reset value (R347). -/
def evtWord (s : State) (f n : Nat) (g : EvtBit → Bool) : Nat :=
  packBits ((List.range 32).map (fun b =>
    let src := 32 * n + b
    (b2n (sees f src && g (if assigned src then evtBit s f src else {})), 1)))

/-- The three GLITCH counts (Table 14-3). -/
def glitchWord (s : State) : Nat := packBits ((List.range 3).map (fun i => ((mget {} s.evt.pins i).glitches, 10)))

/-- A 64-bit register's half. -/
def half (v off : Nat) : Nat := bits v (8 * (off % 8)) 32

/-- The value of the 32 bits at a BAR0 offset, as function `f` reads it. -/
def barRead (s : State) (f off : Nat) : Nat :=
  let b := boxOf s f
  let c : TickRc := mget {} s.tick.rc f
  let own := fun (p v : Nat) => if tickSees f p then v else 0
  if off == 0x0000 then sysIdent s
  else if off == 0x0004 then mget 0 s.host.sysErr f
  else if off == 0x1000 then b.reqTail
  else if off == 0x1004 then b.reqHead
  else if off == 0x1008 then b.rspTail
  else if off == 0x100C then b.rspHead
  else if off == 0x1010 then mbxStatus s f
  else if off == 0x1014 then packBits [(0, 1), (b2n b.irqEn, 1)]
  else if off == 0x1018 then b.violCount
  else if 0x2000 ≤ off && off < 0x2040 then evtWord s f ((off - 0x2000) / 4) (·.pend)
  else if 0x2040 ≤ off && off < 0x2080 then evtWord s f ((off - 0x2040) / 4) (·.mask)
  else if 0x2080 ≤ off && off < 0x20C0 then evtWord s f ((off - 0x2080) / 4) (·.dlvd)
  else if 0x2100 ≤ off && off < 0x2300 then
    packBits ((List.range 4).map (fun k => (if sees f (off - 0x2100 + k) then (evtBit s f (off - 0x2100 + k)).vec else 0, 8)))
  else if off == 0x2308 then (if f == 0 then packBits [(cfg s 0x38 4, 8), (cfg s 0x39 4, 8), (cfg s 0x3A 4, 8)] else 0)
  else if off == 0x230C then (if f == 0 then glitchWord s else 0)
  else if off == 0x2310 then
    packBits [(b2n s.evt.held, 1), (b2n s.evt.wakeValid, 1), (s.evt.wakeEntry, 5), (b2n s.evt.wakePriv, 1), (s.evt.wakes, 24)]
  else if off == 0x3000 || off == 0x3004 then half s.tick.count.toNat off
  else if off == 0x3008 then packBits [(s.tick.periodUs, 10), (0, 6), (s.tick.nextUs, 10), (0, 5), (b2n s.tick.nextValid, 1)]
  else if off == 0x3010 || off == 0x3014 then half s.tick.periodAt.toNat off
  else if off == 0x3018 then syncWord s
  else if off == 0x301C then unsx 32 s.tick.lastOffset
  else if off == 0x3020 then c.oow
  else if off == 0x3024 then c.miss
  else if off == 0x3028 then c.loss
  else if off == 0x302C then c.correct
  else if off == 0x3030 then tickOverrun s f
  else if off == 0x3034 then overrunCount s f
  else if 0x4000 ≤ off && off < 0x4020 then half (own ((off - 0x4000) / 8) (mget 0 s.power.mirror ((off - 0x4000) / 8))) off
  else if 0x4020 ≤ off && off < 0x4028 then (if f == 0 then half (mget 0 s.power.mirror 4) off else 0)
  else if 0x4028 ≤ off && off < 0x4048 then half (own ((off - 0x4028) / 8) (mget 0 s.power.mirror (5 + (off - 0x4028) / 8))) off
  else if off == 0x4048 || off == 0x404C then half s.power.mirrorTick off
  else if 0x8000 ≤ off && off < 0x8400 then
    let v : MsixVec := mget {} (fnOf s f).vecs ((off - 0x8000) / 16)
    (match off % 16 with
    | 0 => bits v.addr 0 32
    | 4 => bits v.addr 32 32
    | 8 => v.data
    | _ => b2n v.masked)
  else if off == 0x9000 || off == 0x9004 then
    half (packBits ((List.range 64).map (fun i => (b2n ((fnOf s f).pba.contains i), 1)))) off
  else 0

/-! ## Reads that clear (00 Table 0-5, R14) -/

/-- Offsets of the RC fields of BAR0. -/
def rcOffset (f off : Nat) : Bool :=
  [0x0004, 0x1018, 0x3020, 0x3024, 0x3028, 0x302C, 0x3034].contains off || (f == 0 && off == 0x230C)

/-- The RC field at an offset is cleared in the reader's copy. -/
def rcClear (s : State) (f off : Nat) : State :=
  let c : TickRc := mget {} s.tick.rc f
  let put := fun (v : TickRc) => { s with tick := { s.tick with rc := mset s.tick.rc f v } }
  if off == 0x0004 then { s with host := { s.host with sysErr := mset s.host.sysErr f 0 } }
  else if off == 0x1018 then setBox s f { boxOf s f with violCount := 0 }
  else if off == 0x230C then
    (if f == 0 then { s with evt := { s.evt with pins := mmap s.evt.pins (fun _ p => { p with glitches := 0 }) } } else s)
  else if off == 0x3020 then put { c with oow := 0 }
  else if off == 0x3024 then put { c with miss := 0 }
  else if off == 0x3028 then put { c with loss := 0 }
  else if off == 0x302C then put { c with correct := 0 }
  else if off == 0x3034 then
    { s with tick := { s.tick with overruns := mkeep s.tick.overruns (fun k _ => k / 4 != f) } }
  else s

/-- A BAR0 access at an offset is answered with Completer Abort: the function's partition refuses (12 R312). -/
def barAborts (s : State) (f off : Nat) : Bool := s.host.linkUp && decide (f < 5) && !barOpen s f off

/-- RC_FIELD_READ (00 R11, 04 Table 4-8): the value, then the field is 0 in the reader's copy; a 64-bit read takes two
registers as one access (R14). -/
def execRcFieldRead (t : Nat) (r : RcTarget) (s : State) : Out :=
  run t s fun s =>
    match r with
    | .bar0 f off wide =>
      if barAborts s f off then s.emit (.hostCpl f 2 [])
      else gate (barOpen s f off && (rcOffset f off || wide && rcOffset f (off + 4)) && off % (if wide then 8 else 4) == 0)
        (fun s =>
          let v := if wide then barRead s f off + 2 ^ 32 * barRead s f (off + 4) else barRead s f off
          let s1 := rcClear s f off
          (if wide then rcClear s1 f (off + 4) else s1).emit (.regRead f v)) s
    | .spadEcc c => gate (coreReady s c) (fun s =>
        let i := tileOfCore c
        let u := tileOf s i
        (setTile s i { u with eccCorr := 0, eccUncorr := 0 }).emit (.coreRead c (packBits [(u.eccCorr, 32), (u.eccUncorr, 16)]))) s

/-- BAR0_BAD_ACCESS (R14): not a naturally aligned access of 32 or 64 bits, or outside the defined blocks (12 R305). -/
def execBar0BadAccess (t f off n : Nat) (isRead : Bool) (s : State) : Out :=
  run t s fun s =>
    let good := (n == 4 || n == 8) && off % n == 0
    let inBlock := [(0x0000, 8), (0x1000, 0x1000), (0x2000, 0x1000), (0x3000, 0x1000), (0x4000, 0x1000), (0x8000, 0x400),
      (0x9000, 8)].any (fun b => b.1 ≤ off && off + n ≤ b.1 + b.2)
    if barAborts s f off then s.emit (.hostCpl f 2 [])
    else gate (barOpen s f off && !(good && inBlock)) (fun s =>
      if isRead then (sysErrInc s f).emit (.regRead f 0) else sysErrInc s f) s

/-! ## Plain writes -/

/-- Four vectors of EVT_VEC are written (14 R356). -/
def vecWrite (s : State) (f n data : Nat) : State :=
  (List.range 4).foldl (fun s k =>
    let src := 4 * n + k
    if sees f src && assigned src then setEvtBit s f src { evtBit s f src with vec := bits data (8 * k) 6 } else s) s

/-- One word of the MSI-X table (12 R305); an unmasked vector's held message goes out (14 R351). -/
def msixWrite (s : State) (f off data : Nat) : State :=
  let i := (off - 0x8000) / 16
  let n := fnOf s f
  let v : MsixVec := mget {} n.vecs i
  let w := match off % 16 with
    | 0 => { v with addr := setBits v.addr 0 32 data }
    | 4 => { v with addr := setBits v.addr 32 32 data }
    | 8 => { v with data := data }
    | _ => { v with masked := bit data 0 }
  flushPba (setFn s f { n with vecs := mset n.vecs i w }) f

/-- A 32-bit write of BAR0 by a host to a register without a command of its own. Fields that are RO, RC or RSV take
nothing. -/
def barWrite (s : State) (f off data : Nat) : State :=
  if off == 0x1010 then (if bit data 3 then setBox s f { boxOf s f with overrun := false } else s)
  else if off == 0x1014 then (if bit data 0 then s else setBox s f { boxOf s f with irqEn := bit data 1 })
  else if 0x2100 ≤ off && off < 0x2300 then vecWrite s f ((off - 0x2100) / 4) data
  else if 0x8000 ≤ off && off < 0x8400 then msixWrite s f off data
  else s

/-- A CSR written by its core (04 Tables 4-2, 4-3; 03 Table 3-7). -/
def csrWrite (s : State) (c addr v : Nat) : State :=
  let k := coreOf s c
  let i := tileOfCore c
  if 0x7C0 ≤ addr && addr ≤ 0x7C6 then setCore s c { k with stage := mset k.stage (addr - 0x7C0) (v % 2 ^ 64) }
  else if addr == 0x7CA then setCore s c { k with ccSel := v % 4096 }
  else if addr == 0x7CE then setTile s i { tileOf s i with flags := (tileOf s i).flags &&& ~~~(BitVec.ofNat 8 v) }
  else if addr == 0x7D0 then sheafSettle (setCore s c { k with park := bit v 0 }) (partOfCore c)
  else if addr == 0x7D1 then setCore s c { k with wdog := v % 256 }
  else s

/-- REGISTER_WRITE (00 R11). BAR2 is the mailbox window (13 R335), which a fenced partition's function still serves, and
which an IDE stream may guard (12 R309). -/
def execRegisterWrite (t : Nat) (r : RegTarget) (s : State) : Out :=
  run t s fun s =>
    match r with
    | .bar0 f off data wide => gate (barOpen s f off && off % (if wide then 8 else 4) == 0) (fun s =>
        if wide then barWrite (barWrite s f off (data % 2 ^ 32)) f (off + 4) (data / 2 ^ 32 % 2 ^ 32)
        else barWrite s f off (data % 2 ^ 32)) s
    | .bar2 f off bs inStream => gate (s.host.linkUp && decide (f < 5) && decide (off + bs.length ≤ 65536)) (fun s =>
        if 1 ≤ f && ideOutside s f off inStream then ideViolation s f else winWrite s f off bs) s
    | .csr c addr v => gate (coreReady s c) (fun s => csrWrite s c addr v) s

end Sys2Proof.Machine
end

