-- ==== Sys2Proof/Machine/Commands.lean ====
section
/-!
DEFINITION. Machine/Commands.lean: the identity, configuration, channel, group, LPT and telemetry commands of the catalogue
(15 Tables 15-3 to 15-7, 15-11, 15-14, 15-19 to 15-22).
-/
namespace Sys2Proof.Machine

/-- `n` numbers of two bytes each, from the first. -/
def u16s (n : Nat) (l : List Byte) : List Nat := (List.range n).map (fun i => leNat ((l.drop (2 * i)).take 2))

/-! ## Identity and status (0x01xx) -/

/-- Table 15-4. -/
def identityRecord (s : State) : Nat :=
  let own := lpkgOf s s.boot.posId
  packBits [(leNat (fit 12 s.fuses.serial), 96), (sysIdent s, 32), (s.boot.posId, 7), (b2n own.isSome, 1), (own.getD 0, 6), (0, 2),
    (capacityFrames s, 24), (packBits ((List.range 12).map (fun k => (b2n (stackOf s k).failed, 1))), 12), (0, 4),
    (s.fw.runningVersion, 32), (s.fuses.secCounter, 8), (s.fw.running, 1)]

/-- IDENTITY (R366, Table 15-4). -/
def execIdentity (t : Nat) (a : MbxArgs) (s : State) : Out :=
  mbxCmd { opcode := 0x0100, rights := 7, pkg := .any, partUse := .pkg, resp := 32 } anyReq noChk
    (fun _ s => (s, .done 0 (leBytes 32 (identityRecord s)))) t a s

/-- STATE of Table 13-2. -/
def hayCode (x : HayState) : Nat :=
  match x with
  | .off => 0 | .selftest => 1 | .active => 2 | .standby => 3 | .failed => 4

/-- Table 13-2. -/
def healthReport (s : State) (h : Nat) : Nat :=
  let y := hayOf s h
  packBits [(hayCode y.state, 3), (h, 1), (b2n y.lastPass, 1), (0, 3), (y.lastFail, 4), (0, 4), (min max16 y.healthyS, 16),
    (y.uptimeS, 32), (y.sramCorr, 16), (y.failCount, 8), (y.restarts, 8), (y.activations, 16), (0, 16), (y.fwVersion, 32),
    (y.reportSeq, 32)]

/-- HAYWARD_HEALTH (13 R325): RC fields clear for the operator only. -/
def execHaywardHealth (t : Nat) (a : MbxArgs) (s : State) : Out :=
  mbxCmd { opcode := 0x0101, rights := 7, pkg := .any, partUse := .pkg, resp := 32 } anyReq noChk
    (fun r s =>
      let h := r.f 0 1
      (if r.op then setHay s h { hayOf s h with sramCorr := 0, failCount := 0 } else s, .done 0 (leBytes 32 (healthReport s h))))
    t a s

/-- Table 15-1. -/
def pkgCode (x : Option PkgState) : Nat :=
  match x with
  | some .unconfigured => 1 | some .configured => 2 | _ => 0

/-- Table 15-2. -/
def partCode (x : PState) : Nat :=
  match x with
  | .free => 0 | .assigned => 1 | .running => 2 | .fenced => 3 | .resetting => 4 | .winnowing => 5 | .failed => 6 | .dormant => 7

/-- Table 15-5; a tenant reads 0 in the fields of other partitions. -/
def pkgRecord (s : State) (tenant : Option Nat) : Nat :=
  let own := fun (p v : Nat) => if (tenant.map (· == p)).getD true then v else 0
  packBits [(pkgCode s.sess.pkg, 2), (s.power.mode, 2), (powerState s, 2), (fallowDies s, 2), (syncCode s.tick.state, 2),
    (s.mbx.activeId, 1), (bits (mbxStatus s 0) 5 1, 1),
    (packBits ((List.range 4).map (fun p => (own p (partCode (pstate s p)), 3))), 12),
    (packBits ((List.range 4).map (fun p => (own p (b2n (mget {} s.tick.rel p : Release).late), 1))), 4), (s.boot.reached, 4),
    (s.tick.count.toNat, 64), (natOf s.power.sustained, 12), (min 4095 (natOf (lowest s).1), 12), (s.sess.staged.length, 8),
    (min max16 s.sess.stagedDropped, 16)]

/-- PKG_STATUS (R366, Table 15-5). -/
def execPkgStatus (t : Nat) (a : MbxArgs) (s : State) : Out :=
  mbxCmd { opcode := 0x0102, rights := 7, pkg := .any, partUse := .pkg, resp := 32 } anyReq noChk
    (fun r s => (s, .done 0 (leBytes 32 (pkgRecord s r.tenantPart)))) t a s

/-- What TILE_MAP says of a physical tile: its logical row, 0xFE the unused spare, 0xFF a defective tile. -/
def tileMapByte (s : State) (die col row : Nat) : Nat :=
  if s.boot.defective.contains (156 * die + 13 * col + row) then 0xFF
  else ((List.range 12).find? (fun r => mfind s.boot.tileMap (144 * die + 12 * col + r) == some row)).getD 0xFE

/-- TILE_MAP (18 R427): WRONG_STATE before the end of S4. -/
def execTileMap (t : Nat) (a : MbxArgs) (s : State) : Out :=
  mbxCmd { opcode := 0x0103, rights := 1, pkg := .any, partUse := .pkg, resp := 156 } anyReq
    (fun _ s => { wrong := !s.boot.mapBuilt })
    (fun r s => (s, .done 0 ((List.range 156).map (fun i => BitVec.ofNat 8 (tileMapByte s (r.f 0 1) (i / 13) (i % 13)))))) t a s

/-- STAGE_REPORT (18 R431): WRONG_STATE for a stage not yet reached. -/
def execStageReport (t : Nat) (a : MbxArgs) (s : State) : Out :=
  mbxCmd { opcode := 0x0104, rights := 1, pkg := .any, partUse := .pkg, resp := 128 } anyReq
    (fun r s => { bad := 8 < r.f 0 4, wrong := (mfind s.boot.reports (r.f 0 4)).isNone })
    (fun r s =>
      match mfind s.boot.reports (r.f 0 4) with
      | some p => (s, .done 0 (reportBytes (r.f 0 4) p))
      | none => (s, .done 0x21 [])) t a s

/-! ## Configuration items (R368, R369, Table 15-6) -/

inductive Scope where
  | package | partition | session | stack
  deriving DecidableEq, Repr

/-- A row of Table 15-6: its range without the cross-item limits, and whether it commits at a step. -/
structure Item where
  scope : Scope := .package
  tenant : Bool := false
  lo : Nat
  hi : Nat
  atStep : Bool := true
  deriving DecidableEq, Repr

def itemOf (i : Nat) : Option Item :=
  match i with
  | 0x01 => some { lo := 20, hi := 1000 }
  | 0x10 => some { scope := .partition, tenant := true, lo := 1, hi := 10000 }
  | 0x11 | 0x12 | 0x13 | 0x14 | 0x15 | 0x16 | 0x17 | 0x18 | 0x19 | 0x1A => some { lo := 1, hi := 255 }
  | 0x1B => some { lo := 68, hi := 19664 }
  | 0x1C => some { lo := 32, hi := 8192 }
  | 0x1D => some { lo := 32, hi := 1024 }
  | 0x1E => some { lo := 32, hi := 8192 }
  | 0x1F => some { lo := 16, hi := 10000 }
  | 0x20 => some { lo := 1, hi := 10000 }
  | 0x21 => some { lo := 1, hi := 255 }
  | 0x22 => some { lo := 1, hi := 100 }
  | 0x23 => some { lo := 1, hi := 4 }
  | 0x24 => some { lo := 1, hi := 100 }
  | 0x25 => some { lo := 1, hi := 1000000 }
  | 0x26 => some { lo := 5, hi := 30, atStep := false }
  | 0x27 => some { lo := 0, hi := 28, atStep := false }
  | 0x28 => some { lo := 5, hi := 40, atStep := false }
  | 0x30 => some { lo := 0, hi := 1, atStep := false }
  | 0x31 => some { lo := 100, hi := 10000, atStep := false }
  | 0x38 | 0x39 | 0x3A => some { lo := 1, hi := 255, atStep := false }
  | 0x40 => some { scope := .stack, lo := 0, hi := max32, atStep := false }
  | 0x50 => some { scope := .partition, tenant := true, lo := 1, hi := 15, atStep := false }
  | 0x51 => some { scope := .partition, tenant := true, lo := 1, hi := 1000, atStep := false }
  | 0x52 => some { scope := .partition, tenant := true, lo := 1, hi := 1000, atStep := false }
  | 0x58 => some { scope := .partition, lo := 0, hi := 1536, atStep := false }
  | 0x60 => some { scope := .session, tenant := true, lo := 0, hi := 25 }
  | 0x61 => some { scope := .session, tenant := true, lo := 0, hi := 16777215 }
  | 0x62 => some { scope := .session, tenant := true, lo := 0, hi := 8 }
  | 0x68 => some { scope := .partition, lo := 0, hi := 4096, atStep := false }
  | 0x69 => some { lo := 0, hi := 7, atStep := false }
  | 0x70 => some { lo := 1, hi := 60, atStep := false }
  | _ => none

/-- The non-empty slots of a CONFIG_SET: (item, value). -/
def Req.slots (r : Req) : List (Nat × Nat) :=
  ((List.range 3).map (fun n => (r.f (64 + 64 * n) 16, r.f (96 + 64 * n) 32))).filter (fun e => e.1 != 0)

/-- The tick a staged change commits at, the earliest boundary being the next. -/
def stagedTick (s : State) (e : Staged) : Nat := e.tick.getD (s.tick.count.toNat + 1)

/-- The latest tick at which a change with this AT_TICK can commit. -/
def lastTick (s : State) (at_ : Nat) : Nat :=
  if commitTick s at_ == 0 then s.tick.count.toNat + 2 else commitTick s at_

/-- Values staged for an item at a scope: (tick, value), in the order taken. -/
def stagedValues (s : State) (item scope : Nat) : List (Nat × Nat) :=
  s.sess.staged.flatMap (fun e => match e.change with
    | .config l => (l.filter (fun x => x.1 == item && x.2.1 == scope)).map (fun x => (stagedTick s e, x.2.2))
    | _ => [])

/-- The later of two staged values: by tick, then by the order taken (15, Coincidences). -/
def laterOf (a b : Nat × Nat) : Nat × Nat := if a.1 ≤ b.1 then b else a

/-- The value that will be in force at a tick (R368). -/
def valueAt (s : State) (item scope tick : Nat) : Nat :=
  match (stagedValues s item scope).filter (fun e => e.1 ≤ tick) with
  | [] => cfg s item scope
  | e :: r => (r.foldl laterOf e).2

/-- Stacks that a PATROL_LIMITS value names for a partition. -/
def patrolStacks (part v : Nat) : List Nat := if v % 16 == 15 then stacksOf part else [v % 16]

/-- A value out of its own range; a stack of another partition is out of PART's reach (R362). -/
def rangeBad (part item v : Nat) (i : Item) : Bool :=
  if item == 0x40 then (v % 16 != 15 && !(stacksOf part).contains (v % 16)) || bits v 8 3 < bits v 4 3
  else v < i.lo || i.hi < v

/-- Cross-item limits of Table 15-6 over the values that will be in force at the commit. -/
def crossBad (s : State) (r : Req) (l : List (Nat × Nat)) : Bool :=
  let tick := lastTick s (r.f 0 64)
  let get := fun (i : Nat) => ((l.find? (fun e => e.1 == i)).map (·.2)).getD (valueAt s i 4 tick)
  let has := fun (is : List Nat) => l.any (fun e => is.contains e.1)
  let total := fun (i : Nat) => ((List.range 4).map (fun p =>
    if p == r.part then ((l.find? (fun e => e.1 == i)).map (·.2)).getD 0 else cfg s i p)).sum
  (has [0x1C, 0x1D, 0x1E] && !(get 0x1D ≤ get 0x1C && get 0x1C ≤ get 0x1E)) ||
  (has [0x1F, 0x20] && get 0x1F < get 0x20) ||
  (has [0x26, 0x27, 0x28] && !(get 0x27 + 2 ≤ get 0x26 && get 0x26 ≤ get 0x28)) ||
  (has [0x58] && 1536 < total 0x58) || (has [0x68] && 4096 < total 0x68)

/-- PART does not fit a scope (R368). -/
def scopeBad (r : Req) (i : Item) : Bool := !r.tenant && ((i.scope == .package) != (r.part == 4))

/-- BAD_FIELD of R368. -/
def configBad (s : State) (r : Req) : Bool :=
  let l := r.slots
  let is := l.filterMap (fun e => itemOf e.1)
  is.length != l.length || decide ((l.map (·.1)).eraseDups.length < l.length) ||
  is.any (fun i => is.any (fun j => i.scope != j.scope || i.atStep != j.atStep)) || is.any (scopeBad r) ||
  l.any (fun e => match itemOf e.1 with | some i => rangeBad r.part e.1 e.2 i | none => true) || crossBad s r l

/-- The command commits at a step. -/
def configAtStep (r : Req) : Bool := r.slots.all (fun e => match itemOf e.1 with | some i => i.atStep | none => true)

def configChk (r : Req) (s : State) : Chk :=
  let at_ := r.f 0 64
  let has := fun (p : Item → Bool) => r.slots.any (fun e => (itemOf e.1).any p)
  { bad := configBad s r || (configAtStep r && tickBad s at_),
    denied := r.tenant && has (fun i => !i.tenant),
    wrong := (configAtStep r && tickWrong s at_) || (has (fun i => i.scope == .session) && sessionOf s r.part == 0) ||
      r.slots.any (fun e => e.1 == 0x68 && e.2 < (qpsOf s r.part).length) }

/-- What a slot sets: (item, scope, value). -/
def slotSets (s : State) (part item v : Nat) : List (Nat × Nat × Nat) :=
  match ((itemOf item).map (·.scope) : Option Scope) with
  | none => []
  | some .package => [(item, 4, v)]
  | some .partition => [(item, part, v)]
  | some .session => (partsWith s (sessionOf s part)).map (fun q => (item, q, v))
  | some .stack => (patrolStacks part v).map (fun k => (item, k, bits v 4 7))

/-- One item takes its value at once. -/
def applyItem (s : State) (e : Nat × Nat × Nat) : State :=
  let s1 := setCfg s e.1 e.2.1 e.2.2
  if e.1 == 0x40 then
    let st := stackOf s1 e.2.1
    setStack s1 e.2.1 { st with patrolLevel := patrolClamp s1 e.2.1 st.patrolLevel }
  else s1

/-- A staged period shows in TICK_PERIOD and TICK_PERIOD_AT (02 Tables 2-9, 2-10). -/
def showPeriod (s : State) (at_ v : Nat) : State :=
  { s with tick := { s.tick with nextUs := v, nextValid := true, periodAt := BitVec.ofNat 64 (commitTick s at_) } }

/-- CONFIG_SET (R368, R369). -/
def execConfigSet (t : Nat) (a : MbxArgs) (s : State) : Out :=
  mbxCmd { opcode := 0x0200, rights := 3, pkg := .uc, partUse := .free, resp := 8 } anyReq configChk
    (fun r s =>
      let sets := r.slots.flatMap (fun e => slotSets s r.part e.1 e.2)
      if !configAtStep r then (sets.foldl applyItem s, .done 0 (leBytes 8 0))
      else
        match stageAns s (r.f 0 64) (.config sets) with
        | (s1, .done 0 bs) =>
          (match r.slots.find? (fun e => e.1 == 0x01) with
           | some e => showPeriod s1 (r.f 0 64) e.2
           | none => s1, .done 0 bs)
        | x => x) t a s

/-- An item's answer: in force, and staged with its tick. -/
def configAnswer (s : State) (item scope : Nat) : List Byte :=
  let now := if item == 0x01 then s.tick.periodUs else if item == 0x40 then 16 * cfg s item scope else cfg s item scope
  match (stagedValues s item scope).getLast? with
  | none => leBytes 24 now
  | some (k, v) => leBytes 24 (packBits [(now, 32), (v, 32), (k, 64), (1, 1)])

/-- The scope a CONFIG_GET asks about. -/
def getScope (r : Req) : Nat :=
  match ((itemOf (r.f 0 16)).map (·.scope) : Option Scope) with
  | some .package => 4
  | some .stack => r.f 16 4
  | _ => r.part

/-- CONFIG_GET (R368): a tenant reads the items it may set. -/
def execConfigGet (t : Nat) (a : MbxArgs) (s : State) : Out :=
  mbxCmd { opcode := 0x0201, rights := 3, pkg := .uc, partUse := .free, resp := 24 } anyReq
    (fun r _ => match itemOf (r.f 0 16) with
      | none => { bad := true }
      | some i => { bad := scopeBad r i || (i.scope == .stack && !(stacksOf r.part).contains (r.f 16 4)),
                    denied := r.tenant && !i.tenant })
    (fun r s => (s, .done 0 (configAnswer s (r.f 0 16) (getScope r)))) t a s

/-- CONFIG_DONE (R366). -/
def execConfigDone (t : Nat) (a : MbxArgs) (s : State) : Out :=
  mbxCmd { opcode := 0x0202, rights := 1, pkg := .u, partUse := .pkg } anyReq
    (fun _ s => { wrong := s.fab.lpt.isEmpty })
    (fun _ s => ({ s with sess := { s.sess with pkg := some .configured } }, ok)) t a s

/-- WATCH_LIST_SET (14 R358). -/
def execWatchListSet (t : Nat) (a : MbxArgs) (s : State) : Out :=
  mbxCmd { opcode := 0x0203, rights := 1, pkg := .uc, partUse := .pkg, lenOk := (· == 64) } anyReq
    (fun r _ =>
      let l := (u16s 32 r.payload).filter (· != 0xFFFF)
      { bad := l.any (fun x => !assigned x) || decide (l.eraseDups.length < l.length) })
    (fun r s => ({ s with evt := { s.evt with watch := u16s 32 r.payload } }, ok)) t a s

/-! ## Channels (0x0220 to 0x0222; 05 R122, R123, 11 R277, 12 R316) -/

/-- The context that KIND, ENGINE and INDEX name; none where the index is out of range or the QP is another partition's. -/
def namedChan (s : State) (r : Req) : Option Chan :=
  let i := r.f 16 12
  match r.f 0 2 with
  | 0 => if i < 32 then some (chanOf s (256 * r.part + 32 * r.f 2 3 + i)) else none
  | 1 => if i < 16 then some (mget {} s.coll.chans (16 * r.part + i)) else none
  | k =>
    match qpOf s i with
    | none => none
    | some q => if q.part != r.part then none else some (if k == 2 then q.send else q.recv)

def setNamed (s : State) (r : Req) (c : Chan) : State :=
  let i := r.f 16 12
  match r.f 0 2 with
  | 0 => setChan s (256 * r.part + 32 * r.f 2 3 + i) c
  | 1 => { s with coll := { s.coll with chans := mset s.coll.chans (16 * r.part + i) c } }
  | k =>
    match qpOf s i with
    | none => s
    | some q => setQp s i (if k == 2 then { q with send := c } else { q with recv := c })

/-- The channel holds a fetched descriptor that is not complete. -/
def holdsWork (s : State) (r : Req) : Bool :=
  let i := r.f 16 12
  match r.f 0 2 with
  | 0 => !(workOf s (256 * r.part + 32 * r.f 2 3 + i)).work.isEmpty
  | 1 => (mfind s.coll.heads (16 * r.part + i)).isSome
  | k =>
    match qpOf s i with
    | none => false
    | some q => !(if k == 2 then q.sendWork else q.recvWork).isEmpty

/-- The context with the RW fields of a Table 5-1 payload; RO fields stay. -/
def chanFields (c : Chan) (w : Nat) : Chan :=
  { c with
    enable := bit w 0, prio := bit w 1, rate := bits w 16 9, ageUs := bits w 32 8, dbCc := bits w 40 12,
    ringEntries := bits w 64 13, ringSpace := bits w 77 2, ringEid := bits w 80 16, ringAddr := bits w 96 48 }

/-- CHANNEL_SET's own conditions (05 R122, R123). -/
def channelSetChk (r : Req) (s : State) : Chk :=
  match namedChan s r with
  | none => { bad := true }
  | some c =>
    let n := chanFields c (leNat r.payload)
    { bad := (r.f 0 2 != 1 && (n.rate == 0 || 256 < n.rate || n.ageUs == 0)) || 4096 < n.ringEntries || n.ringAddr % 64 != 0,
      wrong := holdsWork s r && { n with rate := c.rate, prio := c.prio, ageUs := c.ageUs } != c }

/-- CHANNEL_SET (05 R122): a change of ENABLE from 0 to 1 sets HEAD to the doorbell's value. -/
def execChannelSet (t : Nat) (a : MbxArgs) (s : State) : Out :=
  mbxCmd { opcode := 0x0220, rights := 3, pkg := .c, partUse := .one, parts := some [.assigned, .running],
           lenOk := (· == 32) } anyReq channelSetChk
    (fun r s =>
      match namedChan s r with
      | none => (s, .done 0x12 [])
      | some c =>
        let n := chanFields c (leNat r.payload)
        (setNamed s r (if n.enable && !c.enable then { n with head := ccGet s r.part n.dbCc } else n), ok)) t a s

/-- CHANNEL_GET (05 R122). -/
def execChannelGet (t : Nat) (a : MbxArgs) (s : State) : Out :=
  mbxCmd { opcode := 0x0221, rights := 3, pkg := .c, partUse := .one, parts := some [.assigned, .running, .fenced],
           resp := 32 } anyReq
    (fun r s => { bad := (namedChan s r).isNone })
    (fun r s => match namedChan s r with
      | none => (s, .done 0x12 [])
      | some c => (s, .done 0 (leBytes 32 (chanWord c)))) t a s

/-- CHANNEL_RESUME (05 R133): HALTED clears. -/
def execChannelResume (t : Nat) (a : MbxArgs) (s : State) : Out :=
  mbxCmd { opcode := 0x0222, rights := 3, pkg := .c, partUse := .one, parts := some [.assigned, .running] } anyReq
    (fun r s => match namedChan s r with
      | none => { bad := true }
      | some c => { wrong := !c.halted })
    (fun r s => match namedChan s r with
      | none => (s, .done 0x12 [])
      | some c => (setNamed s r { c with halted := false }, ok)) t a s

/-! ## The LPT (10 R247) -/

/-- Valid entries' positions. -/
def validPos (l : List Nat) : List Nat := (l.filter (bit · 7)).map (· % 128)

/-- LPT_WRITE (10 R247). -/
def execLptWrite (t : Nat) (a : MbxArgs) (s : State) : Out :=
  mbxCmd { opcode := 0x0400, rights := 1, pkg := .uc, partUse := .pkg, lenOk := (· == 128), resp := 8 } anyReq
    (fun r s =>
      let ps := validPos (u16s 64 r.payload)
      { tickChk s r with bad := tickBad s (r.f 0 64) || ps.any (71 < ·) || decide (ps.eraseDups.length < ps.length) })
    (fun r s => stageAns s (r.f 0 64) (.lpt ((u16s 64 r.payload).map (· % 256)))) t a s

/-- The latest staged table. -/
def stagedLpt (s : State) : Option (List Nat) :=
  (s.sess.staged.filterMap (fun e => match e.change with
    | .lpt l => some l
    | _ => none)).getLast?

/-- LPT_READ (10 R247). -/
def execLptRead (t : Nat) (a : MbxArgs) (s : State) : Out :=
  mbxCmd { opcode := 0x0401, rights := 3, pkg := .uc, partUse := .pkg, resp := 128 } anyReq
    (fun r s => { wrong := r.f 0 1 == 1 && (stagedLpt s).isNone })
    (fun r s =>
      let l := if r.f 0 1 == 1 then (stagedLpt s).getD [] else s.fab.lpt
      (s, .done 0 (fit 128 (l.flatMap (leBytes 2))))) t a s

/-! ## Job domains and groups (0x07xx; 11 R271 to R274) -/

def setJobs (s : State) (p : Nat) (jobs : List Nat) (d : Nat) : State :=
  { s with sess := { s.sess with parts := mset s.sess.parts p { partOf s p with jobs := jobs, defaultJob := d } } }

/-- JOB_JOIN (R271): a seventeenth domain is NO_RESOURCE. -/
def execJobJoin (t : Nat) (a : MbxArgs) (s : State) : Out :=
  mbxCmd { opcode := 0x0700, rights := 1, pkg := .c, partUse := .one, parts := some [.assigned, .running] } anyReq
    (fun r _ => { bad := r.f 0 16 == 0 })
    (fun r s =>
      let p := partOf s r.part
      let j := r.f 0 16
      let d := if r.f 16 1 == 1 then j else p.defaultJob
      if p.jobs.contains j then (setJobs s r.part p.jobs d, ok)
      else if 16 ≤ p.jobs.length then (s, .done 0x31 [])
      else (setJobs s r.part (p.jobs ++ [j]) d, ok)) t a s

/-- JOB_LEAVE (R271). -/
def execJobLeave (t : Nat) (a : MbxArgs) (s : State) : Out :=
  mbxCmd { opcode := 0x0701, rights := 1, pkg := .c, partUse := .one, parts := some notFree } anyReq
    (fun r s => { wrong := s.coll.groups.any (fun g => g.part == r.part && g.job == r.f 0 16) })
    (fun r s =>
      let p := partOf s r.part
      let j := r.f 0 16
      (setJobs s r.part (p.jobs.filter (· != j)) (if p.defaultJob == j then 0 else p.defaultJob), ok)) t a s

/-- The member list of a GROUP_CREATE: (logical package, partition) by rank. -/
def Req.members (r : Req) : List (Nat × Nat) := r.payload.map (fun b => (b.toNat % 64, b.toNat / 64))

/-- The entries of a member list that lie here: (rank, partition). -/
def localMembers (s : State) (l : List (Nat × Nat)) : List (Nat × Nat) :=
  (l.zipIdx.filter (fun e => lptPos s e.1.1 == some s.boot.posId)).map (fun e => (e.2, e.1.2))

/-- The timeout a command gives, 0 standing for 2,000 us (R274). -/
def timeoutOf (r : Req) : Nat := if r.f 64 32 == 0 then 2000 else r.f 64 32
def timeoutBad (r : Req) : Bool := timeoutOf r < 10 || 1000000 < timeoutOf r

/-- BAD_FIELD of R272 and R374. -/
def groupBad (s : State) (r : Req) : Bool :=
  let here := localMembers s r.members
  r.f 32 7 == 0 || 64 < r.f 32 7 || timeoutBad r || here.isEmpty || decide (r.members.eraseDups.length < r.members.length) ||
  here.any (fun e =>
    let p := partOf s e.2
    p.session == 0 || !p.jobs.contains (r.f 0 16) || (r.tenant && !(sessionParts s r.part).contains e.2) ||
    (groupOfPart s (r.f 0 16) (r.f 16 12) e.2).isSome)

/-- GROUP_CREATE (R272 to R274, R374). -/
def execGroupCreate (t : Nat) (a : MbxArgs) (s : State) : Out :=
  mbxCmd { opcode := 0x0702, rights := 3, pkg := .c, partUse := .one, parts := some [.assigned, .running],
           lenOk := fun n => 1 ≤ n && n ≤ 64 } anyReq
    (fun r s => { badLen := r.f 32 7 != r.len, bad := groupBad s r })
    (fun r s =>
      let here := localMembers s r.members
      let held := fun (p : Nat) => (s.coll.groups.filter (fun g => g.part == p)).length
      if 512 < s.coll.groups.length + here.length || here.any (fun e => 128 ≤ held e.2) then (s, .done 0x31 [])
      else
        let new := here.map (fun e => ({
          job := r.f 0 16, group := r.f 16 12, part := e.2, rank := e.1, members := r.members, timeoutUs := timeoutOf r } : Group))
        ({ s with coll := { s.coll with groups := s.coll.groups ++ new } }, ok)) t a s

/-- Local records of a group. -/
def localGroups (s : State) (job group : Nat) : List Group := s.coll.groups.filter (fun g => g.job == job && g.group == group)

/-- GROUP_DELETE (15 Table 15-14). -/
def execGroupDelete (t : Nat) (a : MbxArgs) (s : State) : Out :=
  mbxCmd { opcode := 0x0703, rights := 3, pkg := .c, partUse := .one, parts := some notFree } anyReq
    (fun r s =>
      let l := localGroups s (r.f 0 16) (r.f 16 12)
      { bad := l.isEmpty, denied := r.tenant && l.any (fun g => !(sessionParts s r.part).contains g.part),
        wrong := s.coll.opens.any (fun o => o.job == r.f 0 16 && o.group == r.f 16 12) })
    (fun r s => ({ s with coll := { s.coll with
        groups := s.coll.groups.filter (fun g => !(g.job == r.f 0 16 && g.group == r.f 16 12)) } }, ok)) t a s

/-- GROUP_CONFIG (R274): the record of the member that is PART. -/
def execGroupConfig (t : Nat) (a : MbxArgs) (s : State) : Out :=
  mbxCmd { opcode := 0x0704, rights := 3, pkg := .c, partUse := .one, parts := some [.assigned, .running] } anyReq
    (fun r s => { bad := timeoutBad r || (groupOfPart s (r.f 0 16) (r.f 16 12) r.part).isNone })
    (fun r s => match groupOfPart s (r.f 0 16) (r.f 16 12) r.part with
      | none => (s, .done 0x12 [])
      | some g => (updGroup s { g with timeoutUs := timeoutOf r }, ok)) t a s

/-- Table 11-11. -/
def groupRecord (s : State) (g : Group) : Nat :=
  let opens := (s.coll.opens.filter (fun o => o.job == g.job && o.group == g.group && o.part == g.part)).length
  packBits ([(g.job, 16), (g.group, 12), (0, 4), (g.members.length, 7), (0, 1), (g.rank, 6), (g.part, 2), (opens, 3), (0, 13),
    (g.timeoutUs, 20), (0, 12), (g.lastSeq, 16), (g.lastRank, 6), (0, 10), (min max32 g.lagNs, 32), (min max32 g.maxLag, 32),
    (min max32 g.completed, 32), (min max16 g.failed, 16), (min max16 g.timeouts, 16), (min max32 g.granary, 32),
    (min max16 g.gleaner, 16), (0, 208)] ++ (List.range 64).map (fun k => (min max16 (mget 0 g.lastCount k), 16)))

/-- GROUP_STATUS (R297): RC fields clear for the operator only. -/
def execGroupStatus (t : Nat) (a : MbxArgs) (s : State) : Out :=
  mbxCmd { opcode := 0x0705, rights := 3, pkg := .c, partUse := .one, parts := some notFree, resp := 192 } anyReq
    (fun r s => { bad := (groupOfPart s (r.f 0 16) (r.f 16 12) r.part).isNone })
    (fun r s => match groupOfPart s (r.f 0 16) (r.f 16 12) r.part with
      | none => (s, .done 0x12 [])
      | some g =>
        (if r.op then updGroup s { g with
            maxLag := 0, completed := 0, failed := 0, timeouts := 0, granary := 0, gleaner := 0, lastCount := [] } else s,
         .done 0 (leBytes 192 (groupRecord s g)))) t a s

/-- Table 11-12. -/
def collPackageRecord (s : State) : Nat :=
  let c := s.coll
  packBits [(min max32 c.unknown, 32), (min max16 c.readyDrops, 16), (min max16 c.overfill, 16), (c.slotsFree, 11), (0, 5),
    (c.slotsMin, 11)]

/-- COLL_STATUS (R303). -/
def execCollStatus (t : Nat) (a : MbxArgs) (s : State) : Out :=
  mbxCmd { opcode := 0x0706, rights := 1, pkg := .any, partUse := .pkg, resp := 16 } anyReq noChk
    (fun _ s => ({ s with coll := { s.coll with unknown := 0, readyDrops := 0, overfill := 0, slotsMin := s.coll.slotsFree } },
      .done 0 (leBytes 16 (collPackageRecord s)))) t a s

/-! ## The telemetry snapshot (R375) -/

/-- The snapshot of the frame just ended: section 1 as each function reads it. -/
def buildSnapshot (s : State) (frameNs : Nat) : Snapshot :=
  let regs := fun f => (List.range 14).flatMap (fun i => leBytes 4 (barRead s f (0x3000 + 4 * i)))
  let sess := ((List.range 4).map (sessionOf s)).filter (· != 0) |>.eraseDups
  { tick := s.tick.count.toNat, frameNs := frameNs, lost := s.tick.logLost, log := s.tick.log,
    sections :=
      (List.range 5).map (fun f => (1, f, regs f)) ++
      (List.range 71).map (fun k => (2, k, leBytes 64 (portRecord s k))) ++
      (List.range 4).map (fun p => (3, p, leBytes 32 (partRecord s p))) ++
      sess.map (fun v => (4, v, leBytes 32 (placementRecord s v))) ++
      (List.range 9).map (fun k => (6, k, leBytes 8 (natOf (mget 0 s.power.tally k)))) ++
      (List.range 12).map (fun k => (7, k, leBytes 32 (healthRecord (stackOf s k)))) }

/-- Table 15-21. -/
def overrunBytes (e : OverrunEntry) : List Byte :=
  leBytes 16 (packBits [(e.noticeTick, 64), (e.job, 16), (e.lpkg, 6), (e.part, 2), (e.lag, 3), (e.cause, 2)])

/-- Records of a section that the reader receives; none where it may not read the section (Table 15-20). -/
def snapRecords (s : State) (m : Snapshot) (tenant : Option Nat) (id : Nat) : Option (List (List Byte)) :=
  let pick := fun (sel : Nat → Bool) => some ((m.sections.filter (fun e => e.1 == id && sel e.2.1)).map (·.2.2))
  match id, tenant with
  | 1, none => pick (· == 0)
  | 1, some p => pick (· == p + 1)
  | 2, some _ => none
  | 3, some p => pick (· == p)
  | 4, some p => pick (· == sessionOf s p)
  | 5, none => some (m.log.map overrunBytes)
  | 5, some p => some ((m.log.filter (fun e => (partOf s p).jobs.contains e.job)).map overrunBytes)
  | 6, some p => pick (fun k => k == p || k == 5 + p)
  | 7, some p => pick (fun k => partOfStack k == p)
  | _, _ => pick (fun _ => true)

/-- The bytes a reader receives (Tables 15-19, 15-20). -/
def snapBytes (s : State) (m : Snapshot) (tenant : Option Nat) : List Byte :=
  let secs := (span 1 7).filterMap (fun id => (snapRecords s m tenant id).map (fun l =>
    leBytes 8 (packBits [(id, 16), (l.length, 16), (l.flatten.length, 32)]) ++ l.flatten))
  let body := secs.flatten
  leBytes 32 (packBits [(m.tick, 64), (m.frameNs, 32), (secs.length, 8), (0, 24), (32 + body.length, 32), (min max16 m.lost, 16)])
    ++ body

/-- The snapshot of a tick, or the latest; the list is newest first. -/
def findSnapshot (s : State) (tick : Nat) : Option Snapshot :=
  if tick == 0 then s.sess.snapshots.head? else s.sess.snapshots.find? (fun m => m.tick == tick)

/-- SNAPSHOT_READ (R375). -/
def execSnapshotRead (t : Nat) (a : MbxArgs) (s : State) : Out :=
  mbxCmd { opcode := 0x0B00, rights := 3, pkg := .uc, partUse := .pkg } anyReq
    (fun r s => match findSnapshot s (r.f 0 64) with
      | none => { wrong := true }
      | some m => { resp := some (snapBytes s m r.tenantPart).length })
    (fun r s => match findSnapshot s (r.f 0 64) with
      | none => (s, .done 0x21 [])
      | some m => (s, .done 0 (snapBytes s m r.tenantPart))) t a s

end Sys2Proof.Machine
end

