-- ==== Sys2Proof/Machine/Firmware.lean ====
section
/-!
DEFINITION. Machine/Firmware.lean: staging, activation, confirmation and fallback of a firmware bundle, and the package store's
operations (21 R491 to R503, 15 Tables 15-17, 15-18).
-/
namespace Sys2Proof.Machine

/-- SLOT_BYTES (R491). -/
def slotBytes : Nat := 50331648

/-- The slot that is not running. -/
def otherSlot (s : State) : Nat := 1 - s.fw.running

/-! ## The bundle header (Table 21-2) -/

/-- Component `k`'s image: offset and length. -/
def imageOf (h k : Nat) : Nat × Nat := (bits h (512 * k + 520) 32, bits h (512 * k + 552) 32)

/-- Two ranges share a byte. -/
def overlap (a b : Nat × Nat) : Bool := decide (0 < a.2) && decide (0 < b.2) && decide (a.1 < b.1 + b.2) && decide (b.1 < a.1 + a.2)

/-- BAD_FIELD of R494. -/
def headerBad (h len : Nat) : Bool :=
  let total := bits h 96 32
  let sig := bits h 128 32
  let types := (List.range 5).map (fun k => bits h (512 * k + 512) 8)
  let images := (List.range 5).map (imageOf h)
  bits h 0 32 != 0x31465847 || bits h 32 8 != 1 || total != len || sig + 4723 != total ||
  !((span 1 5).all types.contains) || images.any (fun i => overlap i (0, 512) || overlap i (sig, 4723)) ||
  images.zipIdx.any (fun e => (images.drop (e.2 + 1)).any (overlap e.1)) || decide (96 < bits h 40 8)

/-! ## Staging (R494 to R496) -/

/-- The staging's next operation begins, where its check passes: first the record marks the slot EMPTY. -/
def stageOp (s : State) (bankMv need : Nat) : State :=
  if energyOk s bankMv need then
    let k := otherSlot s
    let s1 := if (slotOf s k).state == .empty then s else writeRecord s k { state := .empty }
    { s1 with fw := { s1.fw with norOp := decide (s1.fw.stagedBytes < s1.fw.stagedLen), heldOp := none } }
  else energyFail { s with fw := { s.fw with norOp := false } } 0 bankMv

/-- What the staging's next operation requires: the first ones are the record's and the erases'. -/
def stageNeed (s : State) : Nat := if s.fw.stagedBytes == 0 then eraseMJ else programMJ

def stagingFlight (f : InFlight) : Bool := f.kind == .fwStage

/-- Staging fails: the slot is left EMPTY (R495). -/
def stageFailed (s : State) (status : Nat) (returnOk : Bool) : State :=
  let k := otherSlot s
  let s1 := if (slotOf s k).state == .empty then s else writeRecord s k { state := .empty }
  let s2 := faultLog { s1 with fw := { s1.fw with updateState := 0, norOp := false, heldOp := none } } 0x61 4
    [k, status, s.fw.stagedBytes]
  finish s2 stagingFlight status [] returnOk

/-- FW_STAGE (R494, R495): `bankMv` is the bank voltage before the first operation. -/
def execFwStage (t : Nat) (a : MbxArgs) (bankMv : Nat) (s : State) : Out :=
  mbxCmd { opcode := 0x0A00, rights := 1, pkg := .uc, partUse := .pkg, lenOk := fun _ => true } anyReq
    (fun r s => { bad := (r.ploc != 2 && r.mb != 5) || headerBad (leNat (r.payload.take 512)) r.len,
                  exceeds := slotBytes < r.len, wrong := [1, 3, 4].contains s.fw.updateState })
    (fun r s =>
      let h := leNat (r.payload.take 512)
      if bits h 40 8 < s.fuses.secCounter || bits h 64 32 < s.fw.runningVersion then (s, .done 0x61 [])
      else
        let s1 := { s with fw := { s.fw with
          updateState := 1, stagedSec := bits h 40 8, stagedVersion := bits h 64 32, stagedBytes := 0, stagedLen := r.len } }
        (stageOp s1 bankMv eraseMJ, .prog .fwStage)) t a s

/-- NOR_OP_COMPLETE (R496): the staging's erase (0 bytes) or program of up to 256 bytes completes; the next one begins after
its own check. -/
def execNorOpComplete (t bytes bankMv : Nat) (s : State) : Out :=
  run t s fun s => gate (s.fw.norOp && serving s && decide (bytes ≤ 256)) (fun s =>
    let s1 := { s with fw := { s.fw with stagedBytes := min s.fw.stagedLen (s.fw.stagedBytes + bytes), norOp := false } }
    if s1.fw.stagedBytes < s1.fw.stagedLen then stageOp s1 bankMv (stageNeed s1) else s1) s

/-- FW_STAGE_COMPLETE (R495): the fetch fails (`result` 1), the read-back differs (2), or the slot reads back right (0), and
the record marks it STAGED once that write's check passes. -/
def execFwStageComplete (t result bankMv : Nat) (returnOk : Bool) (s : State) : Out :=
  run t s fun s =>
    gate (serving s && s.fw.updateState == 1 && s.mbx.flight.any stagingFlight &&
        (result == 1 || ((result == 0 || result == 2) && decide (s.fw.stagedLen ≤ s.fw.stagedBytes) && s.fw.heldOp.isNone)))
      (fun s =>
        if result == 1 then stageFailed s 0x40 returnOk
        else if result == 2 then stageFailed s 0x50 returnOk
        else if energyOk s bankMv eraseMJ then
          let k := otherSlot s
          let v : FwSlot := { state := .staged, version := s.fw.stagedVersion, secVersion := s.fw.stagedSec }
          let s1 := writeRecord s k v
          let s2 := faultLog { s1 with fw := { s1.fw with updateState := 2 } } 0x60 4 [v.version, v.secVersion, k]
          finish s2 stagingFlight 0 [] returnOk
        else energyFail s 0 bankMv) s

/-! ## Activation (R498, R499) -/

/-- FW_ACTIVATE (R498): fires at step 3 of its boundary. -/
def execFwActivate (t : Nat) (a : MbxArgs) (s : State) : Out :=
  mbxCmd { opcode := 0x0A01, rights := 1, pkg := .c, partUse := .pkg, resp := 8 } anyReq
    (fun r s => { tickChk s r with wrong := tickWrong s (r.f 0 64) || s.fw.updateState != 2 })
    (fun r s =>
      match stageAns s (r.f 0 64) .fwActivate with
      | (s1, .done 0 bs) => ({ s1 with fw := { s1.fw with updateState := 3, activateTick := r.f 0 64 } }, .done 0 bs)
      | x => x) t a s

/-- The activation's boundary can be less than 2 us away. -/
def activationNear (s : State) : Bool :=
  decide (nextBoundary s < s.now + 2000) && s.sess.staged.any (fun c => c.change == Change.fwActivate && (match c.tick with
    | some n => decide (n ≤ s.tick.count.toNat + 1)
    | none => decide (c.at_ + 2000 ≤ nextBoundary s)))

/-- FW_CANCEL (R499). -/
def execFwCancel (t : Nat) (a : MbxArgs) (s : State) : Out :=
  mbxCmd { opcode := 0x0A02, rights := 1, pkg := .uc, partUse := .pkg } anyReq
    (fun _ s => { wrong := s.fw.updateState != 3 || activationNear s })
    (fun _ s =>
      let s1 := { s with sess := { s.sess with staged := s.sess.staged.filter (fun c => c.change != Change.fwActivate) } }
      (faultLog { s1 with fw := { s1.fw with updateState := 2, activateTick := 0 } } 0x68 4 [s.fw.activateTick], ok)) t a s

/-- The activation fires (R498): the trial target and the window, in the AON island; every other block returns to reset, and
S0 starts with RESET_KIND 2. -/
def activate (s : State) : State :=
  let k := otherSlot s
  let m := cfg s 0x70 4
  let s1 := faultLog { s with fw := { s.fw with trial := some k, windowEnd := some (s.now + 60000000000 * m), windowMin := m } }
    0x62 4 [s.tick.count.toNat, k, m]
  tryStartS0 (aonReset s1 2)

/-! ## Confirmation and fallback (R500, R501) -/

/-- The record marks the trial slot CONFIRMED and the window closes; the fuse counter is raised, if the burn succeeds. The
status is HW_FAULT where it does not. -/
def confirm (s : State) (burnOk : Bool) : State × Nat :=
  let k := s.fw.running
  let v := slotOf s k
  let s1 := writeRecord s k { v with state := .confirmed }
  let s2 := faultLog { s1 with fw := { s1.fw with trial := none, windowEnd := none, trialBoot := false, updateState := 0 } }
    0x64 4 [k, v.version]
  if burnOk then (raiseCounter s2, 0)
  else (s2, if s.fuses.secCounter < v.secVersion then 0x50 else 0)

/-- CONFIRM_HEALTH (R500): a failed energy check leaves the record's write waiting, as R496 says. -/
def execConfirmHealth (t : Nat) (a : MbxArgs) (bankMv : Nat) (burnOk : Bool) (s : State) : Out :=
  mbxCmd { opcode := 0x0A03, rights := 1, pkg := .uc, partUse := .pkg } anyReq
    (fun _ s => { wrong := s.fw.trial.isNone || s.fw.updateState != 4 })
    (fun _ s =>
      if s.mbx.flight.any (fun f => f.kind == .storeWait) then (s, .done 0x30 [])
      else if energyOk s bankMv eraseMJ then
        match confirm s burnOk with
        | (s1, st) => (s1, .done st [])
      else (energyFail s 1 bankMv, .prog .storeWait)) t a s

/-- CONFIRM_WINDOW_EXPIRE (R501): whatever the Haywards' state. -/
def execConfirmWindowExpire (t : Nat) (s : State) : Out :=
  run t s fun s => gate (s.fw.trial.isSome && (match s.fw.windowEnd with
      | none => false
      | some e => decide (e ≤ s.now)))
    (fun s => tryStartS0 (aonReset { s with fw := { s.fw with trial := none, windowEnd := none, fallback := true } } 2)) s

/-! ## Held operations (R496) -/

/-- What a held operation requires. -/
def heldNeed (s : State) (what : Nat) : Nat :=
  match what with
  | 0 => stageNeed s
  | 2 => if 262144 < s.faults.store.length + s.faults.buffer.length then eraseMJ else programMJ
  | _ => eraseMJ

/-- A held operation begins after all. -/
def heldStarts (s : State) (what bankMv : Nat) (burnOk : Bool) : State :=
  let s1 := { s with fw := { s.fw with heldOp := none } }
  match what with
  | 0 => stageOp s1 bankMv (stageNeed s1)
  | 1 =>
    (match confirm s1 burnOk with
      | (s2, st) => finish s2 (fun f => f.kind == .storeWait) st [] true)
  | 2 => flushLog s1
  | _ => markRejected s1

/-- A held operation has failed: its writer's own rule. -/
def heldFails (s : State) (what : Nat) : State :=
  let s1 := { s with fw := { s.fw with heldOp := none } }
  match what with
  | 0 => stageFailed s1 0x21 true
  | 1 => finish s1 (fun f => f.kind == .storeWait) 0x21 [] true
  | _ => s1

/-- HOLDUP_ENERGY_RECHECK (R496): every 100 ms; after 10 s without passing the operation fails. -/
def execHoldupEnergyRecheck (t bankMv : Nat) (burnOk : Bool) (s : State) : Out :=
  run t s fun s =>
    match s.fw.heldOp with
    | none => s
    | some (what, since, last) => gate (decide (last + 100000000 ≤ s.now) && serving s) (fun s =>
        if energyOk s bankMv (heldNeed s what) then heldStarts s what bankMv burnOk
        else if since + 10000000000 ≤ s.now then heldFails (energyFail s what bankMv) what
        else energyFail s what bankMv) s

/-! ## FW_STATUS (Table 15-18) -/

/-- Whole minutes left in the confirmation window. -/
def confirmLeft (s : State) : Nat :=
  match s.fw.windowEnd with
  | none => 0
  | some e => (e - s.now) / 60000000000

/-- The response. -/
def fwStatus (s : State) : Nat :=
  let o := slotOf s (otherSlot s)
  packBits [(s.fw.running, 1), (s.fw.updateState, 3), (0, 28), (s.fw.runningVersion, 32),
    (if o.state == .empty then 0 else o.version, 32), (s.fuses.secCounter, 8), (confirmLeft s, 8), (0, 16),
    (s.fw.activateTick, 64), (slotBytes, 32)]

/-- FW_STATUS (R502). -/
def execFwStatus (t : Nat) (a : MbxArgs) (s : State) : Out :=
  mbxCmd { opcode := 0x0A04, rights := 5, pkg := .any, partUse := .pkg, resp := 32 } anyReq noChk
    (fun _ s => (s, .done 0 (leBytes 32 (fwStatus s)))) t a s

end Sys2Proof.Machine
end

