-- ==== Sys2Proof/Machine/Hayward.lean ====
section
/-!
DEFINITION. Machine/Hayward.lean: the two Haywards: failures, the switch-over, the headless state, restarts, the return to
Hayward A, and the management port's connections (13 R324 to R330, R345, 19 R439, 20 R485).
-/
namespace Sys2Proof.Machine

/-- The Haywards run: from the end of stage S2, but in power state Off. -/
def haysOn (s : State) : Bool := s.sess.pkg.isSome && !s.boot.poweredOff

/-! ## Failures (R326, R329, 20 R485) -/

/-- The package becomes headless (20 R485, Table 20-11). -/
def goHeadless (s : State) : State :=
  let s1 := { s with
    mbx := { s.mbx with busy := false, headless := true }, tick := { s.tick with state := .halted },
    boot := { s.boot with grangerFailN := false } }
  faultLog (fire (refreshAlert s1) 4) 0x12 4 [s.mbx.activeId]

/-- A Hayward has failed: its island is held in reset, and restarts 1 s later unless this is its third failure within one
hour (R329). -/
def hayFailed (s : State) (h code : Nat) : State :=
  let v := hayOf s h
  let fails := v.fails.filter (fun f => s.now < f + 3600000000000) ++ [s.now]
  faultLog (setHay s h { v with
    state := .failed, lastPass := false, lastFail := code, failCount := satAdd 255 v.failCount 1, healthyS := 0, fails := fails,
    restartAt := if 3 ≤ fails.length then none else some (s.now + 1000000000) }) 0x10 4 [h, code]

/-- The standby's latest report passed and is no older than 1.1 s (R326). -/
def standbyGood (s : State) : Bool :=
  let v := hayOf s (1 - s.mbx.activeId)
  v.state == .standby && v.lastPass && (match v.reportAt with
    | none => false
    | some r => decide (s.now ≤ r + 1100000000))

/-- What was held for the Hayward port is delivered to the new active Hayward (14 R355). -/
def releaseHeld (s : State) : State :=
  let l := s.evt.heldHay
  l.foldl (fun s src => s.emit (.hayEvent s.mbx.activeId src)) { s with evt := { s.evt with heldHay := [] } }

/-- The failure of a Hayward and what it brings (R326, Coincidences): the active one's starts the switch-over or leaves the
package headless; the standby's fires source 11. Where it was to take control, the package is headless, but in a return
(R330) the healthy Hayward B keeps control. -/
def failHay (s : State) (h code : Nat) : State :=
  let a := s.mbx.activeId
  if h == a && !s.mbx.busy then
    if standbyGood s then
      let s1 := hayFailed s h code
      { s1 with mbx := { s1.mbx with busy := true, busySince := s1.now } }
    else goHeadless (hayFailed s h code)
  else
    let s1 := fire (hayFailed s h code) 11
    if s1.mbx.busy && h != a then
      if (hayOf s1 a).state == .standby then
        releaseHeld (setHay { s1 with mbx := { s1.mbx with busy := false } } a { hayOf s1 a with state := .active })
      else goHeadless s1
    else s1

/-- HAYWARD_CHECK_FAIL (R324, R326): check `code` of Table 13-1 fails on Hayward `h`: lockstep or SRAM on the active one, any
but the watchdog on the standby. -/
def execHaywardCheckFail (t h code : Nat) (s : State) : Out :=
  run t s fun s =>
    let st := (hayOf s h).state
    gate (haysOn s && decide (h < 2) &&
        ((st == .active && 1 ≤ code && code ≤ 2) || (st == .standby && 1 ≤ code && code ≤ 6)))
      (fun s => failHay s h code) s

/-- HAYWARD_WATCHDOG_EXPIRE (R324, R326): the active Hayward wrote its AON watchdog last at instant `w`, and not within
1 ms. -/
def execHaywardWatchdogExpire (t w : Nat) (s : State) : Out :=
  run t s fun s => gate (haysOn s && (hayOf s s.mbx.activeId).state == .active && !s.mbx.busy &&
      decide (s.mbx.watchdogAt ≤ w) && decide (w + 1000000 ≤ s.now))
    (fun s => failHay { s with mbx := { s.mbx with watchdogAt := w } } s.mbx.activeId 7) s

/-! ## Switch-over (R327, R328) -/

/-- A gap of a switch-over extends the resets' limits (20 R478) and slows the Winnows (19 R459). -/
def gapPassed (s : State) (gap : Nat) : State :=
  { s with
    faults := { s.faults with resets := mmap s.faults.resets (fun _ a => a + gap) },
    keys := { s.keys with winnowSlow := s.keys.winnow.foldl (fun m e => mset m e.1 true) s.keys.winnowSlow } }

/-- HAYWARD_TAKEOVER (R328): the standby becomes active. A command of the model is taken and answered in one step, so the
journal's commands are those that go on in the background: each posts a fresh IN_PROGRESS. -/
def execHaywardTakeover (t : Nat) (s : State) : Out :=
  run t s fun s =>
    let n := 1 - s.mbx.activeId
    let v := hayOf s n
    gate (haysOn s && s.mbx.busy && v.state == .standby) (fun s =>
      let s1 := setHay s n { v with state := .active, activations := satAdd 65535 v.activations 1 }
      let s2 := { s1 with mbx := { s1.mbx with activeId := n, busy := false, watchdogAt := s1.now } }
      let s3 := gapPassed (s2.mbx.flight.foldl postProgress s2) (s.now - s.mbx.busySince)
      faultLog (fire (releaseHeld s3) 4) 0x11 4 [(s.now - s.mbx.busySince) / 1000]) s

/-- HAYWARD_ISLAND_RESTART (R329): one second after a failure the island restarts and tests itself. -/
def execHaywardIslandRestart (t h : Nat) (s : State) : Out :=
  run t s fun s =>
    let v := hayOf s h
    gate (decide (h < 2) && v.state == .failed && (match v.restartAt with
        | none => false
        | some r => decide (r ≤ s.now)))
      (fun s => setHay s h { v with
        state := .selftest, restartAt := none, restarts := satAdd 255 v.restarts 1, uptimeS := 0, healthyS := 0 }) s

/-- HAYWARD_SELFTEST_END (R329): the restarted Hayward passes and becomes standby, or fails again. -/
def execHaywardSelftestEnd (t h : Nat) (pass : Bool) (code : Nat) (s : State) : Out :=
  run t s fun s =>
    let v := hayOf s h
    gate (decide (h < 2) && v.state == .selftest && (pass || (1 ≤ code && code ≤ 6))) (fun s =>
      if pass then setHay s h { v with state := .standby, lastPass := true, fwVersion := s.fw.runningVersion }
      else hayFailed s h code) s

/-- HAYWARD_REVERT (R330): at a quiet point, Hayward A takes control back; B becomes standby, and the gap begins. -/
def execHaywardRevert (t : Nat) (s : State) : Out :=
  run t s fun s =>
    gate (haysOn s && boundaryDue s && !s.mbx.busy && !s.mbx.headless && s.mbx.activeId == 1 &&
        (hayOf s 1).state == .active && (hayOf s 0).state == .standby && decide (60 ≤ (hayOf s 0).healthyS) &&
        cfg s 0x30 4 == 1 && s.mbx.flight.isEmpty && decide (s.mbx.quietSince + 10000000 ≤ s.now)) (fun s =>
      let s1 := setHay s 1 { hayOf s 1 with state := .standby, healthyS := 0 }
      { s1 with mbx := { s1.mbx with busy := true, busySince := s1.now } }) s

/-- HAYWARD_HEALTH_PUBLISH (R324, Table 13-2): a Hayward that is active or standby publishes its report, 1 s or more after its
last; `corr` SRAM errors were corrected meanwhile. -/
def execHaywardHealthPublish (t h corr : Nat) (s : State) : Out :=
  run t s fun s =>
    let v := hayOf s h
    gate (haysOn s && decide (h < 2) && (v.state == .active || v.state == .standby) && (match v.reportAt with
        | none => true
        | some r => decide (r + 1000000000 ≤ s.now)))
      (fun s => setHay s h { v with
        lastPass := true, healthyS := if v.state == .standby then satAdd 65535 v.healthyS 1 else v.healthyS,
        uptimeS := (v.uptimeS + 1) % 2 ^ 32, sramCorr := satAdd 65535 v.sramCorr corr,
        reportSeq := (v.reportSeq + 1) % 2 ^ 32, reportAt := some s.now }) s

/-! ## The management port (R345, 19 R437, R439) -/

/-- MGMT_TLS_CONNECT (R439): the client's root key hashes to `anchorHash`, and `good` says that the handshake's other checks
pass. One session is served at a time, and while the ownership fuses are blank none is accepted. -/
def execMgmtTlsConnect (t anchorHash : Nat) (good : Bool) (s : State) : Out :=
  run t s fun s => gate s.sess.pkg.isSome (fun s =>
    if s.mbx.mgmtLive || s.fuses.anchor.isNone then s.emit (.mgmtConn false)
    else if good && s.fuses.anchor == some anchorHash then
      { s with mbx := { s.mbx with mgmtLive := true } }.emit (.mgmtConn true)
    else alarm (s.emit (.mgmtConn false))) s

end Sys2Proof.Machine
end

