-- ==== Sys2Proof/Machine/Heat.lean ====
section
/-!
DEFINITION. Machine/Heat.lean: sensors, throttling and trip, coolant flow, the flow stop, and the thermal summary (17).
-/
namespace Sys2Proof.Machine

/-! ## Sensors (R402 to R404) -/

def setSensor (s : State) (k : Nat) (v : Sensor) : State :=
  { s with heat := { s.heat with sensors := mset s.heat.sensors k v } }

def setRegion (s : State) (k : Nat) (v : Region) : State :=
  { s with heat := { s.heat with regions := mset s.heat.regions k v } }

/-- A sample is implausible: more than 2 degrees below the inlet, or more than 20 from the same sensor 1 ms earlier. -/
def implausible (s : State) (a : Sensor) (v : Int) : Bool :=
  (match s.heat.report with
    | some r => decide (v < r.inlet - 20)
    | none => false) ||
  (match a.hist[9]? with
    | some w => decide (200 < v - w) || decide (200 < w - v)
    | none => false)

/-- One sample of one sensor: quarantined by an implausible one, released after 1 s of plausible ones within 6 degrees of the
twin. -/
def judgeSensor (s : State) (k : Nat) (v : Int) (twin : Option Int) : State :=
  let a := mget {} s.heat.sensors k
  let near := match twin with
    | none => true
    | some w => decide (v - w ≤ 60) && decide (w - v ≤ 60)
  let b : Sensor :=
    if implausible s a v then { a with quarantined := true, goodSince := none }
    else if !a.quarantined then a
    else if !near then { a with goodSince := none }
    else
      let g := a.goodSince.getD s.now
      if g + 1000000000 ≤ s.now then { a with quarantined := false, goodSince := none } else { a with goodSince := some g }
  setSensor s k { b with hist := (v :: a.hist).take 11 }

/-- The divergence of a twin pair (R403): flagged after 8 consecutive samples more than 6 degrees apart, both plausible. -/
def judgeTwin (s : State) (spot : Nat) (plausible : Bool) (a b : Int) : State :=
  let w := mget {} s.heat.twins spot
  let far := decide (60 < a - b) || decide (60 < b - a)
  let w1 : Twin :=
    if !plausible then { w with farRun := 0, nearRun := 0 }
    else if far then { w with farRun := min 8 (w.farRun + 1), nearRun := 0 }
    else { w with farRun := 0, nearRun := min 8 (w.nearRun + 1) }
  let flag := (w.flagged || w1.farRun == 8) && w1.nearRun != 8
  let s1 := { s with heat := { s.heat with twins := mset s.heat.twins spot { w1 with flagged := flag } } }
  if flag && !w.flagged then fire s1 22 else s1

/-- The samples of one twin pair. -/
def samplePair (temps : List Int) (s : State) (spot : Nat) : State :=
  let a := temps.getD (2 * spot) 0
  let b := temps.getD (2 * spot + 1) 0
  let fine := !implausible s (sensorOf s spot 0) a && !implausible s (sensorOf s spot 1) b
  judgeTwin (judgeSensor (judgeSensor s (2 * spot) a (some b)) (2 * spot + 1) b (some a)) spot fine a b

/-! ## Regions (R410, R411) -/

/-- The hottest of some readings. -/
def hottest (l : List (Option Int)) : Option Int :=
  (l.filterMap id).foldl (fun m x => some (match m with
    | none => x
    | some y => max x y)) none

/-- Both sensors of a pair are quarantined. -/
def pairLost (s : State) (spot : Nat) : Bool := (sensorOf s spot 0).quarantined && (sensorOf s spot 1).quarantined

/-- Reading of a region: quadrants 0 to 7, fabric die 8, stacks 9 to 20. -/
def regionReading (s : State) (k : Nat) : Option Int :=
  if k < 8 then hottest ((span (4 * k) 4).map (pairReading s))
  else if k == 8 then hottest ((span 32 8).map (pairReading s))
  else stackReading s (k - 9)

/-- The region is held to half (R403): on a compute die, every quadrant of the die. -/
def regionHeld (s : State) (k : Nat) : Bool :=
  if k < 8 then (span (16 * (k / 4)) 16).any (pairLost s)
  else if k == 8 then (span 32 8).any (pairLost s)
  else pairLost s (40 + (k - 9))

/-- Throttle onset, hard limit and trip of a region (Table 17-4). -/
def heatLimits (k : Nat) : Int × Int × Int := if k ≤ 8 then (920, 1000, 1100) else (850, 920, 1000)

/-- The response of a region to its reading (Table 17-5). A stack without any reading counts as at its hard limit (R404). -/
def respond (now k : Nat) (reading : Option Int) (held : Bool) (v : Region) : Region :=
  let (onset, hard, _) := heatLimits k
  let judged := if k ≤ 8 || reading.isSome || !held then reading else some hard
  match judged with
  | none => { v with reading := none, held := held, hot := false, hardSince := none }
  | some x =>
    let v1 := { v with reading := reading, held := held, hot := decide (onset ≤ x),
                       hardSince := if hard ≤ x then some (v.hardSince.getD now) else none }
    if onset ≤ x then
      if k < 8 then { v1 with off := min 1500 (v.off + 25) } else { v1 with pace := if v.pace ≤ 8 then v.pace else v.pace - 1 }
    else if x ≤ onset - 30 && (match v.easedAt with | none => true | some t => decide (t + 1000000 ≤ now)) then
      { v1 with off := v.off - 25, pace := min 16 (v.pace + 1), easedAt := some now }
    else v1

/-- Cycles of 16 in which a region's loads may act: held, at the hard limit, or paced; a quadrant at the hard limit for 1 ms
falls to 4 (Table 17-5). -/
def heatD (now k : Nat) (v : Region) : Nat :=
  let h := match v.hardSince with
    | none => 16
    | some t => if k < 8 then (if t + 1000000 ≤ now then 4 else 8) else 4
  min (min v.pace h) (if v.held then 8 else 16)

/-- The thermal response of one region to this sample. -/
def sampleRegion (s : State) (k : Nat) : State :=
  setRegion s k (respond s.now k (regionReading s k) (regionHeld s k) (mget {} s.heat.regions k))

/-- A spot at or above its region's trip (R412), with its reading. -/
def tripSpot (s : State) : Option (Nat × Int) :=
  let spots := (List.range 40).map (fun i => (i, pairReading s i, (1100 : Int))) ++
    (List.range 12).map (fun k => (40 + k, stackReading s k, (1000 : Int)))
  spots.findSome? (fun e => match e.2.1 with
    | some x => if e.2.2 ≤ x then some (e.1, x) else none
    | none => none)

/-- Bring-up that is in S3 to S7 stops with a cause (18 R433). -/
def stopStage (s : State) (cause : Nat) : State :=
  match s.boot.stage with
  | some n => if 3 ≤ n && n ≤ 7 && s.boot.stopped.isNone then stopBringUp s n cause 0 else s
  | none => s

/-- A thermal trip (R412): THERM_TRIP_N, source 1, and the response of Table 17-3. -/
def trip (s : State) (spot : Nat) (x : Int) : State :=
  if s.heat.tripped then s
  else
    let s1 := { s with heat := { s.heat with tripped := true }, boot := { s.boot with thermTripN := false } }
    let s2 := faultLog (fire s1 1) 0x31 4 [spot, unsx 16 x]
    refreshAlert (stopStage (flowResponse s2) 0x81)

/-- SENSOR_SAMPLE (R402 to R412): sensors 2 * spot + i of the 52 pairs, then the twelve top dies, in 0.1 degrees. -/
def execSensorSample (t : Nat) (temps : List Int) (s : State) : Out :=
  run t s fun s => gate (temps.length == 116 && decide (s.heat.sampledAt + 100000 ≤ s.now) && s.boot.vrEn.getLsbD 2 &&
      !s.boot.poweredOff) (fun s =>
    let before := s.heat.regions
    let s1 := (List.range 52).foldl (samplePair temps) { s with heat := { s.heat with sampledAt := s.now } }
    let s2 := (List.range 12).foldl (fun s k => judgeSensor s (2 * (52 + k)) (temps.getD (104 + k) 0) none) s1
    let s3 := (List.range 21).foldl sampleRegion s2
    let new := (List.range 21).filter (fun k => (mget {} s3.heat.regions k).hot && !(mget {} before k : Region).hot)
    let s4 := { s3 with heat := { s3.heat with throttleEvents := satAdd max16 s3.heat.throttleEvents new.length } }
    let m := s4.power.minute
    let s5 := if s4.heat.regions.any (fun e => throttled e.2) then
      { s4 with power := { s4.power with minute := { m with thermal := true } } } else s4
    let may := match s5.heat.lastThrottleEvt with
      | none => true
      | some u => decide (u + 1000000000 ≤ s5.now)
    let s6 := if !new.isEmpty && may then fire { s5 with heat := { s5.heat with lastThrottleEvt := some s5.now } } 21 else s5
    match tripSpot s6 with
    | none => s6
    | some (spot, x) => trip s6 spot x) s

/-! ## Coolant flow (R405 to R407) -/

/-- The flow state takes a value; an entry to SCALED, LOW, FALLOW or UNKNOWN fires source 23. -/
def setFlowState (s : State) (st : Nat) : State :=
  if s.heat.flowState == st then s
  else
    let s1 := { s with heat := { s.heat with flowState := st } }
    if 1 ≤ st && st ≤ 4 then fire s1 23 else s1

/-- A flow limit is staged for step 4 (R405). -/
def stageFlow (s : State) (l : Option Nat) : State := { s with heat := { s.heat with stagedLimit := some (s.now, l) } }

/-- A missing report (R406): the fifth in a row makes the state UNKNOWN. FALLOW and STOPPED are left only by their own
rules. -/
def missReport (s : State) : State :=
  let s1 := { s with heat := { s.heat with missRun := s.heat.missRun + 1 } }
  if 5 ≤ s1.heat.missRun && s1.heat.flowState != 3 && s1.heat.flowState != 4 && s1.heat.flowState != 5 then
    setFlowState (stageFlow s1 (some 960)) 4
  else s1

/-- A valid report is judged (R405 to R407). -/
def takeReport (s : State) (r : FlowRep) : State :=
  let (st, l) := judgeFlow r
  let h := s.heat
  let s1 := { s with heat := { h with
      report := some r, missRun := 0, belowSince := if flowHalf r then none else some (h.belowSince.getD s.now) } }
  if h.flowState == 3 || h.flowState == 5 then s1 else setFlowState (stageFlow s1 l) st

/-- FLOW_REPORT (R405, R406). -/
def execFlowReport (t : Nat) (a : MbxArgs) (s : State) : Out :=
  mbxCmd { opcode := 0x0507, rights := 4, pkg := .any, partUse := .pkg } anyReq noChk
    (fun r s =>
      let s1 := { s with heat := { s.heat with lastReport := s.now } }
      if r.f 32 1 == 1 then (takeReport s1 { ml := r.f 0 16, inlet := sx 16 (r.f 16 16), at_ := s.now }, ok)
      else (missReport s1, ok)) t a s

/-- FLOW_REPORT_MISSING (R406): 150 ms have passed without any report. -/
def execFlowReportMissing (t : Nat) (s : State) : Out :=
  run t s fun s => gate (hayOn s && decide (s.heat.lastReport + 150000000 ≤ s.now))
    (fun s => missReport { s with heat := { s.heat with lastReport := s.heat.lastReport + 150000000 } }) s

/-- DATA of the flow entries: flow and inlet of the latest valid report. -/
def flowData (s : State) : List Nat :=
  match s.heat.report with
  | some r => [r.ml, unsx 16 r.inlet]
  | none => [0, 0]

/-- FLOW_FALLOW (R407): f_eff has stayed below 0.50 for 1 s. -/
def execFlowFallow (t : Nat) (s : State) : Out :=
  run t s fun s =>
    match s.heat.belowSince with
    | none => s
    | some b => gate (decide (b + 1000000000 ≤ s.now) && hayOn s && s.boot.stage == some 8 && s.heat.flowState != 3 &&
        s.heat.flowState != 5) (fun s =>
        let s1 := setFlowState (faultLog s 0x32 4 (flowData s)) 3
        let s2 := beginFallow s1 [0, 1] true
        { s2 with power := { s2.power with byFlow := true, exiting := [] } }) s

/-- FLOW_STOP (R408): the AON island acts alone once the filtered FLOW_OK has been low for more than 200 us, the compute rails
being on. -/
def execFlowStop (t : Nat) (s : State) : Out :=
  run t s fun s =>
    match s.heat.flowLowSince with
    | none => s
    | some b => gate (!flowPin s && decide (b + 200000 < s.now) && s.boot.vrEn.getLsbD 0 && s.heat.flowState != 5) (fun s =>
        let s1 := faultLog (fire s 0) 0x30 4 (flowData s)
        let s2 := { s1 with heat := { s1.heat with flowState := 5, flowStops := satAdd max16 s1.heat.flowStops 1 } }
        let s3 := (List.range 4).foldl (fun s p => match mfind s.faults.replays p with
          | some r => endReplay s p r
          | none => s) s2
        refreshAlert (stopStage (flowResponse s3) 0x80)) s

/-- The end condition of R409. -/
def flowBack (s : State) : Bool :=
  flowPin s && (match s.heat.flowHighSince with
    | none => false
    | some u => decide (u + 1000000000 ≤ s.now)) &&
  (match s.heat.report with
    | some r => flowGood r
    | none => false)

/-- FLOW_STOP_END (R409): the fabric die restarts and every link trains in full; the dies stay in Fallow with flow state
FALLOW. A bring-up that the stop interrupted resumes at S3 with the full test (18 R433). -/
def execFlowStopEnd (t : Nat) (s : State) : Out :=
  run t s fun s => gate (s.heat.stopped && s.heat.flowState == 5 && !s.heat.tripped && flowBack s) (fun s =>
    let s1 := { s with heat := { s.heat with stopped := false } }
    if s1.boot.stopped == some 0x80 then
      let s2 := { s1 with
        boot := { s1.boot with stopped := none, stage := some 3, bootStage := 3, reached := 3, stageStart := s1.now,
                               testFull := true, resumed := true },
        power := { s1.power with fallow := [], byFlow := false }, evt := { s1.evt with held := false }, memTest := none }
      let s3 := (List.range 4).foldl (fun s p => if pstate s p == .dormant then setPState s p (partOf s p).recorded else s) s2
      refreshAlert { s3 with heat := { s3.heat with flowState := 0, stagedLimit := some (s3.now, none) } }
    else refreshAlert (setFlowState (stageFlow s1 (some 960)) 3)) s

/-! ## The thermal summary (R415) -/

/-- A temperature field: 0 where there is no reading. -/
def tempField (r : Option Int) : Nat × Nat := (unsx 12 (r.getD 0), 12)

/-- Readings of some regions. -/
def readings (s : State) (ks : List Nat) : Option Int := hottest (ks.map (fun k => (mget {} s.heat.regions k : Region).reading))

/-- The record of Table 17-7. -/
def thermalRecord (s : State) : Nat :=
  let reg := fun k => (mget {} s.heat.regions k : Region)
  let hot := readings s (span 9 12)
  let id_ := ((List.range 12).find? (fun k => hot.isSome && (reg (9 + k)).reading == hot)).getD 0
  let overs := fun ks => packBits (ks.map (fun k => (b2n (reg k).hot, 1)))
  let held := [(reg 0).held || (reg 1).held || (reg 2).held || (reg 3).held,
    (reg 4).held || (reg 5).held || (reg 6).held || (reg 7).held] ++ (span 8 13).map (fun k => (reg k).held)
  let rep := s.heat.report
  packBits [tempField (readings s (span 0 4)), tempField (readings s (span 4 4)), tempField (reg 8).reading, tempField hot,
    (id_, 4), (0, 4), (unsx 12 ((rep.map (·.inlet)).getD 0), 12), ((rep.map (·.ml)).getD 0, 16), (s.heat.flowState, 3),
    (b2n (!s.boot.thermTripN), 1), (overs (span 0 8), 8), (overs (span 9 12), 12), (0, 4),
    (min 255 (s.heat.twins.filter (fun e => e.2.flagged)).length, 8),
    (min 255 (s.heat.sensors.filter (fun e => e.2.quarantined)).length, 8),
    (packBits (held.map (fun b => (b2n b, 1))), 15), (0, 1), (s.heat.flowLimit.getD 0, 12), (0, 4), (s.heat.flowStops, 16),
    (s.heat.throttleEvents, 16), (s.tick.count.toNat, 64)]

/-- THERMAL_STATUS (R415). -/
def execThermalStatus (t : Nat) (a : MbxArgs) (s : State) : Out :=
  mbxCmd { opcode := 0x0508, rights := 5, pkg := .any, partUse := .pkg, resp := 32 } anyReq noChk
    (fun _ s => (s, .done 0 (leBytes 32 (thermalRecord s)))) t a s

end Sys2Proof.Machine
end

