-- ==== Sys2Proof/Machine/Issue.lean ====
section
/-!
DEFINITION. Machine/Issue.lean: the issue of the descriptor at the head of a work queue to its unit (04 R97).
-/
namespace Sys2Proof.Machine

/-- The head of core `c`'s queue leaves it for unit `u`; the unit's next turn goes to the core after. -/
def issueHead (s : State) (c u d : Nat) : State × Issued :=
  let k := coreOf s c
  let j : Issued := { core := c, index := k.issued, desc := d, issuedAt := s.now,
                      limit := 1000000 * cfg s 0x52 (partOfCore c) }
  let s1 := setCore s c { k with queue := k.queue.drop 1, issued := (k.issued + 1) % 65536, progress := true }
  let e := engineOf (tileOf s1 (tileOfCore c)) u
  (setEngine s1 (tileOfCore c) u { e with jobs := e.jobs ++ [j], nextCore := (c % 4 + 1) % 4, progress := true }, j)

/-- What issue itself starts: the reads of a COPY from another package, and a Gleaner command. -/
def startIssued (s : State) (j : Issued) : State :=
  let d := j.desc
  match dType d with
  | 3 =>
    if cOp d == 0 && !copyEmpty d && copyFar s j.core d then
      match copyRefusal s j.core d with
      | some x => setJob s 3 { j with fail := some x }
      | none =>
        let (s1, qs) := sendCopyReads s j.core d j.index
        setJob s1 3 { j with started := true, reqs := qs }
    else s
  | 6 => forwardIssue s j
  | _ => s

/-- The unit can take the head now: SEQ values for a far COPY's reads, room at the Gleaner. -/
def issueRoom (s : State) (c d : Nat) : Bool :=
  match dType d with
  | 3 => seqRoom s (tileOfCore c) (cLines d * (cLen d / 1024 + 1)) || !copyFar s c d
  | 6 => forwardRoom s c d
  | _ => true

/-- DESCRIPTOR_ISSUE (R97): the unit `u` of tile `i` takes the head whose turn it is. -/
def execDescriptorIssue (t i u : Nat) (s : State) : Out :=
  run t s fun s =>
    match nextIssuer s i u with
    | none => s
    | some n =>
      let c := 4 * i + n
      match (coreOf s c).queue with
      | [] => s
      | d :: _ => gate (coreLive s c && issueRoom s c d) (fun s =>
          let (s1, j) := issueHead s c u d
          startIssued s1 j) s

end Sys2Proof.Machine
end

