-- ==== Sys2Proof/Machine/Lifecycle.lean ====
section
/-!
DEFINITION. Machine/Lifecycle.lean: tenant sessions, partition start, stop, fence and reset, and the Winnow (15 Tables 15-9 and
15-10, 19 R458 to R461, 20 R478 to R480).
-/
namespace Sys2Proof.Machine

/-! ## Sessions -/

/-- Partitions named by a mask. -/
def maskParts (m : Nat) : List Nat := (List.range 4).filter (bit m)

/-- SESSION_CREATE (01 R20, 15 R370). -/
def execSessionCreate (t : Nat) (a : MbxArgs) (s : State) : Out :=
  mbxCmd { opcode := 0x0300, rights := 1, pkg := .c, partUse := .pkg } anyReq
    (fun r s => { bad := r.f 0 32 == 0 || !([1, 2, 4, 8, 3, 12, 15].contains (r.f 32 4)) || !(partsWith s (r.f 0 32)).isEmpty,
                  wrong := (maskParts (r.f 32 4)).any (fun p => pstate s p != .free) })
    (fun r s =>
      ((maskParts (r.f 32 4)).foldl (fun s p =>
        let s1 := setPState s p .assigned
        { s1 with sess := { s1.sess with parts := mset s1.sess.parts p { partOf s1 p with session := r.f 0 32 } } }) s, ok)) t a s

/-- PART_START (02 R32): commits at step 8. -/
def execPartStart (t : Nat) (a : MbxArgs) (s : State) : Out :=
  mbxCmd { opcode := 0x0301, rights := 3, pkg := .c, partUse := .one, parts := some [.assigned], resp := 8 } anyReq
    (fun r s => tickChk s r) (fun r s => stageAns s (r.f 0 64) (.partStart r.part)) t a s

/-- PART_STOP (02 R50): commits at step 8. -/
def execPartStop (t : Nat) (a : MbxArgs) (s : State) : Out :=
  mbxCmd { opcode := 0x0302, rights := 3, pkg := .c, partUse := .one, parts := some [.running], resp := 8 } anyReq
    (fun r s => tickChk s r) (fun r s => stageAns s (r.f 0 64) (.partStop r.part)) t a s

/-- PART_FENCE (20 R466): answered when the fence is complete. -/
def execPartFence (t : Nat) (a : MbxArgs) (s : State) : Out :=
  mbxCmd { opcode := 0x0303, rights := 3, pkg := .c, partUse := .one, parts := some [.assigned, .running] } anyReq noChk
    (fun r s => (beginFence s r.part .fenced { cause := 5, origin := ownOrigin s r.part }, .prog .partFence)) t a s

/-- Table 15-10. -/
def statusRecord (s : State) (p : Nat) : Nat :=
  let q := partOf s p
  packBits [(partCode q.st, 3), (0, 5), (q.jobs.length, 5), (0, 3), (q.defaultJob, 16), (q.session, 32),
    (partMask (sessionParts s p), 4), ((mget {} s.place.sessions q.session : Placement).mode, 2), (0, 2),
    ((s.coll.groups.filter (fun g => g.part == p)).length, 8), ((cellarOf s p).slots, 17), (0, 31), (q.stateTick, 64)]

/-- PART_STATUS (R367, Table 15-10). -/
def execPartStatus (t : Nat) (a : MbxArgs) (s : State) : Out :=
  mbxCmd { opcode := 0x0306, rights := 3, pkg := .any, partUse := .one, resp := 32 } anyReq noChk
    (fun r s => (s, .done 0 (leBytes 32 (statusRecord s r.part)))) t a s

/-! ## Partition reset (20 R478 to R480) -/

/-- PART_RESET (R478): BUSY while a fence of the partition is not complete or a replay runs (13 R333). -/
def execPartReset (t : Nat) (a : MbxArgs) (s : State) : Out :=
  mbxCmd { opcode := 0x0304, rights := 3, pkg := .c, partUse := .one, parts := some [.assigned, .running, .fenced] } anyReq noChk
    (fun r s =>
      let p := r.part
      let s0 := { s with faults := { s.faults with resets := mset s.faults.resets p s.now } }
      if pstate s p == .fenced then
        if replaying s p || !((fenceOf s p).map (·.complete)).getD true then (s, .done 0x30 [])
        else (resetPartition (setPState (dropFence s0 p) p .resetting) p, .prog .partReset)
      else (beginFence s0 p .fenced { cause := 6, origin := ownOrigin s p }, .prog .partReset)) t a s

/-- A stack retrained in a partition reset: the patrol resumes where it stopped (Table 20-9). -/
def retrainStack (s : State) (lanes : List LaneTrain) (degraded : List (Nat × Nat)) (links : List Nat) (k : Nat) : State :=
  let v := stackOf s k
  if links.contains k then failStack (setStack s k { v with linkUp := false, trained := false }) k
  else
    let s1 := trainStack s k lanes degraded v.peak
    let w := stackOf s1 k
    let s2 := setStack s1 k { w with
      patrolPos := v.patrolPos, patrolLevel := v.patrolLevel, patrolAt := v.patrolAt, corrInterval := v.corrInterval,
      quietRun := v.quietRun }
    if w.pcs.any (fun e => e.2.degraded) then failStack (setStack s2 k { stackOf s2 k with trained := false }) k else s2

/-- PART_RESET_COMPLETE (R480): what the retraining of the partition's stacks found (`lanes`, `degraded` pseudo-channels,
stacks whose base-die link stays down), and the physical tiles 13 * column + row that its tile check fails. -/
def execPartResetComplete (t p : Nat) (lanes : List LaneTrain) (degraded : List (Nat × Nat)) (links tiles : List Nat)
    (s : State) : Out :=
  run t s fun s =>
    match mfind s.faults.resets p with
    | none => s
    | some start => gate (decide (p < 4) && pstate s p == .resetting && serving s) (fun s =>
        let new := (tiles.filter (fun k => k < 312 && partOfColumn (k / 13) == p && !s.boot.defective.contains k)).eraseDups
        let s1 := (stacksOf p).foldl (fun s k => retrainStack s lanes degraded links k) s
        let s2 := if new.isEmpty then s1
                  else buildMap (logDefects { s1 with boot := { s1.boot with defective := s1.boot.defective ++ new } } new)
        let failed := (stacksOf p).any (fun k => (stackOf s2 k).failed) || s2.boot.failedCols.any (fun c => partOfColumn c == p) ||
          decide (start + 4000000000 < s.now)
        let s3 := setPState s2 p (if failed then .failed else .assigned)
        let s4 := faultLog { s3 with faults := { s3.faults with resets := mdel s3.faults.resets p } } 0x03 p
          [(s.now - start) / 1000000, b2n failed, new.length]
        finish s4 (fun f => f.kind == .partReset && f.part == p) (if failed then 0x50 else 0) [] true) s

/-! ## The Winnow (19 R458 to R461) -/

/-- A command in flight holds what the end of its partition's session needs (13 R333). -/
def holdsSession (f : InFlight) : Bool :=
  match f.kind with
  | .partReset | .partFence | .replay | .cellarRelease | .bufAlloc _ _ => true
  | _ => false

/-- A partition of the session is held. -/
def sessionBusy (s : State) (ps : List Nat) : Bool :=
  ps.any (fun p => pstate s p == .resetting || pstate s p == .winnowing || replaying s p ||
    !((fenceOf s p).map (·.complete)).getD true) ||
  s.mbx.flight.any (fun f => holdsSession f && ps.contains f.part)

/-- A partition enters WINNOWING: by its fence (cause 8), or at once where it is FENCED; a FAILED one, or one whose die is off,
takes the reduced Winnow (R461). -/
def beginWinnow (s : State) (p : Nat) : State :=
  let reduced := pstate s p == .failed || pstate s p == .dormant || s.power.fallow.contains (dieOfPart p)
  let s1 :=
    if reduced then
      let u := abandonMoves (failQps (failOpens s (fun o => o.part == p) 4) p) (moveTouches p)
      destroyKeys (setPState (dropFence u p) p .winnowing) p
    else if pstate s p == .fenced then destroyKeys (setPState (dropFence s p) p .winnowing) p
    else beginFence s p .winnowing { cause := 8, origin := ownOrigin s p }
  { s1 with keys := { s1.keys with winnow := mset s1.keys.winnow p (s.now, reduced), winnowSlow := mdel s1.keys.winnowSlow p } }

/-- SESSION_END (R458, 15 R371). -/
def execSessionEnd (t : Nat) (a : MbxArgs) (s : State) : Out :=
  mbxCmd { opcode := 0x0305, rights := 3, pkg := .c, partUse := .one, parts := some notFree } anyReq
    (fun r s => { wrong := sessionOf s r.part == 0 })
    (fun r s =>
      let ps := sessionParts s r.part
      if sessionBusy s ps then (s, .done 0x30 []) else (ps.foldl beginWinnow s, .prog (.sessionEnd ps))) t a s

/-- Stack contents zero, every line good and unpoisoned; marks, patrol and retired frames stay (R458). -/
def clearStack (s : State) (k : Nat) : State :=
  if (stackOf s k).failed then s
  else resetHealth (setStack (stkZero s k 0 (2 ^ 36)) k { stackOf s k with bad := [], poisoned := [], writeBack := [] }) k

/-- Buffers that `sel` picks are released; one held on a tray-mate is freed there (15 R371). -/
def dropBufs (s : State) (sel : Buf → Bool) : State :=
  let gone := s.place.bufs.filter (fun e => sel e.2)
  let s1 := { s with place := { s.place with bufs := s.place.bufs.filter (fun e => !sel e.2) } }
  gone.foldl (fun s e =>
    if e.2.holder == ownLpkg s then s
    else sendHay s e.2.holder { kind := 2, session := e.2.session, handle := e.2.handle }) s1

/-- What the Stacker holds of a partition's stacks and of its session. -/
def clearPlace (s : State) (p : Nat) : State :=
  let mine := fun (key : Nat) => if key < slotHeatKey 0 0 then partOfStack (key / 32768) == p else (key - slotHeatKey 0 0) / 65536 == p
  let ses := sessionOf s p
  let last := partsWith s ses == [p]
  let s1 := dropBufs s (fun b => b.owner == p || (last && b.session == ses))
  let w := s1.place
  { s1 with place := { w with
      filling := w.filling.filter (fun k => !mine k), heat := mkeep w.heat (fun k _ => !mine k),
      stubs := w.stubs.filter (fun b => partOfStack b.stack != p),
      tileMoves := w.tileMoves.filter (fun m => partOfTile m.tile != p),
      sessions := if last then mdel w.sessions ses else w.sessions } }

/-- The release phase: regions, QPs, groups, memberships, records and items; the binding is cleared (Table 19-9, 15 R369). -/
def releaseAll (s : State) (p : Nat) : State :=
  let s1 := setPartRec (releaseQps (clearPlace s p) p) p {}
  let st : PState := if (stacksOf p).any (fun k => (stackOf s1 k).failed) || s1.boot.failedCols.any (fun c => partOfColumn c == p)
    then .failed else .free
  let s2 := setPState { s1 with
    eth := { s1.eth with mrs := mkeep s1.eth.mrs (fun _ m => m.part != p) },
    coll := { s1.coll with groups := s1.coll.groups.filter (fun g => g.part != p) },
    faults := { s1.faults with samples := mdel s1.faults.samples p },
    keys := { s1.keys with winnow := mdel s1.keys.winnow p, winnowSlow := mdel s1.keys.winnowSlow p } } p st
  { s2 with sess := { s2.sess with
      cfg := mkeep s2.sess.cfg (fun k _ => k / 16 == 0x40 || k % 16 != p),
      parts := mset s2.sess.parts p { st := st, stateTick := (partOf s2 p).stateTick } } }

/-- The work of a Winnow on tiles and stacks. -/
def winnowWork (s : State) (p : Nat) : State :=
  let s1 := clearSpads (resetUnits s p) p
  let s2 := { s1 with tiles := mkeep s1.tiles (fun i _ => partOfTile i != p), cores := mkeep s1.cores (fun c _ => c / 288 != p) }
  (stacksOf p).foldl clearStack s2

/-- The instant the `k`-th end of a Winnow comes at, after its start: whole multiples of 250 ms; a reduced one's fill time by
variant (R459, R461). -/
def winnowNs (s : State) (reduced : Bool) (k : Nat) : Nat :=
  if reduced then (if s.fuses.variant == 2 then 20100000 else 26800000) else 250000000 * k

/-- WINNOW_COMPLETE (R459): at the `k`-th multiple of 250 ms, a later one than the first only where a limit or a switch-over
slowed it; no stack of it may still refresh itself. Once the session's last partition is done, SESSION_END is answered. -/
def execWinnowComplete (t p k : Nat) (s : State) : Out :=
  run t s fun s =>
    match mfind s.keys.winnow p with
    | none => s
    | some (start, reduced) =>
      gate (decide (p < 4) && pstate s p == .winnowing && serving s && (fenceOf s p).isNone && decide (1 ≤ k) &&
          (k == 1 || (!reduced && (mget false s.keys.winnowSlow p || limitCause s != 0))) &&
          decide (start + winnowNs s reduced k ≤ s.now) && !(stacksOf p).any (fun k => (stackOf s k).selfRefresh)) (fun s =>
        let s1 := releaseAll (winnowWork s p) p
        finish s1 (fun f => match f.kind with
          | .sessionEnd ps => ps.contains p && ps.all (fun q => pstate s1 q != .winnowing)
          | _ => false) 0 [] true) s

end Sys2Proof.Machine
end

