-- ==== Sys2Proof/Machine/Packets.lean ====
section
/-!
DEFINITION. Machine/Packets.lean: injection, switching, forwarding and aging of packets, the handling of every packet that
arrives for this package, congestion and limiters (10), and what ABORT, OVERRUN_NOTICE and HAYWARD_MSG bring (20, 02, 15).
-/
namespace Sys2Proof.Machine

/-! ## Sending (R246, R249 to R261) -/

/-- The packet with the position and link of the present LPT, for a request; answers and the messages between neighbours keep
theirs. None where the entry is not valid (R246). -/
def restamp (s : State) (p : Pkt) : Option Pkt :=
  if isAnswerOp (hOp p.hdr) || hOp p.hdr == 0x30 || hOp p.hdr == 0x32 then some p
  else (lptPos s (hDestEid p.hdr / 1024)).map (fun pos => { p with hdr := sealHdr (setBits p.hdr 40 7 pos) })

/-- Bytes that a packet takes of its limiter: header and tail included (R261). -/
def limiterBytes (s : State) (h : Nat) : Nat := 32 * outFlits s h

/-- VC1 to VC4 pass the limiter of their destination. -/
def limited (h : Nat) : Bool := 1 ≤ hVc h && hVc h ≤ 4

/-- The limiter lets the packet start. -/
def limiterOpen (s : State) (h : Nat) : Bool :=
  !limited h || decide (0 ≤ (fillBucket s (limiterOf s (hDestEid h / 1024))).bucket)

/-- The packet's bytes are deducted. -/
def limiterTake (s : State) (h : Nat) : State :=
  if limited h then
    let v := fillBucket s (limiterOf s (hDestEid h / 1024))
    setLimiter s (hDestEid h / 1024) { v with bucket := v.bucket - (limiterBytes s h : Int) }
  else s

/-- The request that a packet is. -/
def reqOf (s : State) (p : Pkt) : Option OutReq := s.fab.reqs.find? (fun r => isReqPkt r p)

/-- The request's time starts at its injection (R265). -/
def startTimer (s : State) (p : Pkt) : State :=
  match reqOf s p with
  | none => s
  | some r => { s with fab := { s.fab with reqs := s.fab.reqs.map (fun x => if x == r then { x with at_ := s.now } else x) } }

/-- PACKET_INJECT (R246, R249, R261): packet `i` of the injection queues is stamped and takes its route, or is refused at the
source. -/
def execPacketInject (t i : Nat) (s : State) : Out :=
  run t s fun s =>
    match s.fab.inject[i]? with
    | none => s
    | some (p, _) => gate (limiterOpen s p.hdr) (fun s =>
        let s1 := { s with fab := { s.fab with inject := s.fab.inject.eraseIdx i } }
        match restamp s p with
        | none =>
          (match reqOf s1 p with
           | none => s1
           | some r => reqFail (dropReq s1 r) r 3)
        | some q =>
          let s2 := startTimer s1 q
          if hDestPos q.hdr == s.boot.posId then { s2 with fab := { s2.fab with local_ := s2.fab.local_ ++ [q] } }
          else sendRouted (limiterTake s2 q.hdr) q) s

/-- Weight of a VC (R262). -/
def vcWeight (s : State) (vc : Nat) : Nat := cfg s (0x10 + vc) 4

/-- Deficit round robin from VC `l.ptr` on (R257): the VC that may send, with the deficits and the pointer. A round that
finds none that fits adds 4 × weight to every deficit. -/
def drrPick (s : State) : Nat → Link → Option (Nat × Link)
  | 0, _ => none
  | fuel + 1, l =>
    let fits := fun vc => match vcHead s l vc with
      | none => false
      | some e => decide (outFlits s e.pkt.hdr ≤ mget 0 l.deficit vc)
    match ((span 1 5).filter (fun vc => decide (l.ptr ≤ vc))).find? fits with
    | some vc => some (vc, { l with ptr := vc })
    | none =>
      if (span 1 5).any (vcReady s l) then
        drrPick s fuel { l with ptr := 1, deficit := (span 1 5).foldl (fun m vc => mset m vc (mget 0 m vc + 4 * vcWeight s vc)) l.deficit }
      else none

/-- The promoted VC that has waited longest, of those that can start. -/
def promotedPick (s : State) (l : Link) : List Nat → Option Nat
  | [] => none
  | vc :: r =>
    let rest := promotedPick s l r
    if vcReady s l vc then
      match rest with
      | none => some vc
      | some k => if mget 0 l.since vc ≤ mget 0 l.since k then some vc else some k
    else rest

/-- The VC chosen next on a link (R257), with the link's round-robin state. -/
def pickVc (s : State) (l : Link) : Option (Nat × Link) :=
  match promotedPick s l l.promoted with
  | some vc => some (vc, { l with promoted := l.promoted.filter (· != vc) })
  | none =>
    if vcReady s l 0 then some (0, l)
    else
      match drrPick s 12 l with
      | none => none
      | some (vc, l1) =>
        let n := match vcHead s l1 vc with | none => 0 | some e => outFlits s e.pkt.hdr
        some (vc, { l1 with deficit := mset l1.deficit vc (mget 0 l1.deficit vc - n) })

/-- The header as it leaves on a link: sealed under the current epoch of an encrypted link (R241). -/
def linkHeader (s : State) (k h : Nat) : Nat :=
  let lk := (linkOf s k).key
  if sealed s h then sealHdr (setBits (setBits h 14 1 1) 22 1 lk.cur) else sealHdr (setBits (setBits h 14 1 0) 22 1 0)

/-- LINK_OUTPUT_SELECT (R255, R257): lane `n` of the link is free; the packet chosen starts on it and leaves whole. -/
def execLinkOutputSelect (t k n : Nat) (s : State) : Out :=
  run t s fun s => gate (usable s k && decide (n < 3) && bit (linkOf s k).txLanes n) (fun s =>
    let l := touch s (linkOf s k)
    match pickVc s l with
    | none => s
    | some (vc, l1) =>
      match vcHead s l1 vc with
      | none => s
      | some e =>
        let h := linkHeader s k e.pkt.hdr
        let n := outFlits s e.pkt.hdr
        let c := mget {} l1.pairs (pairOf h)
        let l2 : Link := { l1 with
          queue := l1.queue.erase e, lastHop := mset l1.lastHop vc (hHop h), since := mdel l1.since vc,
          pairs := if hOp h == 0 then l1.pairs else mset l1.pairs (pairOf h) { c with credits := c.credits - n },
          port := { l1.port with
            txPkts := satAdd max32 l1.port.txPkts 1, txFlits := satAdd (2 ^ 48 - 1) l1.port.txFlits n,
            transit := satAdd max32 l1.port.transit (hHop h) } }
        (releaseOut (setLink s k (touch s l2)) e).emit (.packet k h e.pkt.pay)) s

/-- VC_AGE_PROMOTE (R257): the VC could start and was not chosen for AGE_VC. -/
def execVcAgePromote (t k vc : Nat) (s : State) : Out :=
  run t s fun s =>
    let l := touch s (linkOf s k)
    gate (decide (k < 71) && decide (1 ≤ vc) && decide (vc ≤ 5) && !l.promoted.contains vc &&
        (match mfind l.since vc with | none => false | some a => decide (a + 1000 * cfg s (0x15 + vc) 4 ≤ s.now)))
      (fun s => setLink s k { l with promoted := l.promoted ++ [vc] }) s

/-- PACKET_FORWARD (R249, R252): the intermediate sets HOPCLASS to 1 and queues the packet toward its destination. -/
def execPacketForward (t n : Nat) (opened : Option (List Byte)) (s : State) : Out :=
  run t s fun s =>
    let k := n / 3
    match laneHead s n with
    | none => s
    | some p =>
      let h := p.hdr
      gate (n != localLane && usable s k && bits h 0 16 != 0xFFFF && hDestPos h != s.boot.posId && hOp h != 0 &&
          (classify s k h opened).isNone) (fun s =>
        let s1 := countRx (popLane s n) k h
        let out := linkTo s (hDestPos h)
        if quarDrop s1 k h then discard (freeFlits s1 k (pairOf h) (pktFlits h)) k
        else if usable s1 out then
          let g := sealHdr (setBits (setBits (setBits h 11 1 1) 14 1 0) 22 1 0)
          enqueue (holdFlits s1 k (pairOf h) (pktFlits h)) out { hdr := g, pay := clearPay p opened } (some k) (pktFlits h)
        else discard (freeFlits s1 k (pairOf h) (pktFlits h)) out) s

/-- PACKET_AGED_OUT (R256): packet `i` of a link's output queue, or of the injection queues (named as link 255), has waited
500 us. -/
def execPacketAgedOut (t k i : Nat) (s : State) : Out :=
  run t s fun s =>
    if k == 255 then
      match s.fab.inject[i]? with
      | none => s
      | some (p, at_) => gate (decide (at_ + 500000 ≤ s.now)) (fun s =>
          discard { s with fab := { s.fab with inject := s.fab.inject.eraseIdx i } } (linkTo s (hDestPos p.hdr))) s
    else
      match (linkOf s k).queue[i]? with
      | none => s
      | some e => gate (decide (e.entered + 500000 ≤ s.now)) (fun s =>
          let l := touch s (linkOf s k)
          discard (releaseOut (setLink s k (touch s { l with queue := l.queue.eraseIdx i })) e) k) s

/-! ## Arrivals that are not delivered (R255, R267) -/

/-- MALFORMED_PACKET (R267): the head flit that waits on a lane meets a class of Table 10-6. Nothing answers it; credits of
what was discarded are returned, except where the header cannot be trusted or the flits had none. -/
def execMalformedPacket (t n : Nat) (opened : Option (List Byte)) (s : State) : Out :=
  run t s fun s =>
    let k := n / 3
    match laneHead s n with
    | none => s
    | some p =>
      match classify s k p.hdr opened with
      | none => s
      | some cls => gate (decide (n < 213)) (fun s =>
          let s1 := violate (popLane s n) k cls p.hdr
          let back := cls == 3 || cls == 4 || cls == 6 || cls == 9 || (cls == 2 && hVc p.hdr < 6)
          if back then freeFlits s1 k (pairOf p.hdr) (1 + p.pay.length / 32) else s1) s

/-- TRUNCATE (R255): the packet in progress on the lane ends, discarded as truncated. What it had brought stands in the
TRUNCATE's own place until then. -/
def execTruncate (t n : Nat) (opened : Option (List Byte)) (s : State) : Out :=
  run t s fun s =>
    let k := n / 3
    match laneHead s n with
    | none => s
    | some p => gate (decide (n < 213) && hOp p.hdr == 0 && bits p.hdr 0 16 != 0xFFFF && (classify s k p.hdr opened).isNone)
        (fun s =>
          let s1 := countRx (popLane s n) k p.hdr
          let h := leNat (p.pay.take 32)
          if p.pay.isEmpty then s1 else freeFlits (discard s1 k) k (pairOf h) (p.pay.length / 32)) s

/-! ## Requests at their destination (R248, R531) -/

/-- The session a request's sender carries: its own partition's within the package; else what the tray or rack states (log 8). -/
def senderSes (s : State) (n h ses : Nat) : Nat :=
  if n == localLane then (match partOfEp (hSrcEid h % 1024) with | none => 0 | some p => sessionOf s p) else ses

/-- Who a WRITE or READ_REQ comes from: VC2 claims its JOB; VC3 its session, from a package of the same tray (Table 8-4). -/
def senderWho (s : State) (n h ses : Nat) : Who :=
  if n == localLane then .own (senderSes s n h ses)
  else if hVc h == 3 then .mate (if hSrcPos h / 8 == s.boot.posId / 8 then ses else 0)
  else .job (hJob h)

/-- The partition is within the sender's session, or has joined its JOB (R248). -/
def inReach (s : State) (n h ses q : Nat) : Bool :=
  (senderSes s n h ses != 0 && sessionOf s q == senderSes s n h ses) || (hJob h != 0 && (partOf s q).jobs.contains (hJob h))

/-- The partition's endpoints refuse: fenced, resetting, winnowing, or in Fallow. -/
def endpointShut (s : State) (q : Nat) : Bool := refusing s q || pstate s q == .dormant

/-- What stops a WRITE or READ_REQ of `nb` bytes, as a NACK status (R248): fenced, not permitted, too long. -/
def accessNack (s : State) (n h ses : Nat) (write : Bool) (nb : Nat) : Option Nat :=
  let ep := hDestEid h % 1024
  match partOfEp ep with
  | none => some 2
  | some q =>
    if endpointShut s q then some 1
    else if ep < 288 then
      if !(if n == localLane then inReach s n h ses q else hVc h == 2 && inReach s n h 0 q) then some 2
      else if !spadFits (hAddr h) nb then some 3 else none
    else if ep < 340 then some 2
    else if !mayReach s (senderWho s n h ses) write (hAddr h) then some 2
    else
      match bufAt s (hAddr h) with
      | none => some 2
      | some (_, b) => if b.base + frameBytes * b.pages.length < hAddr h + nb || 1024 < nb then some 3 else none

/-- The memory that a WRITE or READ_REQ reaches can be served now. -/
def accessReady (s : State) (h nb : Nat) : Bool := hDestEid h % 1024 < 288 || rangeReady s (hAddr h) nb

/-- The header that waits on a lane. -/
def laneHdr (s : State) (n : Nat) : Nat := ((laneHead s n).map (·.hdr)).getD 0

/-- A WRITE's acknowledgement is held, joined with those of its source (R244). -/
def holdAck (s : State) (h : Nat) : State :=
  let same := fun (a : HeldAck) => a.ep == hDestEid h % 1024 && a.destEid == hSrcEid h && a.destPos == hSrcPos h &&
    a.seqs.length < 16 && s.now ≤ a.since + 100
  let acks := s.fab.acks
  match acks.find? same with
  | some a =>
    let b := { a with seqs := a.seqs ++ [hSeq h], echo := a.echo || hCe h }
    { s with fab := { s.fab with acks := acks.map (fun x => if x == a then b else x) } }
  | none =>
    let b : HeldAck := { ep := hDestEid h % 1024, destEid := hSrcEid h, destPos := hSrcPos h, seqs := [hSeq h], echo := hCe h,
                         route := hRoute h, via := hVia h, since := s.now }
    { s with fab := { s.fab with acks := acks ++ [b] } }

/-- WRITE (R248, R531, 04 R110): the bytes land, the destination counter advances by them, and the acknowledgement is held. -/
def execWrite (t n : Nat) (opened : Option (List Byte)) (ses : Nat) (mi : MemIn) (s : State) : Out :=
  run t s fun s =>
    let nb := bits (hOperand (laneHdr s n)) 0 11
    gate (accessReady s (laneHdr s n) nb) (fun s => recvPkt s n 0x01 opened (fun s h pay =>
      let ep := hDestEid h % 1024
      let q := (partOfEp ep).getD 0
      match accessNack s n h ses true nb with
      | some st => nack s h st
      | none =>
        if hDcc h && !inReach s n h ses q then nack s h 2
        else
          let dcc := if hDcc h then some (hCc h) else none
          let bs := pay.take nb
          if ep < 288 then holdAck (landSpad s ep (hAddr h) bs dcc) h
          else
            let (s1, landed) := landMem s 2 (hAddr h) bs dcc mi
            if landed then holdAck s1 h else nack s1 h 4)) s

/-- READ_REQ (R242, R248): answered by READ_RESP on its VC, or by NACK. -/
def execReadReq (t n : Nat) (opened : Option (List Byte)) (ses : Nat) (mi : MemIn) (si : SpadIn) (s : State) : Out :=
  run t s fun s =>
    let nb := bits (hOperand (laneHdr s n)) 0 11
    gate (accessReady s (laneHdr s n) nb) (fun s => recvPkt s n 0x02 opened (fun s h _ =>
      let ep := hDestEid h % 1024
      match accessNack s n h ses false nb with
      | some st => nack s h st
      | none =>
        if nb == 0 then answerPkt s h 0x03 (hVc h) 0 []
        else if ep < 288 then
          let s1 := eccCount s ep si
          if badIn si (hAddr h) nb then nack s1 h 4 else answerPkt s1 h 0x03 (hVc h) 0 (spadRead s1 ep (hAddr h) nb)
        else
          let (s1, bs, bad) := maRead s 2 (hAddr h) nb mi
          if bad.isEmpty then answerPkt s1 h 0x03 (hVc h) 0 bs else nack s1 h 4)) s

/-- A counter update arrives (R114, R248): it is applied and answered by SYNC_ACK, or by NACK. -/
def syncArrives (s : State) (n h ses : Nat) (f : State → Nat → State) : State :=
  match partOfEp (hDestEid h % 1024) with
  | none => nack s h 2
  | some q =>
    if endpointShut s q then nack s h 1
    else if !inReach s n h ses q then nack s h 2
    else answerPkt (f s q) h 0x07 0 0 []

/-- SYNC_ADD_PACKET (04 R111, R114). -/
def execSyncAddPacket (t n : Nat) (opened : Option (List Byte)) (ses : Nat) (s : State) : Out :=
  run t s fun s => recvPkt s n 0x05 opened (fun s h _ => syncArrives s n h ses (fun s q => ccAdd s q (hCc h) (hOperand h)))

/-- SYNC_SET_PACKET (04 R111, R114). -/
def execSyncSetPacket (t n : Nat) (opened : Option (List Byte)) (ses : Nat) (s : State) : Out :=
  run t s fun s => recvPkt s n 0x06 opened (fun s h _ => syncArrives s n h ses (fun s q => ccSet s q (hCc h) (hOperand h)))

/-- The Gleaner a GLEANER_CMD names has room (06 R146). -/
def cmdRoom (s : State) (h : Nat) (pay : List Byte) : Bool :=
  let ep := hDestEid h % 1024
  !(288 ≤ ep && ep < 300) || glnRoom s (ep - 288) (leNat (pay.take 64))

/-- GLEANER_CMD (06 R135, R136, R149): the body enters its Gleaner's queue, or the command is answered with NACK. A full class
leaves it waiting in the fabric (06 R146). -/
def execGleanerCmd (t n : Nat) (opened : Option (List Byte)) (ses : Nat) (s : State) : Out :=
  run t s fun s =>
    let pay := match laneHead s n with | none => [] | some p => clearPay p opened
    gate (cmdRoom s (laneHdr s n) pay) (fun s => recvPkt s n 0x08 opened (fun s h pay =>
      let ep := hDestEid h % 1024
      if ep < 288 || 299 < ep then nack s h 2
      else
        let k := ep - 288
        let b := leNat (pay.take 64) / 2 ^ 64 * 2 ^ 64
        let sv := senderSes s n h ses
        if endpointShut s (partOfStack k) then nack s h 1
        else
          let refusal := if glnAtOnce b || (glnMalformed s b).isSome then none else glnRefusal s sv b
          match refusal with
          | some 3 => nack s h 2
          | some 2 => nack s h 3
          | _ => glnPut s k { body := b, src := .vc4 h, arrived := s.now, ses := sv })) s

/-! ## Answers at their requester (R242 to R244, R260, R265) -/

/-- An echo is applied, even from a late answer (R260): ECHO, or CE on a READ_RESP. -/
def applyEcho (s : State) (h : Nat) : State :=
  if hEcho h || (hOp h == 3 && hCe h) then echoFrom s (hSrcEid h / 1024) else s

/-- The answer for one SEQ: `f` for the request it names, where the kind is one that it answers; any other arrival is dropped
and counted as LATE_COMPLETION (R265). -/
def answered (s : State) (ep q : Nat) (kinds : List ReqKind) (f : State → OutReq → State) : State :=
  match findReq s ep q with
  | some r => if kinds.contains r.kind then f (dropReq s r) r else lateCount s r.part
  | none =>
    match s.fab.holds.find? (fun h => h.ep == ep && h.seq == q) with
    | some h => lateCount s h.part
    | none => s

/-- READ_RESP (R242, R245): the data is delivered. -/
def execReadResp (t n : Nat) (opened : Option (List Byte)) (s : State) : Out :=
  run t s fun s => recvPkt s n 0x03 opened (fun s h pay =>
    answered (applyEcho s h) (hDestEid h % 1024) (hSeq h) [.read] (fun s r => readDone s r (fit r.bytes pay)))

/-- SEQ values a WRITE_ACK covers (R244). -/
def ackSeqs (h : Nat) (pay : List Byte) : List Nat :=
  if hLen h == 0 then [hSeq h] else (List.range (bits (hOperand h) 0 5)).map (fun i => leNat ((pay.drop (2 * i)).take 2))

/-- WRITE_ACK (R244): completes the writes it names. -/
def execWriteAck (t n : Nat) (opened : Option (List Byte)) (s : State) : Out :=
  run t s fun s => recvPkt s n 0x04 opened (fun s h pay =>
    (ackSeqs h pay).foldl (fun s q => answered s (hDestEid h % 1024) q [.write] ackDone) (applyEcho s h))

/-- WRITE_ACK_SEND (R244): held acknowledgement `i` is sent. -/
def execWriteAckSend (t i : Nat) (s : State) : Out :=
  run t s fun s =>
    match s.fab.acks[i]? with
    | none => s
    | some a =>
      let n := a.seqs.length
      let h : Hdr := {
        op := 4, vc := 0, route := a.route, via := a.via, echo := a.echo, destPos := a.destPos, destEid := a.destEid,
        srcEid := ownEid s a.ep, seq := a.seqs.headD 0, operand := if n == 1 then 0 else n }
      queueInject { s with fab := { s.fab with acks := s.fab.acks.eraseIdx i } }
        (mkPkt s h (if n == 1 then [] else a.seqs.flatMap (leBytes 2)))

/-- SYNC_ACK (04 R111): the remote update is complete. -/
def execSyncAck (t n : Nat) (opened : Option (List Byte)) (s : State) : Out :=
  run t s fun s => recvPkt s n 0x07 opened (fun s h _ =>
    answered (applyEcho s h) (hDestEid h % 1024) (hSeq h) [.sync] ackDone)

/-- GLEANER_DONE (06 R149): the status reaches the forwarder. A tile's counter advances by its descriptor's own signal
(Table 4-21). -/
def execGleanerDone (t n : Nat) (opened : Option (List Byte)) (s : State) : Out :=
  run t s fun s => recvPkt s n 0x09 opened (fun s h _ =>
    answered (applyEcho s h) (hDestEid h % 1024) (hSeq h) [.gleaner] (fun s r =>
      match r.owner with
      | .forward c i => tellForwarder s c i (hStatus h)
      | _ => s))

/-- NACK (R243): ends its request with the cause its status gives. -/
def execNack (t n : Nat) (opened : Option (List Byte)) (s : State) : Out :=
  run t s fun s => recvPkt s n 0x0A opened (fun s h _ =>
    answered (applyEcho s h) (hDestEid h % 1024) (hSeq h) [.write, .read, .sync, .gleaner] (fun s r =>
      let s1 := setPartRec s r.part { partRec s r.part with nackRx := satAdd max16 (partRec s r.part).nackRx 1 }
      reqFail s1 r (nackCause (hStatus h))))

/-! ## Messages without an answer -/

/-- ABORT (20 R470). -/
def execAbort (t n : Nat) (opened : Option (List Byte)) (s : State) : Out :=
  run t s fun s => recvPkt s n 0x20 opened (fun s h pay =>
    let v := leNat pay
    let o : Origin := { lpkg := bits v 64 6, part := bits v 70 2, valid := bit v 76, operator := bit v 77 }
    if (List.range 4).any (fun p => (partOf s p).jobs.contains (hJob h)) then actOnAbort s (hJob h) 10 o
    else
      { s with faults := { s.faults with strayAborts := s.faults.strayAborts + 1, strayJob := hJob h } })

/-- OVERRUN_NOTICE (02 R53): logged, and the peer-overrun event of each partition that has joined the domain. -/
def execOverrunNotice (t n : Nat) (opened : Option (List Byte)) (s : State) : Out :=
  run t s fun s => recvPkt s n 0x21 opened (fun s h pay =>
    let v := leNat pay
    let mine := (List.range 4).filter (fun p => (partOf s p).jobs.contains (hJob h))
    if mine.isEmpty then s
    else
      let e : OverrunEntry := { noticeTick := bits v 64 64, job := hJob h, lpkg := hSrcEid h / 1024, part := bits v 132 2,
                                lag := bits v 128 4, cause := bits v 134 2 }
      let tk := s.tick
      let s1 := { s with tick := if tk.log.length < 64 then { tk with log := tk.log ++ [e] }
                                 else { tk with logLost := satAdd max16 tk.logLost 1 } }
      mine.foldl (fun s p => firePart s p 2) s1)

/-- SCRUB_NOTICE (R242): received; the spec gives it no further effect. -/
def execScrubNotice (t n : Nat) (opened : Option (List Byte)) (s : State) : Out :=
  run t s fun s => recvPkt s n 0x31 opened (fun s _ _ => s)

/-- LINKMAP (R250, R251): the sender's live links, as of now. -/
def execLinkmap (t n : Nat) (opened : Option (List Byte)) (s : State) : Out :=
  run t s fun s => recvPkt s n 0x32 opened (fun s h pay =>
    { s with fab := { s.fab with maps := mset s.fab.maps (hSrcPos h) (bits (leNat pay) 0 72, s.now) } })

/-- Live bits by position. -/
def liveBits (s : State) : Nat :=
  packBits ((List.range 72).map (fun q => (b2n (q != s.boot.posId && live s (linkTo s q)), 1)))

/-- LINKMAP_SEND (R251): every 1 ms, or at a change; it stops while the package is headless. -/
def execLinkmapSend (t : Nat) (s : State) : Out :=
  run t s fun s => gate (!s.mbx.headless && s.sess.pkg.isSome && (s.fab.mapDirty || decide (s.fab.mapSent + 1000000 ≤ s.now)))
    (fun s =>
      let body := leBytes 32 (packBits [(liveBits s, 128), (s.tick.count.toNat, 64)])
      let s1 := (((List.range 72).filter (fun q => q != s.boot.posId && live s (linkTo s q))).foldl (fun s q =>
        queueInject s (mkPkt s { op := 0x32, vc := 5, destPos := q, destEid := 1024 * (lpkgOf s q).getD 0 + 344,
                                 srcEid := ownEid s 344 } body)) s)
      { s1 with fab := { s1.fab with mapSent := s.now, mapDirty := false } }) s

/-- A flight that waits for the answer of a candidate holder. -/
def waitsFor (ses handle : Nat) (s : State) (pos : Nat) (f : InFlight) : Bool :=
  match f.kind with
  | .bufAlloc asked _ => asked.getLast? == some pos && bits f.params 0 32 == handle && sessionOf s f.part == ses
  | _ => false

/-- HAYWARD_MSG (R242; 15 R373, 08 R197; the layout is the model's, log 15): a request to hold a board-shared buffer, its
answer, or its release. A headless package handles none. -/
def execHaywardMsg (t n : Nat) (opened : Option (List Byte)) (returnOk : Bool) (s : State) : Out :=
  run t s fun s => recvPkt s n 0x33 opened (fun s h pay =>
    let m := HayMsg.ofBytes pay
    let pos := hSrcPos h
    let from_ := hSrcEid h / 1024
    if !serving s then s
    else
      match m.kind with
      | 0 =>
        (match (List.range 4).find? (fun p => sessionOf s p == m.session && m.session != 0) with
         | none => sendHay s from_ { m with kind := 1, good := false }
         | some p =>
           let a := allocReq s p (packBits [(m.handle, 32), (m.attr, 16), (0, 80), (m.size, 64)])
           match allocHere s a with
           | none => sendHay s from_ { m with kind := 1, good := false }
           | some (s1, b) =>
             sendHay s1 from_ { m with kind := 1, good := true, base := boardBase s.boot.posId b.base, width := b.width })
      | 1 =>
        (match s.mbx.flight.find? (waitsFor m.session m.handle s pos) with
         | none => if m.good then sendHay s from_ { m with kind := 2 } else s
         | some f =>
           if m.good then finish s (· == f) 0 (allocAnswer m.base from_ m.width) returnOk
           else
             match f.kind with
             | .bufAlloc asked _ => askNext s f asked returnOk
             | _ => s)
      | 2 =>
        (match bufOf s m.session m.handle with
         | none => s
         | some (key, b) => freeBuf s key b)
      | _ => s)

/-! ## Congestion (R259, R261) -/

/-- MARK_K_UPDATE (R259): the end of a 10 us window of a link. `idle` says whether more than 5 % of its codewords carried idle
flits outside control slots (log 8). -/
def execMarkKUpdate (t k : Nat) (idle : Bool) (s : State) : Out :=
  run t s fun s =>
    let l := touch s (linkOf s k)
    gate (decide (k < 71) && decide (l.winAt + 10000 ≤ s.now)) (fun s =>
      let K := markK s l
      let busy := l.overK.any (fun e => decide (5000 < e.2))
      let k1 := if busy then max (cfg s 0x1D 4) (K - 32)
                else if 0 < l.winMarked && idle then min (cfg s 0x1E 4) (K + 64) else K
      setLink s k { l with markK := some k1, overK := [], winMarked := 0, winAt := s.now }) s

/-- RATE_AI_PERIOD (R261): the end of an AI_PERIOD of a destination's limiter. -/
def execRateAiPeriod (t l : Nat) (s : State) : Out :=
  run t s fun s =>
    let v := limiterOf s l
    gate (decide (l < 64) && decide (v.aiAt + 1000 * cfg s 0x22 4 ≤ s.now)) (fun s =>
      let w := fillBucket s v
      setLimiter s l { w with rate := if v.echo then v.rate else min (cfg s 0x1F 4) (v.rate + cfg s 0x21 4),
                              echo := false, aiAt := s.now }) s

end Sys2Proof.Machine
end

