-- ==== Sys2Proof/Machine/Security.lean ====
section
/-!
DEFINITION. Machine/Security.lean: link key agreements, the SPDM responder, keys, sealed bales, rotations, the Hasp's alarms and
the test port (19 R437 to R457, 15 Table 15-15).
-/
namespace Sys2Proof.Machine

/-! ## Link key agreement (R453) -/

def setKey (s : State) (k : Nat) (y : LinkKey) : State := setLink s k { linkOf s k with key := y }

/-- This end has the lower position. -/
def lowerEnd (s : State) (k : Nat) : Bool := decide (s.boot.posId < farEnd s k)

/-- The bytes of a message (Table 19-7): what the spec does not lay out is free (log 7). -/
def keyMessage (s : State) (msg : Nat) (y : LinkKey) : List Byte :=
  let n := s.freeCtr
  let nonce := leBytes 48 (Config.keyNonce n).toNat
  let anchor := leBytes 48 (s.fuses.anchor.getD 0)
  match msg with
  | 1 => nonce ++ Config.keyShares n 1 ++ anchor ++ (if y.rotation then leBytes 8 y.flipTick else [])
  | 2 => nonce ++ Config.keyShares n 2 ++ anchor
  | _ => leBytes 96 (Config.choice n 3)

/-- A message goes out on VC5 of its link alone, in fragments of up to 1,024 bytes. -/
def sendKeyMsg (s : State) (k msg : Nat) : State :=
  let y := (linkOf s k).key
  let b := keyMessage s msg y
  let n := (b.length + 1023) / 1024
  let far := farEnd s k
  ((List.range n).foldl (fun s i =>
    enqueue s k (mkPkt s
      { op := 0x30, vc := 5, destPos := far, destEid := 1024 * (lpkgOf s far).getD 0 + 344, srcEid := ownEid s 344,
        operand := packBits [(msg, 4), (i, 8), (b2n (i + 1 == n), 1), (b2n y.rotation, 1)] }
      ((b.drop (1024 * i)).take 1024)) none) s).drawn

/-- A fragment of message `msg` that waits on lane `n` is taken; the last one completes the message. A fragment out of turn
makes the message start anew, and a MSG of no name is dropped with HELLO's row. -/
def recvKeyMsg (s : State) (n msg : Nat) (f : State → Nat → Nat → State) : State :=
  let m := bits (hOperand (((laneHead s n).map (·.hdr)).getD 0)) 0 4
  gate (decide (n < 213) && (m == msg || (msg == 1 && (m == 0 || 3 < m)))) (fun s =>
    recvPkt s n 0x30 none (fun s h _ =>
      let k := n / 3
      let y := (linkOf s k).key
      let o := hOperand h
      if bits o 0 4 != msg then s
      else if bits o 4 8 != y.frags then setKey s k { y with frags := 0 }
      else if bit o 12 then f (setKey s k { y with frags := 0 }) k o
      else setKey s k { y with frags := y.frags + 1 })) s

/-- A peer is refused: the Hasp alarm, and another try 1 s later. -/
def refusePeer (s : State) (k : Nat) : State :=
  let y := (linkOf s k).key
  alarm (setKey s k { y with msg := 0, retryAt := some (s.now + 1000000000), rotation := y.rotation && y.init })

/-- The agreement is complete: at link UP its keys fill epoch 0, at a rotation the free epoch. -/
def fillKeys (s : State) (k : Nat) : State :=
  let y := (linkOf s k).key
  let new := some s.freeCtr
  let done : LinkKey := { y with msg := 0, frags := 0, init := false, retryAt := none }
  if y.current.isNone then restartResync (setKey s.drawn k { done with k0 := new, k1 := none, cur := 0, rotation := false }) k
  else setKey s.drawn k { done with
    k0 := if y.cur == 0 then y.k0 else new, k1 := if y.cur == 0 then new else y.k1, readyAt := some s.now }

/-- The DRBG can make keys, and the link carries packets. -/
def keysReady (s : State) (k : Nat) : Bool := usable s k && !s.keys.drbgFailed

/-- KEY_XCHG_HELLO (R453): link `n`'s initiator sends HELLO, or a fragment of one arrives on lane `n`; `accept` says whether the
peer's chain and anchor pass, and `flip` is the tick that it carries. -/
def execKeyXchgHello (t : Nat) (rx : Bool) (n : Nat) (accept : Bool) (flip : Nat) (s : State) : Out :=
  run t s fun s =>
    if rx then recvKeyMsg s n 1 (fun s k o =>
      let y := (linkOf s k).key
      let rot := bit o 13
      let skip := if rot then y.current.isNone || y.both || (y.rotation && y.init && 1 ≤ y.msg && lowerEnd s k)
                  else lowerEnd s k || y.current.isSome
      if skip then s
      else if !accept then refusePeer s k
      else setKey s k { y with msg := 1, init := false, rotation := rot, flipTick := if rot then flip else 0 })
    else
      let y := (linkOf s n).key
      gate (keysReady s n && y.retryAt.isNone && y.msg == 0 &&
          ((y.current.isNone && lowerEnd s n) || (y.rotation && y.init && !y.both)))
        (fun s => sendKeyMsg (setKey s n { y with msg := 1, init := true }) n 1) s

/-- KEY_XCHG_REPLY (R453): the responder answers, or its answer arrives. -/
def execKeyXchgReply (t : Nat) (rx : Bool) (n : Nat) (accept : Bool) (s : State) : Out :=
  run t s fun s =>
    if rx then recvKeyMsg s n 2 (fun s k _ =>
      let y := (linkOf s k).key
      if !y.init || y.msg != 1 then s
      else if accept then setKey s k { y with msg := 2 } else refusePeer s k)
    else
      let y := (linkOf s n).key
      gate (keysReady s n && !y.init && y.msg == 1) (fun s => sendKeyMsg (setKey s n { y with msg := 2 }) n 2) s

/-- KEY_XCHG_FINISH (R453): the initiator's last message completes the agreement at each end. -/
def execKeyXchgFinish (t : Nat) (rx : Bool) (n : Nat) (accept : Bool) (s : State) : Out :=
  run t s fun s =>
    if rx then recvKeyMsg s n 3 (fun s k _ =>
      let y := (linkOf s k).key
      if y.init || y.msg != 2 then s
      else if accept then fillKeys s k else refusePeer s k)
    else
      let y := (linkOf s n).key
      gate (keysReady s n && y.init && y.msg == 2) (fun s => fillKeys (sendKeyMsg s n 3) n) s

/-- KEY_XCHG_RETRY (R453): 1 s after a refusal the agreement may be tried again. -/
def execKeyXchgRetry (t k : Nat) (s : State) : Out :=
  run t s fun s =>
    let y := (linkOf s k).key
    gate (match y.retryAt with
      | none => false
      | some a => decide (a ≤ s.now)) (fun s => setKey s k { y with retryAt := none }) s

/-! ## The SPDM responder (R440 to R444, log 36) -/

def say (s : State) (path : Nat) (a : SpdmAnswer) : State := s.emit (.spdm path a)

/-- A function's DOE answers. -/
def onDoe (t path : Nat) (s : State) (f : State → State) : Out :=
  run t s fun s => gate (s.host.linkUp && decide (path < 5)) f s

/-- SPDM_GET_VERSION. -/
def execSpdmGetVersion (t path : Nat) (s : State) : Out := onDoe t path s (fun s => say s path .version)

/-- SPDM_GET_CAPABILITIES. -/
def execSpdmGetCapabilities (t path : Nat) (s : State) : Out := onDoe t path s (fun s => say s path .capabilities)

/-- SPDM_NEGOTIATE_ALGORITHMS. -/
def execSpdmNegotiateAlgorithms (t path : Nat) (s : State) : Out := onDoe t path s (fun s => say s path .algorithms)

/-- SPDM_GET_DIGESTS. -/
def execSpdmGetDigests (t path : Nat) (s : State) : Out := onDoe t path s (fun s => say s path .digests)

/-- SPDM_GET_CERTIFICATE (R442): slot 0 only. -/
def execSpdmGetCertificate (t path slot : Nat) (s : State) : Out :=
  onDoe t path s (fun s => say s path (if slot == 0 then .certificate else .error .other))

/-- SPDM_CHALLENGE. -/
def execSpdmChallenge (t path slot : Nat) (s : State) : Out :=
  onDoe t path s (fun s => say s path (if slot == 0 then .challengeAuth else .error .other))

/-- Contents of block 7: security version, running slot, ownership anchor. -/
def block7 (s : State) : List Nat := [s.fuses.secCounter, s.fw.running, s.fuses.anchor.getD 0]

/-- The measurement blocks that a path sees (Table 19-3): a tenant blocks 8 and 9 of its own partition only. -/
def measureBlocks (s : State) (path : Nat) : List (Nat × List Nat) :=
  let ps := if path == 0 then List.range 4 else [path - 1]
  (span 1 6).map (fun i => (i, [(Config.imageHash s.fw.runningVersion i).toNat])) ++ [(7, block7 s)] ++
  ps.map (fun p => (8, [sessionOf s p, partMask (sessionParts s p), (mget {} s.place.sessions (sessionOf s p)).mode,
    b2n s.keys.linkEnc])) ++
  ps.map (fun p => (9, [(partOf s p).bind.getD 0]))

/-- The package measurement (R443): the SHA-384 of blocks 1 to 7 in index order. -/
def packageMeasurement (s : State) : Nat :=
  (Config.sha384 ((span 1 6).flatMap (fun i => leBytes 48 (Config.imageHash s.fw.runningVersion i).toNat) ++
    (block7 s).flatMap (leBytes 48))).toNat

/-- SPDM_GET_MEASUREMENTS (R443, R444): every block, or one by its index. All of them asked for with a signature add block
0xF0, and within a live session such a response attests it. -/
def execSpdmGetMeasurements (t path : Nat) (index : Option Nat) (signed inSession : Bool) (s : State) : Out :=
  onDoe t path s (fun s =>
    let v := spdmOf s path
    if inSession && !v.held then say s path (.error .other)
    else
      let l := measureBlocks s path
      match index with
      | some i => say s path (.measurements (l.filter (fun e => e.1 == i)) signed)
      | none =>
        let s1 := if signed && inSession && v.live then setSpdm s path { v with attested := true } else s
        say s1.drawn path (.measurements (if signed then l ++ [(0xF0, [Config.choice s.freeCtr 0xF0])] else l) signed))

/-- SPDM_KEM_OFFER (R441): answered by KEM_ACCEPT; the next KEY_EXCHANGE must carry the digest of both. -/
def execSpdmKemOffer (t path ek : Nat) (s : State) : Out :=
  onDoe t path s (fun s =>
    if s.keys.drbgFailed then say s path (.error .other)
    else
      let ct := (Config.kemCipher s.freeCtr ek).toNat
      let d := (Config.sha384 (leBytes 1568 ek ++ leBytes 1568 ct)).toNat
      say (setSpdm s.drawn path { spdmOf s path with offer := some d }) path (.kemAccept ct))

/-- SPDM_KEY_EXCHANGE (R440, R441, R460): Busy while a session is held or the partition is WINNOWING, InvalidRequest without a
matching offer; any KEY_EXCHANGE uses the offer up. -/
def execSpdmKeyExchange (t path digest : Nat) (s : State) : Out :=
  onDoe t path s (fun s =>
    let v := spdmOf s path
    let used := setSpdm s path { v with offer := none }
    if v.held || (1 ≤ path && pstate s (path - 1) == .winnowing) then say used path (.error .busy)
    else if v.offer != some digest then say used path (.error .invalidRequest)
    else if s.keys.drbgFailed then say used path (.error .other)
    else say (setSpdm s path { held := true }) path .keyExchangeRsp)

/-- SPDM_FINISH (R437, R438, R457): the requester's credential hash equals the anchor, or the partition's binding, and its
signature passes: the credential is live. Else the session ends with the Hasp alarm. -/
def execSpdmFinish (t path cred : Nat) (sigOk : Bool) (s : State) : Out :=
  onDoe t path s (fun s =>
    let v := spdmOf s path
    let want := if path == 0 then s.fuses.anchor else (partOf s (path - 1)).bind
    if !v.held || v.live then say s path (.error .other)
    else if sigOk && want == some cred then say (setSpdm s path { v with live := true }) path .finishRsp
    else say (alarm (endSpdm s path)) path (.error .other))

/-- SPDM_KEY_UPDATE (R444): the session's keys change, and the attested state stays. -/
def execSpdmKeyUpdate (t path : Nat) (s : State) : Out :=
  onDoe t path s (fun s =>
    let v := spdmOf s path
    if v.live then say (setSpdm s path { v with epoch := v.epoch + 1 }) path .keyUpdateAck else say s path (.error .other))

/-- SPDM_HEARTBEAT. -/
def execSpdmHeartbeat (t path : Nat) (s : State) : Out :=
  onDoe t path s (fun s => say s path (if (spdmOf s path).live then .heartbeatAck else .error .other))

/-- SPDM_END_SESSION (R437, R444). -/
def execSpdmEndSession (t path : Nat) (s : State) : Out :=
  onDoe t path s (fun s => if (spdmOf s path).held then say (endSpdm s path) path .endSessionAck else say s path (.error .other))

/-- IDE_KM_KEY_PROG (12 R309): within the tenant session of PF1 to PF4, a stream's keys arrive with its address association
blocks, at most two, and the stream is Secure. -/
def execIdeKmKeyProg (t path stream : Nat) (assoc : List (Nat × Nat)) (s : State) : Out :=
  onDoe t path s (fun s =>
    if path == 0 || 2 ≤ stream || 2 < assoc.length then say s path (.error .unsupportedRequest)
    else if (spdmOf s path).live then
      say (setIde s path stream { secure := true, keySet := true, failed := false, assoc := assoc }) path .keyProgAck
    else say s path (.error .other))

/-! ## Credentials (R438) -/

/-- OWNER_CLAIM (R438). -/
def execOwnerClaim (t : Nat) (a : MbxArgs) (s : State) : Out :=
  mbxCmd { opcode := 0x0800, rights := 1, pkg := .u, partUse := .pkg, lenOk := (· == 48) } anyReq
    (fun r s => { denied := r.mb != 0, wrong := s.fuses.anchor.isSome })
    (fun r s =>
      let v := leNat r.payload
      ({ s with fuses := { s.fuses with anchor := some v } }.emit (.fuseBurn 0 v), ok)) t a s

/-- TENANT_BIND (R438): every partition of the session is bound. -/
def execTenantBind (t : Nat) (a : MbxArgs) (s : State) : Out :=
  mbxCmd { opcode := 0x0801, rights := 1, pkg := .uc, partUse := .one, parts := some [.assigned], lenOk := (· == 48) } anyReq
    (fun r s => { wrong := (partOf s r.part).bind.isSome })
    (fun r s => ((sessionParts s r.part).foldl (fun s q => { s with sess := { s.sess with
        parts := mset s.sess.parts q { partOf s q with bind := some (leNat r.payload) } } }) s, ok)) t a s

/-! ## Model keys and sealed bales (R446 to R449) -/

/-- The slot of a KEY_ID in a partition. -/
def slotOfKey (s : State) (p id : Nat) : Option Nat := ((modelSlots s p).find? (fun e => e.2.1 == id)).map (·.1)

/-- The slot that a released key takes: its own, or the first that is free. -/
def slotFor (s : State) (p id : Nat) : Option Nat :=
  match slotOfKey s p id with
  | some k => some k
  | none => (span (4 * p) 4).find? (fun k => (mfind s.keys.model k).isNone)

/-- The wrapped message's policy allows this package (R447). -/
def policyOk (s : State) (payload : List Byte) : Bool :=
  let n := (payload.length - 64) / 48
  n == 0 || (List.range n).any (fun k => leNat ((payload.drop (64 + 48 * k)).take 48) == packageMeasurement s)

/-- MODEL_KEY_RELEASE (R446, R447): `key` is the unwrapped key, and `tagOk` says whether its tag checks. -/
def execModelKeyRelease (t : Nat) (a : MbxArgs) (key : Nat) (tagOk : Bool) (s : State) : Out :=
  mbxCmd { opcode := 0x0802, rights := 2, pkg := .c, partUse := .one, parts := some [.assigned, .running],
           lenOk := fun n => 64 ≤ n && n ≤ 4096 && (n - 64) % 48 == 0 } anyReq
    (fun r _ => { bad := leNat (r.payload.take 4) == 0 })
    (fun r s =>
      let id := leNat (r.payload.take 4)
      let v := spdmOf s (r.part + 1)
      if !(v.live && v.attested && tagOk && policyOk s r.payload) then (s, .done 0x60 [])
      else
        match slotFor s r.part id with
        | none => (s, .done 0x31 [])
        | some k => ({ s with keys := { s.keys with model := mset s.keys.model k (id, key % 2 ^ 256) } }, ok)) t a s

/-- BALE_LOAD (R448): the header's fields are checked, and the load goes on in the background. -/
def execBaleLoad (t : Nat) (a : MbxArgs) (s : State) : Out :=
  mbxCmd { opcode := 0x0803, rights := 2, pkg := .c, partUse := .one, parts := some [.assigned, .running],
           lenOk := fun _ => true } anyReq
    (fun r s =>
      let h := leNat (r.payload.take 64)
      let chunks := bits h 32 32
      let last := bits h 64 32
      let plain := bits h 160 64
      let buf := bufOf s (sessionOf s r.part) (r.f 0 32)
      { bad := r.ploc != 2 || r.len < 64 || chunks == 0 || last == 0 || 65536 < last ||
               plain != 65536 * (chunks - 1) + last || r.len != 64 + plain + 16 * chunks || buf.isNone,
        exceeds := (match buf with
          | none => false
          | some (_, b) => decide (b.size < r.f 64 64 + plain)),
        wrong := (slotOfKey s r.part (bits h 0 32)).isNone })
    (fun r s =>
      match bufOf s (sessionOf s r.part) (r.f 0 32) with
      | none => (s, .done 0x12 [])
      | some (_, b) => (s, .prog (.baleLoad (b.base + r.f 64 64) (bits (leNat (r.payload.take 64)) 160 64)))) t a s

/-- BALE_LOAD_COMPLETE (R449): the plaintext has arrived, or a tag failed and the whole range holds zeros. -/
def execBaleLoadComplete (t m seq : Nat) (plain : Option (List Byte)) (mi : MemIn) (returnOk : Bool) (s : State) : Out :=
  run t s fun s =>
    match s.mbx.flight.find? (fun f => f.mb == m && f.seq == seq) with
    | none => s
    | some f =>
      match f.kind with
      | .baleLoad dst len => gate (serving s && rangeReady s dst len) (fun s =>
          match plain with
          | some bs => finish (maWrite s 2 dst (fit len bs) mi).1 (· == f) 0 [] returnOk
          | none => finish (maWrite s 2 dst (List.replicate len 0) mi).1 (· == f) 0x60 [] returnOk) s
      | _ => s

/-! ## The encryption mode and rotations (R450 to R455) -/

/-- LINK_ENC_SET (R455): commits at step 5. -/
def execLinkEncSet (t : Nat) (a : MbxArgs) (s : State) : Out :=
  mbxCmd { opcode := 0x0804, rights := 1, pkg := .uc, partUse := .pkg, resp := 8 } anyReq
    (fun r s => tickChk s r) (fun r s => stageAns s (r.f 0 64) (.linkEnc (r.f 64 1 == 1))) t a s

/-- ENC_GRACE_END (R455): at the second boundary after the commit, receivers judge again. -/
def execEncGraceEnd (t : Nat) (s : State) : Out :=
  run t s fun s => gate (boundaryDue s && s.keys.graceTicks == 1) graceStep s

/-- KEY_ROTATE's form. -/
def rotateCmd (parts : Option (List PState)) : Cmd :=
  { opcode := 0x0805, rights := 3, pkg := .uc, partUse := .free, parts := parts, resp := 8 }

/-- CELLAR_KEY_ROTATE (R450): TARGET 0 with its partition; TARGET 2 and 3 are refused here. A partition without a Cellar has
no key to rotate (log 37). -/
def execCellarKeyRotate (t : Nat) (a : MbxArgs) (s : State) : Out :=
  mbxCmd (rotateCmd (some [.assigned, .running])) (fun r => r.f 64 2 != 1)
    (fun r s => { bad := tickBad s (r.f 0 64) || 2 ≤ r.f 64 2 || 4 ≤ r.part,
                  wrong := tickWrong s (r.f 0 64) || !(cellarOf s r.part).lent })
    (fun r s =>
      if (cellarOf s r.part).both then (s, .done 0x30 [])
      else if s.keys.drbgFailed then (s, .done 0x50 [])
      else stageAns s (r.f 0 64) (.cellarKey r.part)) t a s

/-- LINK_KEY_ROTATE (R454): TARGET 1, the operator's; every live link starts an agreement with the rotation mark. -/
def execLinkKeyRotate (t : Nat) (a : MbxArgs) (s : State) : Out :=
  mbxCmd (rotateCmd none) (fun r => r.f 64 2 == 1)
    (fun r s => { bad := tickBad s (r.f 0 64) || (!r.tenant && r.part != 4), denied := r.tenant,
                  wrong := tickWrong s (r.f 0 64) })
    (fun r s =>
      if (List.range 71).any (fun k => (linkOf s k).key.both || (linkOf s k).key.rotation) then (s, .done 0x30 [])
      else if s.keys.drbgFailed then (s, .done 0x50 [])
      else
        match stageAns s (r.f 0 64) .linkKey with
        | (s1, .done 0 bs) =>
          ((List.range 71).foldl (fun s k =>
            if live s k then setLink s k (orderRotation (r.f 0 64) (linkOf s k)) else s) s1, .done 0 bs)
        | x => x) t a s

/-- CELLAR_REKEY_WALK (R451): the walk reaches its next sector under the old epoch that is not dirty in the buffer, fetched and
found `good` or not; with none left it begins again until evictions have taken the last, and the walk ends. -/
def execCellarRekeyWalk (t p : Nat) (good : Bool) (s : State) : Out :=
  run t s fun s =>
    let c := cellarOf s p
    match c.walk with
    | none => s
    | some pos => gate (decide (p < 4) && c.both && canMaster s (p + 1)) (fun s =>
        let next := c.table.find? (fun e => decide (pos ≤ e.1) && underOld c e && !c.buf.any (fun b => b.sector == e.1 && b.dirty))
        match next with
        | some (g, e) =>
          let c1 := { c with walk := some (g + 1) }
          if good then
            ((setCellar s p { c1 with table := mset c.table g { e with epoch := c.cur, count := 0 } }).emit
              (.cellarRead p g)).emit (.cellarWrite p g c.cur 0 e.pmap)
          else (setCellar s p { c1 with table := mset c.table g { e with poisoned := true } }).emit (.cellarRead p g)
        | none =>
          if oldSectors c == 0 then setCellar s p { c with walk := none, destroyIn := some 2 }
          else setCellar s p { c with walk := some 0 }) s

/-- CELLAR_OLD_KEY_DESTROY (R452). -/
def execCellarOldKeyDestroy (t p : Nat) (s : State) : Out :=
  run t s fun s => gate (boundaryDue s && decide (p < 4) && (cellarOf s p).destroyIn == some 1) (fun s => dropCellarKey s p) s

/-- LINK_OLD_KEY_DESTROY (R454). -/
def execLinkOldKeyDestroy (t k : Nat) (s : State) : Out :=
  run t s fun s => gate (boundaryDue s && decide (k < 71) && (linkOf s k).key.destroyIn == some 1) (fun s => dropLinkKey s k) s

/-! ## The key record and the Hasp (R456, R457) -/

/-- A partition's 48 bits of the key record. -/
def keyFields (s : State) (p : Nat) : Nat :=
  let v := spdmOf s (p + 1)
  let c := cellarOf s p
  packBits [(b2n (partOf s p).bind.isSome, 1), (b2n v.live, 1), (b2n v.attested, 1), ((modelSlots s p).length, 3),
    (b2n (c.k0.isSome || c.k1.isSome), 1), (c.cur, 1), (b2n c.both, 1), (b2n (ideOf s (p + 1) 0).secure, 1),
    (b2n (ideOf s (p + 1) 1).secure, 1), (0, 5), (oldSectors c, 32)]

/-- The key record (Table 19-8), as a sender receives it. -/
def keyRecord (s : State) (r : Req) : Nat :=
  let all := fun (v : Nat) => if r.tenant then 0 else v
  let old := (List.range 71).any (fun k => (linkOf s k).key.destroyIn.isSome)
  let noKey := ((List.range 71).filter (fun k => usable s k && (linkOf s k).key.current.isNone)).length
  packBits ([(b2n s.keys.linkEnc, 1), (all (b2n old), 1), (all noKey, 7), (0, 7), (all s.keys.rotations, 16),
    (all s.keys.alarms, 32)] ++
    (List.range 4).map (fun p => (if r.tenant && p != r.part then 0 else keyFields s p, 48)))

/-- KEY_STATUS (R456). -/
def execKeyStatus (t : Nat) (a : MbxArgs) (s : State) : Out :=
  mbxCmd { opcode := 0x0806, rights := 3, pkg := .any, partUse := .pkg, resp := 32 } anyReq noChk
    (fun r s => (s, .done 0 (leBytes 32 (keyRecord s r)))) t a s

/-- DRBG_HEALTH_FAIL (R457). -/
def execDrbgHealthFail (t : Nat) (s : State) : Out :=
  run t s fun s => alarm { s with keys := { s.keys with drbgFailed := true } }

/-- TAP_EXTEST (R457): honoured only while every partition is FREE; else BYPASS, and the Hasp alarm. -/
def execTapExtest (t : Nat) (on : Bool) (s : State) : Out :=
  run t s fun s =>
    if !on then { s with boot := { s.boot with extest := false } }
    else if (List.range 4).all (fun p => pstate s p == .free) then { s with boot := { s.boot with extest := true } }
    else alarm { s with boot := { s.boot with extest := false } }

end Sys2Proof.Machine
end

