-- ==== Sys2Proof/Machine/Sequencer.lean ====
section
/-!
DEFINITION. Machine/Sequencer.lean: what a sequencer core does to its tile: CSR accesses, sheaves, board loads and stores
(04 R88 to R96, R99, R114; 03 R83, R530).
-/
namespace Sys2Proof.Machine

/-- The staged descriptor with its last eight bytes. -/
def stagedDesc (k : Core) (d7 : Nat) : Nat :=
  packBits ((List.range 7).map (fun n => (mget 0 k.stage n, 64)) ++ [(d7, 64)])

/-- WQ_PUSH (R95, R96): a write of WQ_D7. -/
def execWqPush (t c d7 : Nat) (s : State) : Out :=
  run t s fun s => gate (coreReady s c) (fun s =>
    let k := coreOf s c
    pushDesc (setCore s c { k with stage := mset k.stage 7 (d7 % 2 ^ 64) }) c (stagedDesc k d7)) s

/-- WQ_PUSHADDR (R95, R96, R117): the 64 bytes at a scratchpad offset are pushed. -/
def execWqPushaddr (t c v : Nat) (si : SpadIn) (s : State) : Out :=
  run t s fun s => gate (coreReady s c) (fun s =>
    let off := v % 2 ^ 22
    if 0x27FFC0 < off then coreTrap s c 24 3
    else if off % 8 != 0 then coreTrap s c 24 4
    else
      let s1 := eccCount s (tileOfCore c) si
      if badIn si off 64 then coreTrap s1 c 24 10
      else pushDesc s1 c (leNat (spadRead s1 (tileOfCore c) off 64))) s

/-- WQ_PUSH_UNSTALL (R95): the held push completes once an entry is free. -/
def execWqPushUnstall (t c : Nat) (s : State) : Out :=
  run t s fun s =>
    match (coreOf s c).stall with
    | some (.push d) => gate (coreLive s c && (coreOf s c).queue.length < 32)
        (fun s => enqueueDesc (setCore s c { coreOf s c with stall := none }) c d) s
    | _ => s

/-- WQ_RESUME (R99): HALTED clears, and with it the interrupt level; issue goes on after the failed descriptor. -/
def execWqResume (t c : Nat) (s : State) : Out :=
  run t s fun s => gate (coreReady s c) (fun s => setCore s c { coreOf s c with halted := false }) s

/-- WQ_FLUSH (R97): the descriptors not yet issued are discarded. -/
def execWqFlush (t c : Nat) (s : State) : Out :=
  run t s fun s => gate (coreReady s c) (fun s => sheafSettle (setCore s c { coreOf s c with queue := [] }) (partOfCore c)) s

/-- CC_VAL_WRITE (R114). -/
def execCcValWrite (t c v : Nat) (s : State) : Out :=
  run t s fun s => gate (coreReady s c) (fun s => ccSet s (partOfCore c) (coreOf s c).ccSel v) s

/-- CC_ADD_WRITE (R114, Table 4-3): CSRRW returns the value before the add. -/
def execCcAddWrite (t c v : Nat) (s : State) : Out :=
  run t s fun s => gate (coreReady s c) (fun s =>
    let n := (coreOf s c).ccSel
    (ccAdd s (partOfCore c) n v).emit (.coreRead c (ccGet s (partOfCore c) n))) s

/-- VSEED_WRITE (03 R530): the write stalls its core. -/
def execVseedWrite (t c v : Nat) (s : State) : Out :=
  run t s fun s => gate (coreReady s c) (fun s => setCore s c { coreOf s c with stall := some (.vseed (v % 2 ^ 64)) }) s

/-- No vector descriptor of the core's own queue is queued or under way; the stalled core can have pushed none since. -/
def vectorsEnded (s : State) (c : Nat) : Bool :=
  !(coreOf s c).queue.any (fun d => dType d == 2) && !(tileOf s (tileOfCore c)).vector.jobs.any (fun j => j.core == c)

/-- VSEED_APPLY (03 R83, R530): every lane of the tile takes its state from the seed. -/
def execVseedApply (t c : Nat) (s : State) : Out :=
  run t s fun s =>
    match (coreOf s c).stall with
    | some (.vseed v) => gate (coreLive s c && vectorsEnded s c) (fun s =>
        let i := tileOfCore c
        setTile (setCore s c { coreOf s c with stall := none }) i
          { tileOf s i with vseed := v, gens := some (seedGens v i) }) s
    | _ => s

/-- SHEAF_DONE_WRITE (R93): counts once per release, and not before the partition's first. -/
def execSheafDoneWrite (t c v : Nat) (s : State) : Out :=
  run t s fun s => gate (coreReady s c && bit v 0 && (mget {} s.tick.rel (partOfCore c)).seq != 0)
    (fun s => sheafSettle (setCore s c { coreOf s c with done := true }) (partOfCore c)) s

/-- SHEAF_NEXT_READ (R92): the release number at once where a release has come since the last read; else the core stalls. -/
def execSheafNextRead (t c : Nat) (s : State) : Out :=
  run t s fun s => gate (coreReady s c) (fun s =>
    let k := coreOf s c
    if k.nextRead then setCore s c { k with stall := some .sheafNext }
    else (setCore s c { k with nextRead := true }).emit (.coreRead c (tileOf s (tileOfCore c)).sheafSeq)) s

/-! ## The board address space (R89, R90) -/

/-- A naturally aligned access of 1, 2, 4 or 8 bytes in the board range. -/
def boardForm (b n : Nat) : Bool := [1, 2, 4, 8].contains n && b % n == 0 && b < 2 ^ 43

/-- Address of board address `b` in a sequencer's map (Table 4-1). -/
def boardAddr (b : Nat) : Nat := 0x100000000000 + b

/-- BOARD_LOAD (R89, 08 R191, R200): served in this package, or by a READ_REQ on VC3 for which the core waits; refused, it
faults with mcause 5. -/
def execBoardLoad (t c b n : Nat) (mi : MemIn) (s : State) : Out :=
  run t s fun s => gate (coreReady s c && boardForm b n) (fun s =>
    let i := tileOfCore c
    match spaceTgt s (partOfCore c) none false 2 0 b n with
    | .mem ma => gate (rangeReady s ma n) (fun s =>
        let (s1, bs, bad) := maRead s (sideOfTile i) ma n mi
        if bad.isEmpty then s1.emit (.coreRead c (leNat bs)) else coreTrap s1 c 5 (boardAddr b)) s
    | .far l ep vc addr =>
      match sendReq s i (partOfCore c) .read l ep { op := 2, vc := vc, addr := addr, operand := n } [] n
          (.load c (boardAddr b) n) (fabTimeout s (partOfCore c)) with
      | none => s
      | some (s1, q) => setCore s1 c { coreOf s1 c with stall := some (.boardLoad q) }
    | _ => coreTrap s c 5 (boardAddr b)) s

/-- BOARD_STORE (R90, 08 R199): posted; refused in this package, it faults with mcause 7. -/
def execBoardStore (t c b n v : Nat) (mi : MemIn) (s : State) : Out :=
  run t s fun s => gate (coreReady s c && boardForm b n) (fun s =>
    let i := tileOfCore c
    match spaceTgt s (partOfCore c) none true 2 0 b n with
    | .mem ma => gate (rangeReady s ma n) (fun s =>
        let (s1, landed) := landMem s (sideOfTile i) ma (leBytes n v) none mi
        if landed then s1 else coreTrap s1 c 7 (boardAddr b)) s
    | .far l ep vc addr =>
      match sendReq s i (partOfCore c) .write l ep { op := 1, vc := vc, addr := addr, operand := n } (leBytes n v) n
          (.store c (boardAddr b)) (fabTimeout s (partOfCore c)) with
      | none => s
      | some (s1, q) => setCore s1 c { coreOf s1 c with stores := (coreOf s1 c).stores ++ [q] }
    | _ => coreTrap s c 7 (boardAddr b)) s

/-- SEQ_FENCE_COMPLETE (R90): a FENCE completes once every earlier board store of the core is acknowledged. -/
def execSeqFenceComplete (t c : Nat) (s : State) : Out :=
  run t s fun s => gate (coreReady s c && (coreOf s c).stores.isEmpty) (fun s => s.emit (.fenceDone c)) s

/-! ## Descriptors that fail after they were started, and the watchdog's view of a queue (R94, R99) -/

/-- DESCRIPTOR_FAIL (R99): a descriptor with a failure of its own requests ends without signalling. -/
def execDescriptorFail (t c u index : Nat) (s : State) : Out :=
  run t s fun s =>
    match jobOf s c u index with
    | none => s
    | some j =>
      match j.fail with
      | none => s
      | some cause => gate (coreLive s c) (fun s => failJob s u j cause) s

end Sys2Proof.Machine
end

