-- ==== Sys2Proof/Machine/Stacker.lean ====
section
/-!
DEFINITION. Machine/Stacker.lean: what placement does at a boundary: heat values, the Stacker's choice of migrations and Cellar
exchanges, and the commits of step 6 (08 R201 to R212).
-/
namespace Sys2Proof.Machine

/-! ## Heat values (R201) -/

/-- One heat value after a frame with `c` line operations: 24 bits, saturating. -/
def heatNext (h c : Nat) : Nat := min 0xFFFFFF (h - h / 8 + c)

/-- The heat values of step 2. -/
def updateHeat (s : State) : State :=
  { s with place := { s.place with heat := mmap s.place.heat (fun _ (h : HeatVal) =>
      { a := heatNext h.a h.ca, b := heatNext h.b h.cb, f := heatNext h.f h.cf }) } }

/-- H of R202. -/
def heatSum (h : HeatVal) : Nat := h.a + h.b + h.f

def frameHeat (s : State) (k f : Nat) : HeatVal := mget {} s.place.heat (32768 * k + f)
def slotHeat (s : State) (p n : Nat) : HeatVal := mget {} s.place.heat (slotHeatKey p n)

/-! ## Migrations (R202, R203) -/

/-- Cost of a frame with heat `h` in stack `k` (R202). -/
def stackCost (s : State) (h : HeatVal) (k : Nat) : Nat :=
  3 * (if k < 6 then h.b else h.a) + (if stackAtLeast s k 850 then 2 * heatSum h else 0)

/-- The session moves pages in the frame that starts now (Table 8-5). -/
def moving (s : State) (ses : Nat) : Bool :=
  let p : Placement := mget {} s.place.sessions ses
  ses != 0 && adaptive s ses && !(p.mode == 1 && p.left == 0)

/-- A migration candidate: buffer, page, destination, gain, and the page's memory address. -/
structure MoveCand where
  key : Nat
  page : Nat
  dst : Nat
  gain : Nat
  addr : Nat
  deriving DecidableEq, Repr

/-- The candidate that a page is, if any: its gain is MIG_MIN_GAIN or more, and of equal least costs one is taken (log 7). -/
def moveCand (s : State) (key : Nat) (b : Buf) (page : Nat) : Option MoveCand :=
  match b.pages[page]? with
  | some (.frame k f) =>
    let h := frameHeat s k f
    let busy := s.place.moves.any (fun m => m.srcStack == k && m.srcFrame == f)
    let ks := (poolStacks s b.session).filter (fun d => d != k && candidateStack s b page d && !stackAtLeast s d 920 && !dieAway s d)
    let least := (ks.map (stackCost s h)).foldl min (stackCost s h (ks.headD k))
    match choose s page (ks.filter (fun d => stackCost s h d == least)) with
    | none => none
    | some d =>
      if busy || (stackOf s k).failed || dieAway s k || stackCost s h k < least + cfg s 0x61 b.owner then none
      else some { key := key, page := page, dst := d, gain := stackCost s h k - least, addr := b.base + frameBytes * page }
  | _ => none

/-- A buffer whose pages the Stacker may move. -/
def stackerMay (s : State) (b : Buf) : Bool := bit b.attr 4 && b.holder == ownLpkg s && moving s b.session

/-- Candidates in decreasing gain, ties by lower memory address (R203). -/
def insertCand (c : MoveCand) : List MoveCand → List MoveCand
  | [] => [c]
  | x :: r => if x.gain < c.gain || (x.gain == c.gain && c.addr < x.addr) then c :: x :: r else x :: insertCand c r

def moveCands (s : State) : List MoveCand :=
  (s.place.bufs.flatMap (fun e => if stackerMay s e.2 then (List.range e.2.pages.length).filterMap (moveCand s e.1 e.2) else [])).foldr
    insertCand []

/-- A candidate starts where both stacks have its budget left and the destination still a free frame (R203). -/
def tryMove (s : State) (c : MoveCand) : State :=
  match mfind s.place.bufs c.key with
  | none => s
  | some b =>
    match b.pages[c.page]? with
    | some (.frame k _) =>
      if budgetLeft s b.session k c.dst && candidateStack s b c.page c.dst then startMove s c.key b c.page c.dst none none else s
    | _ => s

/-! ## Cellar exchanges (R204) -/

/-- The Cellar pages of a partition that may move: heat, buffer, page, slot. -/
def cellarPages (s : State) (p : Nat) : List (Nat × Nat × Nat × Nat) :=
  s.place.bufs.flatMap (fun e =>
    if stackerMay s e.2 && e.2.owner == p then
      e.2.pages.zipIdx.filterMap (fun (x : PageAt × Nat) => match x.1 with
        | .slot n => some (heatSum (slotHeat s p n), e.1, x.2, n)
        | .frame _ _ => none)
    else [])

/-- Its width-1 stack pages that may go to the Cellar: heat, buffer, page, stack, frame. -/
def stackPages (s : State) (p : Nat) : List (Nat × Nat × Nat × Nat × Nat) :=
  s.place.bufs.flatMap (fun e =>
    if stackerMay s e.2 && e.2.owner == p && e.2.width == 1 && !bit e.2.attr 1 && !bit e.2.attr 2 then
      e.2.pages.zipIdx.filterMap (fun (x : PageAt × Nat) => match x.1 with
        | .frame k f =>
          if s.place.moves.any (fun m => m.srcStack == k && m.srcFrame == f) || (stackOf s k).failed || dieAway s k then none
          else some (heatSum (frameHeat s k f), e.1, x.2, k, f)
        | .slot _ => none)
    else [])

/-- The hottest Cellar page and the coldest stack page, the first among equals. -/
def hottestPage (l : List (Nat × Nat × Nat × Nat)) : Option (Nat × Nat × Nat × Nat) :=
  l.foldl (fun m x => match m with
    | none => some x
    | some y => if y.1 < x.1 then some x else some y) none

def coldestPage (l : List (Nat × Nat × Nat × Nat × Nat)) : Option (Nat × Nat × Nat × Nat × Nat) :=
  l.foldl (fun m x => match m with
    | none => some x
    | some y => if x.1 < y.1 then some x else some y) none

/-- Line `l` of a slot as the Cellar holds it: the buffered sector, else the sealed one, else zeros; and whether it is poisoned. -/
def slotLine (c : Cellar) (n l : Nat) : List Byte × Bool :=
  let g := 512 * n + l / 32
  let b := (c.buf.find? (fun b => b.sector == g)).getD (openSector c g true)
  ((b.data.drop (128 * (l % 32))).take 128, bit b.poison (l % 32))

/-- Sector `j` of a frame: its 32 lines, and the mask of those that read as poisoned or uncorrectable. -/
def frameSector (s : State) (k f j : Nat) : List Byte × Nat :=
  let ls := span (frameLines * f + 32 * j) 32
  let st := stackOf s k
  (ls.flatMap (lineBytes s k), packBits (ls.map (fun l => (b2n (st.poisoned.contains l || st.bad.contains l), 1))))

/-- The slot's 16,384 lines are written to a frame. -/
def slotToFrame (c : Cellar) (n k f : Nat) (s : State) : State :=
  (List.range frameLines).foldl (fun s l =>
    match slotLine c n l with
    | (bs, false) => putLine s k (frameLines * f + l) bs
    | (_, true) => poisonLine s k (frameLines * f + l)) s

/-- The frame's 512 sectors are sealed into a slot. -/
def frameToSlot (s0 : State) (p n k f : Nat) (s : State) : State :=
  (List.range 512).foldl (fun s j =>
    match frameSector s0 k f j with
    | (bs, m) => sealSector s p (512 * n + j) bs m) s

/-- The pages of two buffers change places. -/
def swapPages (s : State) (key1 page1 : Nat) (at1 : PageAt) (key2 page2 : Nat) (at2 : PageAt) : State :=
  let put := fun (m : SMap Buf) (k i : Nat) (a : PageAt) =>
    m.map (fun e => if e.1 == k then (e.1, { e.2 with pages := lset e.2.pages i a }) else e)
  { s with place := { s.place with bufs := put (put s.place.bufs key1 page1 at1) key2 page2 at2 } }

/-- One exchange: the two pages' contents and places, their heat with them. -/
def exchange (s : State) (p : Nat) (hot : Nat × Nat × Nat × Nat) (cold : Nat × Nat × Nat × Nat × Nat) : State :=
  match hot, cold with
  | (_, key1, page1, n), (_, key2, page2, k, f) =>
    let c := cellarOf s p
    let s1 := (span (512 * n) 512).foldl (fun s g => if (mfind c.table g).isSome then s.emit (.cellarRead p g) else s) s
    let s2 := setCellar s1 p { c with buf := c.buf.filter (fun b => b.sector / 512 != n) }
    let s3 := slotToFrame c n k f (frameToSlot s p n k f s2)
    let s4 := swapPages s3 key1 page1 (.frame k f) key2 page2 (.slot n)
    let h1 := slotHeat s p n
    let h2 := frameHeat s k f
    let s5 := { s4 with place := { s4.place with heat := mset (mset s4.place.heat (32768 * k + f) h1) (slotHeatKey p n) h2 } }
    updSession s5 (sessionOf s p) (fun r => { r with cellarMoves := satAdd max32 r.cellarMoves 1 })

/-- Exchanges of a partition, at most `n` (R204): the Cellar page's heat exceeds the frame's by MIG_MIN_GAIN, and the pool has a
free frame for the exchange (Coincidences). -/
def exchanges (p : Nat) : Nat → State → State
  | 0, s => s
  | n + 1, s =>
    match hottestPage (cellarPages s p), coldestPage (stackPages s p) with
    | some h, some c =>
      if c.1 < h.1 && c.1 + cfg s 0x61 p ≤ h.1 && (poolStacks s (sessionOf s p)).any (fun k => freeFrames s k [] != []) then
        exchanges p n (exchange s p h c)
      else s
    | _, _ => s

def cellarExchanges (s : State) (p : Nat) : State :=
  let c := cellarOf s p
  if c.lent && !c.releasing && canMaster s (p + 1) && !c.buf.any (·.pending) then exchanges p (cfg s 0x62 p) s else s

/-- The Stacker's loop over the frame that begins (R202 to R204). -/
def stackerLoop (s : State) : State :=
  (List.range 4).foldl cellarExchanges ((moveCands s).foldl tryMove s)

/-! ## Step 6 (R206, R207, R210, R211) -/

/-- Bytes of a line of memory as they lie, whatever its state. -/
def rawLine (s : State) (ma : Nat) : List Byte :=
  match lineAt s ma with
  | some (.stk k l) => lineBytes s k l
  | some (.cel p g l) => (slotLine (cellarOf s p) (g / 512) (32 * (g % 512) + l)).1
  | none => List.replicate 128 0

/-- The indices of a scatter as they lie. -/
def rawIndices (s : State) (b : Nat) : List Nat :=
  let n := 4 * gCount b
  let bs := if gASpad b then spadRead s (gTile b % 1024) (gA b) n
            else (((linesOf (gA b) n).flatMap (rawLine s)).drop (gA b % 128)).take n
  (List.range (gCount b)).map (fun i => leNat ((bs.drop (4 * i)).take 4))

/-- A split Gleaner piece is queued or running on the frame (06, Coincidences). -/
def pieceOn (s : State) (k f : Nat) : Bool :=
  let g := glnOf s k
  ((match g.running with | some c => [c] | none => []) ++ g.fw ++ g.high ++ g.normal).any (fun c =>
    (match c.src with | .piece _ _ => true | _ => false) &&
    (writtenLines c.body (if gOp c.body == 6 then rawIndices s c.body else [])).any (fun ma =>
      match lineAt s (ma / 128 * 128) with
      | some (.stk j l) => j == k && l / frameLines == f
      | _ => false))

/-- One migration at step 6 of the boundary of instant `b`. -/
def moveStep (b : Nat) (s : State) (m : Migration) : State :=
  let late := match m.endAt with
    | none => true
    | some e => decide (b < e + 2000)
  let named := match m.tick with
    | none => true
    | some k => decide (k ≤ s.tick.count.toNat)
  if stackAtLeast s m.dstStack 920 || pieceOn s m.srcStack m.srcFrame then abandonMove s m
  else if late then (if m.flight.isSome then s else abandonMove s m)
  else if named then commitMove s m else s

def movesStep (b : Nat) (s : State) : State := s.place.moves.foldl (moveStep b) s

/-- A completed tile move commits (R210). -/
def commitTileMove (s : State) (m : TileMove) : State :=
  let s1 := { s with
    boot := { s.boot with tileMap := mset s.boot.tileMap m.tile m.row },
    place := { s.place with tileMoves := s.place.tileMoves.filter (· != m) } }
  updSession s1 (sessionOf s (partOfTile m.tile)) (fun p => { p with tileMoves := satAdd max16 p.tileMoves 1 })

def tileMovesStep (s : State) : State :=
  (s.place.tileMoves.filter (fun m => m.copyEnd.isSome)).foldl commitTileMove s

/-- A placement mode commits (R211). -/
def commitPlacement (s : State) (p mode n : Nat) : State :=
  updSession s (sessionOf s p) (fun r => { r with mode := mode, n := n, left := n, frozen := false })

/-- One tick of every Frozen session (R211). -/
def frozenStep (s : State) : State :=
  { s with place := { s.place with sessions := mmap s.place.sessions (fun _ (r : Placement) =>
      if r.mode == 1 then (if r.left == 0 then { r with frozen := true } else { r with left := r.left - 1 }) else r) } }

/-- Stubs of the second boundary after their commit are retired, and their frames filled; the others have seen one boundary
more (R206). -/
def stubsStep (s : State) : State :=
  let old := s.place.stubs.filter (fun b => 2 ≤ b.age)
  let s1 := { s with place := { s.place with
    stubs := (s.place.stubs.filter (fun b => b.age < 2)).map (fun b => { b with age := b.age + 1 }) } }
  old.foldl (fun s b => beginFill s b.stack b.frame) s1

end Sys2Proof.Machine
end

