-- ==== Sys2Proof/Machine/Tick.lean ====
section
/-!
DEFINITION. Machine/Tick.lean: the tick generator and the boundary sequencer (02).
-/
namespace Sys2Proof.Machine

/-! ## Following TICK_SYNC (R33 to R38) -/

/-- The period in force, ns, and an eighth of it. -/
def periodNs (s : State) : Nat := 1000 * s.tick.periodUs
def eighthNs (s : State) : Nat := 125 * s.tick.periodUs

/-- The generator follows edges: ACQUIRING or LOCKED. -/
def following (s : State) : Bool := s.tick.running && (s.tick.state == .acquiring || s.tick.state == .locked)

def freeRunning (s : State) : Bool := s.tick.running && s.tick.state == .freeRun

/-- Table 2-1: data 0 and 1, 2 the marker; none is invalid. -/
def symbolOf (high : Nat) : Option Nat :=
  if 150 ≤ high && high ≤ 250 then some 0
  else if 500 ≤ high && high ≤ 700 then some 1
  else if 1200 ≤ high && high ≤ 1600 then some 2
  else none

/-- The superframe in progress is discarded; one that is whole waits for its boundary. -/
def sfDrop (f : Superframe) : Superframe := { whole := f.whole }

/-- A symbol joins the superframe (R34). A whole one is compared at the second boundary from here. -/
def sfStep (f : Superframe) (sym : Option Nat) : Superframe :=
  match sym with
  | none => sfDrop f
  | some b =>
    if 2 ≤ b then { sfDrop f with aligned := true }
    else if !f.aligned || 64 ≤ f.pos then sfDrop f
    else
      let g := { f with pos := f.pos + 1, value := f.value + b * 2 ^ f.pos }
      if g.pos == 64 then { g with whole := some (g.value, 2) } else g

/-- An RC counter of every function's copy counts (R54). -/
def countRc (s : State) (f : TickRc → TickRc) : State :=
  { s with tick := { s.tick with rc := (List.range 5).foldl (fun m i => mupd {} m i f) s.tick.rc } }

/-- OOW_COUNT counts an edge (R35). -/
def countOow (s : State) : State := countRc s (fun c => { c with oow := satAdd max32 c.oow 1 })

/-- The edge falls in the frame's window (R35), both ends included. -/
def inWindow (s : State) : Bool :=
  decide (s.tick.base + periodNs s ≤ s.now + eighthNs s) && decide (s.now ≤ s.tick.base + periodNs s + eighthNs s)

/-- An edge in ACQUIRING or LOCKED (R33 to R36). -/
def edgeFollow (s : State) (high : Nat) : State :=
  let k := s.tick
  if !k.edgeSeen && k.due.isNone && inWindow s then
    { s with tick := { k with
        due := some (s.now + 40), edgeSeen := true, missRun := 0,
        lastOffset := (s.now : Int) - ((k.base + periodNs s : Nat) : Int), sf := sfStep k.sf (symbolOf high) } }
  else countOow s

/-- The nearest local tick of an instant is the next one. -/
def nearNext (s : State) : Bool := decide (s.tick.prev + periodNs s ≤ 2 * (s.now - s.tick.prev) + s.tick.prev)

/-- The nearest local tick. -/
def nearTick (s : State) : Nat := if nearNext s then s.tick.prev + periodNs s else s.tick.prev

/-- The fourth in-window edge in a row (R38): LOCKED, and the next window runs from 40 ns after it. -/
def relock (s : State) : State :=
  let k := { s.tick with
    state := .locked, missRun := 0, sf := {}, lastOffset := (s.now : Int) - ((nearTick s : Nat) : Int) }
  if !nearNext s then { s with tick := { k with base := s.now + 40, edgeSeen := false } }
  else
    let l := k.due.getD (nearTick s)
    if s.now + 40 < l then { s with tick := { k with due := some (s.now + 40), rebase := none, edgeSeen := true } }
    else { s with tick := { k with due := some l, rebase := some (s.now + 40), edgeSeen := true } }

/-- An edge in FREE_RUN (R38). -/
def edgeFree (s : State) : State :=
  let k := s.tick
  let next := nearNext s
  let l := nearTick s
  if eighthNs s < max s.now l - min s.now l then countOow { s with tick := { k with goodRun := 0 } }
  else if (if next then k.seenNext else k.seenLast) then countOow s
  else
    let run0 := if next && !k.seenLast then 0 else k.goodRun
    let s1 := { s with tick := { k with goodRun := min 4 (run0 + 1), seenLast := true, seenNext := next || k.seenNext } }
    if run0 + 1 < 4 then s1 else relock s1

/-- TICK_SYNC_EDGE (R33, R35): a rising edge at this instant, with the high time that follows it (log 8). -/
def execTickSyncEdge (t high : Nat) (s : State) : Out :=
  run t s fun s => if following s then edgeFollow s high else gate (freeRunning s) edgeFree s

/-- TICK_WINDOW_EXPIRE (R36): the window has closed without an accepted edge. -/
def execTickWindowExpire (t : Nat) (s : State) : Out :=
  run t s fun s =>
    let close := s.tick.base + periodNs s + eighthNs s
    gate (following s && !s.tick.edgeSeen && s.tick.due.isNone && decide (close < s.now)) (fun s =>
      let s1 := countRc s (fun c => { c with miss := satAdd max32 c.miss 1 })
      { s1 with tick := { s1.tick with due := some close, missRun := min 8 (s1.tick.missRun + 1), sf := sfDrop s1.tick.sf } }) s

/-- SYNC_LOST (R38): eight frames in a row without an accepted edge. -/
def execSyncLost (t : Nat) (s : State) : Out :=
  run t s fun s => gate (following s && decide (8 ≤ s.tick.missRun)) (fun s =>
    let s1 := countRc s (fun c => { c with loss := satAdd max32 c.loss 1 })
    let k := s1.tick
    fire { s1 with tick := { k with
      state := .freeRun, goodRun := 0, sf := {}, seenLast := false, seenNext := false, edgeSeen := false,
      countValid := true, localCount := k.localCount || k.state == .acquiring } } 9) s

/-- FREE_RUN_TICK (R38): the local generator makes a tick every T. -/
def execFreeRunTick (t : Nat) (s : State) : Out :=
  run t s fun s => gate (freeRunning s && s.tick.due.isNone && decide (s.tick.prev + periodNs s ≤ s.now))
    (fun s => { s with tick := { s.tick with due := some (s.tick.prev + periodNs s) } }) s

/-! ## Step 1 (R34, R44, R49 to R52) -/

/-- A whole superframe comes to its boundary (R34): it gives the count, confirms it or corrects it. -/
def superframeStep (s : State) : State :=
  match s.tick.sf.whole with
  | none => s
  | some (v, n) =>
    let s1 := { s with tick := { s.tick with sf := { s.tick.sf with whole := if n ≤ 1 then none else some (v, n - 1) } } }
    let c := BitVec.ofNat 64 (v + 65)
    let set : State := { s1 with tick := { s1.tick with count := c, localCount := false } }
    if 2 ≤ n then s1
    else
      match s.tick.state with
      | .acquiring => { set with tick := { set.tick with state := .locked, countValid := true } }
      | .locked =>
        if s.tick.count == c then set else fire (countRc set (fun c => { c with correct := satAdd max32 c.correct 1 })) 10
      | _ => s1

/-- The count and the frame's marks at boundary instant `b`. -/
def countStep (s : State) (b : Nat) : State :=
  let k := s.tick
  superframeStep { s with tick := { k with
    count := k.count + 1, base := k.rebase.getD b, prev := b, rebase := none, due := none, edgeSeen := false,
    seenLast := k.seenNext, seenNext := false, goodRun := if k.state == .freeRun && !k.seenLast then 0 else k.goodRun } }

/-- Violations of every link start anew (10 R268), and the peak of its depth is latched (Table 10-9). -/
def linkFrame (s : State) : State :=
  { s with fab := { s.fab with links := mmap s.fab.links (fun _ (l : Link) =>
      { l with viols := 0, port := { l.port with peak := l.port.curPeak, curPeak := 0 } }) } }

/-- An overrun notice of a partition for one job domain (R52, Table 2-5). -/
def sendNotice (s : State) (p j cause : Nat) : State :=
  let r : Release := mget {} s.tick.rel p
  let pay := leBytes 32 (packBits [(r.tick, 64), (s.tick.count.toNat, 64), (r.lag, 4), (p, 2), (cause, 2)])
  (otherLpkgs s).foldl (fun s l => sendTo s l 344 { op := 0x21, vc := 0, srcEid := ownEid s (340 + p), job := j } pay) s

def setRel (s : State) (p : Nat) (r : Release) : State := { s with tick := { s.tick with rel := mset s.tick.rel p r } }

/-- OVERRUN_COUNT of a partition, in PF0's copy and its own (R54). -/
def countOverrun (s : State) (p : Nat) : State :=
  let bump := fun (m : SMap Nat) (k : Nat) => mupd 0 m k (fun n => satAdd max32 n 1)
  { s with
    tick := { s.tick with overruns := bump (bump s.tick.overruns p) (4 * (p + 1) + p) },
    power := { s.power with minute := { s.power.minute with overrunFrames := s.power.minute.overrunFrames + 1 } } }

/-- A partition's sheaf is judged (R49 to R51). -/
def judgeSheaf (causes : List Nat) (s : State) (p : Nat) : State :=
  let r : Release := mget {} s.tick.rel p
  if !r.out then s
  else
    let n := r.since + 1
    if r.excused || refusing s p || s.power.idle then setRel s p { r with since := n }
    else
      let s1 := setRel s p { r with since := n, late := true, lag := min 4 n }
      let s2 := if n == 1 then firePart (countOverrun s1 p) p 1 else s1
      if n ≤ 4 then (partOf s p).jobs.foldl (fun s j => sendNotice s p j (causes.getD p 0 % 4)) s2 else s2

def tickIdle (s : State) : State :=
  let eng := fun (e : Engine) =>
    { e with idleTicks := if e.jobs.isEmpty then 0 else idleNow e.idleTicks e.progress, progress := false }
  { s with
    cores := mmap s.cores (fun _ (k : Core) =>
      { k with idleTicks := if queueEmpty k then 0 else idleNow k.idleTicks k.progress, progress := false }),
    tiles := mmap s.tiles (fun _ (t : Tile) =>
      { t with matrix := eng t.matrix, vector := eng t.vector, dma := eng t.dma, stream := eng t.stream, fwd := eng t.fwd,
               sync := eng t.sync }),
    glns := mmap s.glns (fun _ (g : Gleaner) =>
      { g with idleTicks := if (glnHeld g).isEmpty && g.opens.isEmpty then 0 else idleNow g.idleTicks g.progress,
               progress := false }),
    wain := { s.wain with works := mmap s.wain.works (fun _ (w : ChanWork) =>
      { w with idleTicks := if w.work.isEmpty then 0 else idleNow w.idleTicks w.progress, progress := false }) },
    coll := { s.coll with
      idle := (List.range 8).foldl (fun m i =>
        if s.coll.opens.any (fun o => servedBy o i) then mset m i (idleNow (mget 0 m i) (s.coll.progress.contains i))
        else mdel m i) s.coll.idle,
      progress := [] } }

/-- ABORTs that met no member since the last boundary are logged (Table 20-12). -/
def strayStep (s : State) : State :=
  if s.faults.strayAborts == 0 then s
  else
    let s1 := faultLog s 0x05 4 [s.faults.strayAborts, s.faults.strayJob]
    { s1 with faults := { s1.faults with strayAborts := 0 } }

/-- A Cellar sector that has waited dirty for two boundaries is written (07 R187). -/
def cellarAge (s : State) (p : Nat) : State :=
  let c := cellarOf s p
  let s1 := setCellar s p { c with buf := c.buf.map (fun b => { b with age := b.age + 1 }) }
  if canMaster s (p + 1) then
    (cellarOf s1 p).buf.foldl (fun s b => if 2 ≤ b.age then cleanSector s p b else s) s1
  else s1

def anyLate (s : State) : Bool := (List.range 4).any (fun p => (mget {} s.tick.rel p : Release).late)

/-- Width of the TICK_OUT pulse (R42). -/
def pulseNs (s : State) : Nat := (if s.tick.state == .locked then 100 else 500) + (if anyLate s then 200 else 0)

/-- Step 1 of the boundary of instant `b`. -/
def step1 (s : State) (b : Nat) (causes : List Nat) : State :=
  let s1 := (List.range 4).foldl detect (linkFrame (countStep s b))
  let s2 := strayStep (tickIdle ((List.range 4).foldl (judgeSheaf causes) s1))
  let s3 := (List.range 4).foldl cellarAge s2
  s3.emit (.tickOut (pulseNs s3))

/-! ## Step 2 (15 R375, 16 R378, R397 to R399, 17 R413, 08 R201) -/

/-- The snapshot joins the latest sixteen. -/
def pushSnapshot (s : State) (frameNs : Nat) : State :=
  let s1 := if s.sess.pkg.isSome then
    { s with sess := { s.sess with snapshots := (buildSnapshot s frameNs :: s.sess.snapshots).take 16 } } else s
  { s1 with tick := { s1.tick with log := [], logLost := 0 } }

/-- Step 2: the frame just ended lasted `frameNs`. -/
def step2 (s : State) (frameNs : Nat) : State :=
  let s1 := updateHeat (endFrameTally (refit s))
  let s2 := if hayOn s1 then buildForecast s1 frameNs else s1
  pushSnapshot (if minuteDue s2 then endMinute s2 else s2) frameNs

/-! ## Staged changes (R39, R40, R43, 15 R365) -/

/-- A staged change fires at this boundary: the count was valid before it, and its tick has come, or it asked for the earliest
boundary and was staged 2 us before. -/
def changeReady (s : State) (b : Nat) (valid : Bool) (e : Staged) : Bool :=
  valid && (match e.tick with
    | some k => decide (k ≤ s.tick.count.toNat)
    | none => decide (e.at_ + 2000 ≤ b))

/-- Step of Table 2-4 at which a change commits; 9 stands for the session items of step 6. -/
def stepOf (c : Change) : Nat :=
  match c with
  | .fwActivate => 3
  | .grant _ _ _ _ _ | .partCap _ _ | .mode _ => 4
  | .linkEnc _ | .cellarKey _ | .linkKey => 5
  | .placement _ _ _ | .movable _ _ _ _ => 6
  | .config l => if l.any (fun e => 0x60 ≤ e.1 && e.1 ≤ 0x62) then 6 else 7
  | .lpt _ => 7
  | .partStart _ | .partStop _ => 8

/-- A partition is ASSIGNED or RUNNING. -/
def inUse (s : State) (p : Nat) : Bool := pstate s p == .assigned || pstate s p == .running

/-- The state that a change's row requires holds (15 R365). -/
def changeHolds (s : State) (c : Change) : Bool :=
  match c with
  | .placement p mode _ =>
    inUse s p && !(mode == 2 && s.place.bufs.any (fun e => e.2.session == sessionOf s p && !bit e.2.attr 3))
  | .movable p _ _ _ => inUse s p
  | .cellarKey p => inUse s p && (rotateCellar s p).isSome
  | .config l => l.all (fun e => !(0x60 ≤ e.1 && e.1 ≤ 0x62) || sessionOf s e.2.1 != 0)
  | .partStart p => pstate s p == .assigned
  | .partStop p => pstate s p == .running
  | _ => true

/-- One configuration item takes its value at its step; the tick period and the weights act on more (R30, 10 R255). -/
def commitItem (s : State) (e : Nat × Nat × Nat) : State :=
  let s1 := applyItem s e
  if e.1 == 0x01 then { s1 with tick := { s1.tick with periodUs := e.2.2, nextValid := false } }
  else if 0x11 ≤ e.1 && e.1 ≤ 0x15 then
    { s1 with fab := { s1.fab with links := mmap s1.fab.links (fun _ (l : Link) => { l with deficit := [] }) } }
  else s1

/-- A PART_STOP commits (R50): the sheaf that is out runs on unjudged. -/
def commitStop (s : State) (p : Nat) : State :=
  let r : Release := mget {} s.tick.rel p
  setRel (setPState s p .assigned) p { r with late := false, lag := 0, excused := r.out }

/-- A change takes effect. -/
def commitChange (s : State) (c : Change) : State :=
  match c with
  | .grant sus burst shed orphan lease => commitGrant s sus burst shed orphan lease
  | .partCap p w => { s with power := { s.power with caps := mset s.power.caps p w } }
  | .mode m => { s with power := { s.power with mode := m } }
  | .linkEnc on => commitEnc s on
  | .cellarKey p => (rotateCellar s p).getD s
  | .placement p mode n => commitPlacement s p mode n
  | .movable _ first count on =>
    (span first count).foldl (fun s i => setTile s i { tileOf s i with movable := on }) s
  | .config l => l.foldl commitItem s
  | .lpt entries => { s with fab := { s.fab with lpt := entries } }
  | .partStart p => setPState s p .running
  | .partStop p => commitStop s p
  | .linkKey | .fwActivate => s

/-- A staged change that fires at a step is taken out, and takes effect or is dropped and counted. -/
def fireChange (s : State) (e : Staged) : State :=
  let s1 := { s with sess := { s.sess with staged := s.sess.staged.erase e } }
  if changeHolds s1 e.change then commitChange s1 e.change
  else { s1 with sess := { s1.sess with stagedDropped := satAdd max16 s1.sess.stagedDropped 1 } }

/-- The changes of one step, in the order staged. -/
def fireStep (b : Nat) (valid : Bool) (n : Nat) (s : State) : State :=
  (s.sess.staged.filter (fun e => stepOf e.change == n && changeReady s b valid e)).foldl fireChange s

/-! ## Steps 4 to 8 -/

/-- A flow limit staged 2 us before takes effect (17 R405), and the minute notes a limit in force. -/
def flowStep (s : State) (b : Nat) : State :=
  let s1 := match s.heat.stagedLimit with
    | some (at_, l) => if at_ + 2000 ≤ b then { s with heat := { s.heat with flowLimit := l, stagedLimit := none } } else s
    | none => s
  if s1.heat.flowLimit.isSome then
    { s1 with power := { s1.power with minute := { s1.power.minute with flowScaled := true } } } else s1

/-- Step 4: grants, limits, modes, rises and trims. -/
def step4 (b : Nat) (valid : Bool) (s : State) : State :=
  let s1 := applyRises (rampStep (shedEnd (flowStep (fireStep b valid 4 s) b)))
  if hayOn s1 then (List.range 8).foldl (fun s q => if trimDue s q then trimQuad s q else s) s1 else s1

/-- Step 5: key epochs. -/
def step5 (b : Nat) (valid : Bool) (s : State) : State :=
  (List.range 71).foldl linkStep5 (fireStep b valid 5 ((List.range 4).foldl cellarStep5 (graceStep s)))

/-- Step 6: placement. -/
def step6 (b : Nat) (valid : Bool) (s : State) : State :=
  let s1 := tileMovesStep (movesStep b (stubsStep (fireStep b valid 6 (frozenStep s))))
  { s1 with place := { s1.place with used := [] } }

/-- Idle begins or ends at step 8 (16 R394), and its command is answered where no die is on its way. -/
def idleStep (s : State) : State :=
  match s.power.idleNext with
  | none => s
  | some on =>
    let s1 := { s with power := { s.power with idle := on, idleNext := none } }
    if s1.power.entering.isEmpty && s1.power.exiting.isEmpty then finish s1 (fun f => f.kind == .powerState) 0 [] true else s1

/-- A partition is released a sheaf at this boundary (R32, R39, R49, 16 R394). -/
def releasable (s : State) (p : Nat) : Bool :=
  let r : Release := mget {} s.tick.rel p
  pstate s p == .running && sessionOf s p != 0 && !r.out && !r.late && s.tick.countValid && s.tick.state != .acquiring &&
  !s.power.idle && !refusing s p && !s.power.fallow.contains (dieOfPart p)

/-- The release reaches a core (04 R92, R93): a read of SHEAF_NEXT that waits completes. -/
def releaseCore (seq : Nat) (s : State) (c : Nat) : State :=
  let k := coreOf s c
  if k.stall == some .sheafNext then
    (setCore s c { k with done := false, stall := none, nextRead := true }).emit (.coreRead c seq)
  else setCore s c { k with done := false, nextRead := false }

/-- A sheaf is released to a partition (R46). -/
def releaseSheaf (s : State) (p : Nat) : State :=
  let r : Release := mget {} s.tick.rel p
  let n := (r.seq + 1) % 2 ^ 32
  let s1 := setRel s p { seq := n, tick := s.tick.count.toNat, out := true }
  let s2 := (tilesOf p).foldl (fun s i => setTile s i { tileOf s i with sheafTick := s.tick.count.toNat, sheafSeq := n }) s1
  let s3 := (span (288 * p) 288).foldl (releaseCore n) s2
  sheafSettle ((quadsOf p).foldl (fun s q => setQuad s q { quadOf s q with gated := false }) s3) p

/-- Step 8: stops, starts, Idle, and the release. -/
def step8 (b : Nat) (valid : Bool) (s : State) : State :=
  (List.range 4).foldl (fun s p => if releasable s p then releaseSheaf s p else s) (idleStep (fireStep b valid 8 s))

/-- A firmware activation is due at step 3. -/
def activationDue (b : Nat) (valid : Bool) (s : State) : Bool :=
  s.sess.staged.any (fun e => stepOf e.change == 3 && changeReady s b valid e)

/-- The boundary of instant `b` (R44, R45): an activation at step 3 leaves the rest out. -/
def boundary (s : State) (b : Nat) (causes : List Nat) : State :=
  let valid := s.tick.countValid
  let s2 := step2 (step1 s b causes) (b - s.tick.prev)
  if activationDue b valid s2 then activate s2
  else stackerLoop (step8 b valid (fireStep b valid 7 (step6 b valid (step5 b valid (step4 b valid s2)))))

/-- TICK_BOUNDARY (R44). `causes` are the reasons that the notices give, by partition (log 8). -/
def execTickBoundary (t : Nat) (causes : List Nat) (s : State) : Out :=
  run t s fun s =>
    match s.tick.due with
    | none => s
    | some b => gate (s.tick.running && s.tick.state != .halted && decide (b ≤ s.now)) (fun s => boundary s b causes) s

end Sys2Proof.Machine
end

