-- ==== Sys2Proof/Machine/Dispatch.lean ====
section
/-!
DEFINITION. Machine/Dispatch.lean: one arm per command; each calls the command's own meaning.
-/
namespace Sys2Proof.Machine

def exec (i : Instr) (s : State) : Host.Outcome State Fault Refusal :=
  match i with
  | .powerUp t => Sys2Proof.Machine.execPowerUp t s
  | .coldReset t level cycles => Sys2Proof.Machine.execColdReset t level cycles s
  | .pinFilterChange t pin level cycles => Sys2Proof.Machine.execPinFilterChange t pin level cycles s
  | .bringupS0 t strap fuseOk dvUv bankMv => Sys2Proof.Machine.execBringupS0 t strap fuseOk dvUv bankMv s
  | .bringupS1 t failA failB => Sys2Proof.Machine.execBringupS1 t failA failB s
  | .bringupS2 t passA failA passB failB bankMv => Sys2Proof.Machine.execBringupS2 t passA failA passB failB bankMv s
  | .bringupS3 t d2d stk => Sys2Proof.Machine.execBringupS3 t d2d stk s
  | .bringupS4 t bist trims => Sys2Proof.Machine.execBringupS4 t bist trims s
  | .bringupS5 t retries tiles glns other => Sys2Proof.Machine.execBringupS5 t retries tiles glns other s
  | .bringupS6 t lanes degraded peaks => Sys2Proof.Machine.execBringupS6 t lanes degraded peaks s
  | .memoryTestStep t frames words => Sys2Proof.Machine.execMemoryTestStep t frames words s
  | .bringupS7 t margins => Sys2Proof.Machine.execBringupS7 t margins s
  | .bringupS8 t => Sys2Proof.Machine.execBringupS8 t s
  | .stageLimitExpire t => Sys2Proof.Machine.execStageLimitExpire t s
  | .railPgLoss t rail => Sys2Proof.Machine.execRailPgLoss t rail s
  | .tickSyncEdge t high => Sys2Proof.Machine.execTickSyncEdge t high s
  | .tickWindowExpire t => Sys2Proof.Machine.execTickWindowExpire t s
  | .syncLost t => Sys2Proof.Machine.execSyncLost t s
  | .freeRunTick t => Sys2Proof.Machine.execFreeRunTick t s
  | .tickBoundary t causes => Sys2Proof.Machine.execTickBoundary t causes s
  | .overrunNotice t n opened => Sys2Proof.Machine.execOverrunNotice t n opened s
  | .sheafHung t p => Sys2Proof.Machine.execSheafHung t p s
  | .sequencerWatchdog t c => Sys2Proof.Machine.execSequencerWatchdog t c s
  | .engineStall t u ix => Sys2Proof.Machine.execEngineStall t u ix s
  | .fenceDrainEnd t p => Sys2Proof.Machine.execFenceDrainEnd t p s
  | .flightSampleStore t p => Sys2Proof.Machine.execFlightSampleStore t p s
  | .wqPush t c d7 => Sys2Proof.Machine.execWqPush t c d7 s
  | .wqPushaddr t c v si => Sys2Proof.Machine.execWqPushaddr t c v si s
  | .wqPushUnstall t c => Sys2Proof.Machine.execWqPushUnstall t c s
  | .wqResume t c => Sys2Proof.Machine.execWqResume t c s
  | .wqFlush t c => Sys2Proof.Machine.execWqFlush t c s
  | .ccValWrite t c v => Sys2Proof.Machine.execCcValWrite t c v s
  | .ccAddWrite t c v => Sys2Proof.Machine.execCcAddWrite t c v s
  | .vseedWrite t c v => Sys2Proof.Machine.execVseedWrite t c v s
  | .vseedApply t c => Sys2Proof.Machine.execVseedApply t c s
  | .sheafDoneWrite t c v => Sys2Proof.Machine.execSheafDoneWrite t c v s
  | .sheafNextRead t c => Sys2Proof.Machine.execSheafNextRead t c s
  | .rcFieldRead t r => Sys2Proof.Machine.execRcFieldRead t r s
  | .bar0BadAccess t f off n isRead => Sys2Proof.Machine.execBar0BadAccess t f off n isRead s
  | .registerWrite t r => Sys2Proof.Machine.execRegisterWrite t r s
  | .descriptorIssue t ix u => Sys2Proof.Machine.execDescriptorIssue t ix u s
  | .descriptorFail t c u index => Sys2Proof.Machine.execDescriptorFail t c u index s
  | .mmaComplete t ix si => Sys2Proof.Machine.execMmaComplete t ix si s
  | .vopConvert t ix si => Sys2Proof.Machine.execVopConvert t ix si s
  | .vopAdd t ix si => Sys2Proof.Machine.execVopAdd t ix si s
  | .vopSub t ix si => Sys2Proof.Machine.execVopSub t ix si s
  | .vopMul t ix si => Sys2Proof.Machine.execVopMul t ix si s
  | .vopFma t ix si => Sys2Proof.Machine.execVopFma t ix si s
  | .vopMin t ix si => Sys2Proof.Machine.execVopMin t ix si s
  | .vopMax t ix si => Sys2Proof.Machine.execVopMax t ix si s
  | .vopAbs t ix si => Sys2Proof.Machine.execVopAbs t ix si s
  | .vopNeg t ix si => Sys2Proof.Machine.execVopNeg t ix si s
  | .vopRcp t ix si => Sys2Proof.Machine.execVopRcp t ix si s
  | .vopRsqrt t ix si => Sys2Proof.Machine.execVopRsqrt t ix si s
  | .vopExp2 t ix si => Sys2Proof.Machine.execVopExp2 t ix si s
  | .vopLog2 t ix si => Sys2Proof.Machine.execVopLog2 t ix si s
  | .vopCmpgt t ix si => Sys2Proof.Machine.execVopCmpgt t ix si s
  | .vopCmpeq t ix si => Sys2Proof.Machine.execVopCmpeq t ix si s
  | .tileDmaCopy t c index mi si => Sys2Proof.Machine.execTileDmaCopy t c index mi si s
  | .tileDmaFence t c index => Sys2Proof.Machine.execTileDmaFence t c index s
  | .syncAdd t c index => Sys2Proof.Machine.execSyncAdd t c index s
  | .syncSet t c index => Sys2Proof.Machine.execSyncSet t c index s
  | .syncNone t c index => Sys2Proof.Machine.execSyncNone t c index s
  | .streamOutBlockSend t c index mi si => Sys2Proof.Machine.execStreamOutBlockSend t c index mi si s
  | .streamOutComplete t c index => Sys2Proof.Machine.execStreamOutComplete t c index s
  | .gleanerDescComplete t c index => Sys2Proof.Machine.execGleanerDescComplete t c index s
  | .gleanerFwdTimeout t c index => Sys2Proof.Machine.execGleanerFwdTimeout t c index s
  | .boardLoad t c b n mi => Sys2Proof.Machine.execBoardLoad t c b n mi s
  | .boardStore t c b n v mi => Sys2Proof.Machine.execBoardStore t c b n v mi s
  | .seqFenceComplete t c => Sys2Proof.Machine.execSeqFenceComplete t c s
  | .tileMoveStart t ix => Sys2Proof.Machine.execTileMoveStart t ix s
  | .tileMoveAbandon t ix => Sys2Proof.Machine.execTileMoveAbandon t ix s
  | .wainFetch t ch mi si => Sys2Proof.Machine.execWainFetch t ch mi si s
  | .wainBurstIssue t e mi si => Sys2Proof.Machine.execWainBurstIssue t e mi si s
  | .wainAgePromote t ch => Sys2Proof.Machine.execWainAgePromote t ch s
  | .wainBurstWrite t e mi => Sys2Proof.Machine.execWainBurstWrite t e mi s
  | .wainCopy t ch => Sys2Proof.Machine.execWainCopy t ch s
  | .wainFence t ch => Sys2Proof.Machine.execWainFence t ch s
  | .wainTimeout t e q => Sys2Proof.Machine.execWainTimeout t e q s
  | .wainStall t ch => Sys2Proof.Machine.execWainStall t ch s
  | .gleanerDispatch t k mi si => Sys2Proof.Machine.execGleanerDispatch t k mi si s
  | .gleanerAgePromote t k => Sys2Proof.Machine.execGleanerAgePromote t k s
  | .scoreScan t k mi si => Sys2Proof.Machine.execScoreScan t k mi si s
  | .weightedAcc t k mi si => Sys2Proof.Machine.execWeightedAcc t k mi si s
  | .accMem t k mi si => Sys2Proof.Machine.execAccMem t k mi si s
  | .optUpdate t k mi si => Sys2Proof.Machine.execOptUpdate t k mi si s
  | .gather t k mi si => Sys2Proof.Machine.execGather t k mi si s
  | .scatter t k mi si => Sys2Proof.Machine.execScatter t k mi si s
  | .unpack t k mi si => Sys2Proof.Machine.execUnpack t k mi si s
  | .gleanerFill t k mi si => Sys2Proof.Machine.execGleanerFill t k mi si s
  | .gleanerCopy t k mi si => Sys2Proof.Machine.execGleanerCopy t k mi si s
  | .patternTest t k mi si => Sys2Proof.Machine.execPatternTest t k mi si s
  | .gleanerComplete t k id mi => Sys2Proof.Machine.execGleanerComplete t k id mi s
  | .gleanerCmdExpire t k mi => Sys2Proof.Machine.execGleanerCmdExpire t k mi s
  | .memWriteback t k line => Sys2Proof.Machine.execMemWriteback t k line s
  | .laneMark t k pc lane => Sys2Proof.Machine.execLaneMark t k pc lane s
  | .readTimingWindow t k pc lane e lt => Sys2Proof.Machine.execReadTimingWindow t k pc lane e lt s
  | .probeRead t k pc lanes => Sys2Proof.Machine.execProbeRead t k pc lanes s
  | .patrolRead t k mi => Sys2Proof.Machine.execPatrolRead t k mi s
  | .patrolLevelUpdate t k => Sys2Proof.Machine.execPatrolLevelUpdate t k s
  | .cellarRead t p g => Sys2Proof.Machine.execCellarRead t p g s
  | .cellarFetchComplete t p g good => Sys2Proof.Machine.execCellarFetchComplete t p g good s
  | .cellarWrite t p g off bs mi => Sys2Proof.Machine.execCellarWrite t p g off bs mi s
  | .cellarEvict t p g leave => Sys2Proof.Machine.execCellarEvict t p g leave s
  | .migrationCopyEnd t k f mi => Sys2Proof.Machine.execMigrationCopyEnd t k f mi s
  | .stubRetire t k f => Sys2Proof.Machine.execStubRetire t k f s
  | .frameFillDone t k f => Sys2Proof.Machine.execFrameFillDone t k f s
  | .frozenExpire t ses => Sys2Proof.Machine.execFrozenExpire t ses s
  | .linkSignalDetect t n => Sys2Proof.Machine.execLinkSignalDetect t n s
  | .linkTrainComplete t k pos link indices peer far margins => Sys2Proof.Machine.execLinkTrainComplete t k pos link indices peer far margins s
  | .linkTrainRetry t k => Sys2Proof.Machine.execLinkTrainRetry t k s
  | .loopbackRetrain t margins => Sys2Proof.Machine.execLoopbackRetrain t margins s
  | .codewordReceive t n errs heads flits => Sys2Proof.Machine.execCodewordReceive t n errs heads flits s
  | .laneSignalLost t n => Sys2Proof.Machine.execLaneSignalLost t n s
  | .marginWindow t n margin snr => Sys2Proof.Machine.execMarginWindow t n margin snr s
  | .rxAdaptUpdate t n dfe1 ctle ask => Sys2Proof.Machine.execRxAdaptUpdate t n dfe1 ctle ask s
  | .laneRetrainComplete t n margin peer => Sys2Proof.Machine.execLaneRetrainComplete t n margin peer s
  | .linkFlitIdle t n => Sys2Proof.Machine.execLinkFlitIdle t n s
  | .linkFlitStatus t n => Sys2Proof.Machine.execLinkFlitStatus t n s
  | .linkFlitCredit t n => Sys2Proof.Machine.execLinkFlitCredit t n s
  | .linkFlitAdapt t n => Sys2Proof.Machine.execLinkFlitAdapt t n s
  | .packetInject t ix => Sys2Proof.Machine.execPacketInject t ix s
  | .linkOutputSelect t k n => Sys2Proof.Machine.execLinkOutputSelect t k n s
  | .vcAgePromote t k vc => Sys2Proof.Machine.execVcAgePromote t k vc s
  | .packetForward t n opened => Sys2Proof.Machine.execPacketForward t n opened s
  | .packetAgedOut t k ix => Sys2Proof.Machine.execPacketAgedOut t k ix s
  | .malformedPacket t n opened => Sys2Proof.Machine.execMalformedPacket t n opened s
  | .truncate t n opened => Sys2Proof.Machine.execTruncate t n opened s
  | .write t n opened ses mi => Sys2Proof.Machine.execWrite t n opened ses mi s
  | .readReq t n opened ses mi si => Sys2Proof.Machine.execReadReq t n opened ses mi si s
  | .readResp t n opened => Sys2Proof.Machine.execReadResp t n opened s
  | .writeAck t n opened => Sys2Proof.Machine.execWriteAck t n opened s
  | .writeAckSend t ix => Sys2Proof.Machine.execWriteAckSend t ix s
  | .syncAddPacket t n opened ses => Sys2Proof.Machine.execSyncAddPacket t n opened ses s
  | .syncSetPacket t n opened ses => Sys2Proof.Machine.execSyncSetPacket t n opened ses s
  | .syncAck t n opened => Sys2Proof.Machine.execSyncAck t n opened s
  | .gleanerCmd t n opened ses => Sys2Proof.Machine.execGleanerCmd t n opened ses s
  | .gleanerDone t n opened => Sys2Proof.Machine.execGleanerDone t n opened s
  | .nack t n opened => Sys2Proof.Machine.execNack t n opened s
  | .abort t n opened => Sys2Proof.Machine.execAbort t n opened s
  | .keyXchgHello t rx n accept flip => Sys2Proof.Machine.execKeyXchgHello t rx n accept flip s
  | .keyXchgReply t rx n accept => Sys2Proof.Machine.execKeyXchgReply t rx n accept s
  | .keyXchgFinish t rx n accept => Sys2Proof.Machine.execKeyXchgFinish t rx n accept s
  | .keyXchgRetry t k => Sys2Proof.Machine.execKeyXchgRetry t k s
  | .scrubNotice t n opened => Sys2Proof.Machine.execScrubNotice t n opened s
  | .linkmap t n opened => Sys2Proof.Machine.execLinkmap t n opened s
  | .linkmapSend t => Sys2Proof.Machine.execLinkmapSend t s
  | .haywardMsg t n opened returnOk => Sys2Proof.Machine.execHaywardMsg t n opened returnOk s
  | .markKUpdate t k idle => Sys2Proof.Machine.execMarkKUpdate t k idle s
  | .rateAiPeriod t l => Sys2Proof.Machine.execRateAiPeriod t l s
  | .requestTimeout t ep q => Sys2Proof.Machine.execRequestTimeout t ep q s
  | .collAllReduce t job group part mi si => Sys2Proof.Machine.execCollAllReduce t job group part mi si s
  | .collReduceScatter t job group part mi si => Sys2Proof.Machine.execCollReduceScatter t job group part mi si s
  | .collAllGather t job group part mi si => Sys2Proof.Machine.execCollAllGather t job group part mi si s
  | .collAllToAll t job group part mi si => Sys2Proof.Machine.execCollAllToAll t job group part mi si s
  | .collBroadcast t job group part mi si => Sys2Proof.Machine.execCollBroadcast t job group part mi si s
  | .collReduce t job group part mi si => Sys2Proof.Machine.execCollReduce t job group part mi si s
  | .collBarrier t job group part mi si => Sys2Proof.Machine.execCollBarrier t job group part mi si s
  | .collChannelFetch t ch mi si => Sys2Proof.Machine.execCollChannelFetch t ch mi si s
  | .collReady t n opened rk mi si => Sys2Proof.Machine.execCollReady t n opened rk mi si s
  | .collExp t n opened rk mi si => Sys2Proof.Machine.execCollExp t n opened rk mi si s
  | .collAgreed t n opened rk mi si => Sys2Proof.Machine.execCollAgreed t n opened rk mi si s
  | .collContrib t n opened rk mi => Sys2Proof.Machine.execCollContrib t n opened rk mi s
  | .collResult t n opened rk mi => Sys2Proof.Machine.execCollResult t n opened rk mi s
  | .collArrive t n opened rk mi => Sys2Proof.Machine.execCollArrive t n opened rk mi s
  | .collFail t n opened rk mi => Sys2Proof.Machine.execCollFail t n opened rk mi s
  | .chunkComplete t job group part seq c mi si => Sys2Proof.Machine.execChunkComplete t job group part seq c mi si s
  | .collComplete t job group part seq mi => Sys2Proof.Machine.execCollComplete t job group part seq mi s
  | .collTimeout t job group part seq mi => Sys2Proof.Machine.execCollTimeout t job group part seq mi s
  | .thresherRestart t th mi => Sys2Proof.Machine.execThresherRestart t th mi s
  | .bar4Read t f off n inStream mi => Sys2Proof.Machine.execBar4Read t f off n inStream mi s
  | .bar4Write t f off data inStream mi => Sys2Proof.Machine.execBar4Write t f off data inStream mi s
  | .pcieReset t => Sys2Proof.Machine.execPcieReset t s
  | .flr t f => Sys2Proof.Machine.execFlr t f s
  | .deviceReadTimeout t p g => Sys2Proof.Machine.execDeviceReadTimeout t p g s
  | .ideIntegrityFail t f ix => Sys2Proof.Machine.execIdeIntegrityFail t f ix s
  | .ethFrameReceive t port f => Sys2Proof.Machine.execEthFrameReceive t port f s
  | .rdmaInbound t port mi => Sys2Proof.Machine.execRdmaInbound t port mi s
  | .qpRingFetch t q isRecv mi si => Sys2Proof.Machine.execQpRingFetch t q isRecv mi si s
  | .roceSend t q mi => Sys2Proof.Machine.execRoceSend t q mi s
  | .roceSendImm t q mi => Sys2Proof.Machine.execRoceSendImm t q mi s
  | .roceWrite t q mi => Sys2Proof.Machine.execRoceWrite t q mi s
  | .roceWriteImm t q mi => Sys2Proof.Machine.execRoceWriteImm t q mi s
  | .roceRead t q => Sys2Proof.Machine.execRoceRead t q s
  | .roceRecv t q => Sys2Proof.Machine.execRoceRecv t q s
  | .roceWrComplete t q isRecv mi => Sys2Proof.Machine.execRoceWrComplete t q isRecv mi s
  | .roceAckTimeout t q => Sys2Proof.Machine.execRoceAckTimeout t q s
  | .roceCnp t port => Sys2Proof.Machine.execRoceCnp t port s
  | .roceRateIncrease t q => Sys2Proof.Machine.execRoceRateIncrease t q s
  | .pfcPauseReceive t port prio quanta => Sys2Proof.Machine.execPfcPauseReceive t port prio quanta s
  | .haywardCheckFail t h code => Sys2Proof.Machine.execHaywardCheckFail t h code s
  | .haywardWatchdogExpire t w => Sys2Proof.Machine.execHaywardWatchdogExpire t w s
  | .haywardTakeover t => Sys2Proof.Machine.execHaywardTakeover t s
  | .haywardIslandRestart t h => Sys2Proof.Machine.execHaywardIslandRestart t h s
  | .haywardRevert t => Sys2Proof.Machine.execHaywardRevert t s
  | .haywardHealthPublish t h corr => Sys2Proof.Machine.execHaywardHealthPublish t h corr s
  | .mbxDoorbell t f v => Sys2Proof.Machine.execMbxDoorbell t f v s
  | .mbxRspHeadWrite t f v => Sys2Proof.Machine.execMbxRspHeadWrite t f v s
  | .mbxReset t f irqEn => Sys2Proof.Machine.execMbxReset t f irqEn s
  | .mbxAgePromote t m => Sys2Proof.Machine.execMbxAgePromote t m s
  | .mbxProgressUpdate t m seq => Sys2Proof.Machine.execMbxProgressUpdate t m seq s
  | .mbxThrottleEnd t m => Sys2Proof.Machine.execMbxThrottleEnd t m s
  | .mgmtTlsConnect t anchorHash good => Sys2Proof.Machine.execMgmtTlsConnect t anchorHash good s
  | .mgmtSessionClose t => Sys2Proof.Machine.execMgmtSessionClose t s
  | .i3cPrivateWrite t data => Sys2Proof.Machine.execI3cPrivateWrite t data s
  | .i3cPrivateRead t => Sys2Proof.Machine.execI3cPrivateRead t s
  | .eventDeliver t f src => Sys2Proof.Machine.execEventDeliver t f src s
  | .evtPendWrite t f n data wide => Sys2Proof.Machine.execEvtPendWrite t f n data wide s
  | .evtMaskWrite t f n data wide => Sys2Proof.Machine.execEvtMaskWrite t f n data wide s
  | .evtPrivSetWrite t f data byHost => Sys2Proof.Machine.execEvtPrivSetWrite t f data byHost s
  | .evtPrivClrWrite t f data => Sys2Proof.Machine.execEvtPrivClrWrite t f data s
  | .unknownOpcode t a => Sys2Proof.Machine.execUnknownOpcode t a s
  | .identity t a => Sys2Proof.Machine.execIdentity t a s
  | .haywardHealth t a => Sys2Proof.Machine.execHaywardHealth t a s
  | .pkgStatus t a => Sys2Proof.Machine.execPkgStatus t a s
  | .tileMap t a => Sys2Proof.Machine.execTileMap t a s
  | .stageReport t a => Sys2Proof.Machine.execStageReport t a s
  | .configSet t a => Sys2Proof.Machine.execConfigSet t a s
  | .configGet t a => Sys2Proof.Machine.execConfigGet t a s
  | .configDone t a => Sys2Proof.Machine.execConfigDone t a s
  | .watchListSet t a => Sys2Proof.Machine.execWatchListSet t a s
  | .netConfig t a => Sys2Proof.Machine.execNetConfig t a s
  | .ethGidSet t a => Sys2Proof.Machine.execEthGidSet t a s
  | .channelSet t a => Sys2Proof.Machine.execChannelSet t a s
  | .channelGet t a => Sys2Proof.Machine.execChannelGet t a s
  | .channelResume t a => Sys2Proof.Machine.execChannelResume t a s
  | .qpCreate t a => Sys2Proof.Machine.execQpCreate t a s
  | .qpModify t a => Sys2Proof.Machine.execQpModify t a s
  | .qpDestroy t a => Sys2Proof.Machine.execQpDestroy t a s
  | .mrReg t a => Sys2Proof.Machine.execMrReg t a s
  | .mrDereg t a => Sys2Proof.Machine.execMrDereg t a s
  | .sessionCreate t a => Sys2Proof.Machine.execSessionCreate t a s
  | .partStart t a => Sys2Proof.Machine.execPartStart t a s
  | .partStop t a => Sys2Proof.Machine.execPartStop t a s
  | .partFence t a => Sys2Proof.Machine.execPartFence t a s
  | .partReset t a => Sys2Proof.Machine.execPartReset t a s
  | .partResetComplete t p lanes degraded links tiles => Sys2Proof.Machine.execPartResetComplete t p lanes degraded links tiles s
  | .sessionEnd t a => Sys2Proof.Machine.execSessionEnd t a s
  | .winnowComplete t p k => Sys2Proof.Machine.execWinnowComplete t p k s
  | .partStatus t a => Sys2Proof.Machine.execPartStatus t a s
  | .lptWrite t a => Sys2Proof.Machine.execLptWrite t a s
  | .lptRead t a => Sys2Proof.Machine.execLptRead t a s
  | .linkDisable t a => Sys2Proof.Machine.execLinkDisable t a s
  | .linkEnable t a => Sys2Proof.Machine.execLinkEnable t a s
  | .linkRetrain t a => Sys2Proof.Machine.execLinkRetrain t a s
  | .quarantineRelease t a => Sys2Proof.Machine.execQuarantineRelease t a s
  | .laneDisable t a => Sys2Proof.Machine.execLaneDisable t a s
  | .laneEnable t a => Sys2Proof.Machine.execLaneEnable t a s
  | .laneStatus t a => Sys2Proof.Machine.execLaneStatus t a s
  | .linkStatus t a => Sys2Proof.Machine.execLinkStatus t a s
  | .routerTelemetry t a => Sys2Proof.Machine.execRouterTelemetry t a s
  | .partFabric t a => Sys2Proof.Machine.execPartFabric t a s
  | .grantSet t a => Sys2Proof.Machine.execGrantSet t a s
  | .modeSet t a => Sys2Proof.Machine.execModeSet t a s
  | .powerStateActive t a => Sys2Proof.Machine.execPowerStateActive t a s
  | .powerStateIdle t a => Sys2Proof.Machine.execPowerStateIdle t a s
  | .powerStateFallow t a => Sys2Proof.Machine.execPowerStateFallow t a s
  | .powerStateOff t a => Sys2Proof.Machine.execPowerStateOff t a s
  | .fallowEntryComplete t d => Sys2Proof.Machine.execFallowEntryComplete t d s
  | .fallowExitComplete t d => Sys2Proof.Machine.execFallowExitComplete t d s
  | .fallowWake t => Sys2Proof.Machine.execFallowWake t s
  | .powerStatus t a => Sys2Proof.Machine.execPowerStatus t a s
  | .tallyRead t a => Sys2Proof.Machine.execTallyRead t a s
  | .forecastRead t a => Sys2Proof.Machine.execForecastRead t a s
  | .minuteReport t a => Sys2Proof.Machine.execMinuteReport t a s
  | .flowReport t a => Sys2Proof.Machine.execFlowReport t a s
  | .thermalStatus t a => Sys2Proof.Machine.execThermalStatus t a s
  | .bufAlloc t a => Sys2Proof.Machine.execBufAlloc t a s
  | .bufFree t a => Sys2Proof.Machine.execBufFree t a s
  | .bufQuery t a => Sys2Proof.Machine.execBufQuery t a s
  | .placementMode t a => Sys2Proof.Machine.execPlacementMode t a s
  | .tileMovable t a => Sys2Proof.Machine.execTileMovable t a s
  | .frameMove t a => Sys2Proof.Machine.execFrameMove t a s
  | .placementStatus t a => Sys2Proof.Machine.execPlacementStatus t a s
  | .cellarLend t a => Sys2Proof.Machine.execCellarLend t a s
  | .cellarRelease t a => Sys2Proof.Machine.execCellarRelease t a s
  | .stackHealth t a => Sys2Proof.Machine.execStackHealth t a s
  | .jobJoin t a => Sys2Proof.Machine.execJobJoin t a s
  | .jobLeave t a => Sys2Proof.Machine.execJobLeave t a s
  | .groupCreate t a => Sys2Proof.Machine.execGroupCreate t a s
  | .groupDelete t a => Sys2Proof.Machine.execGroupDelete t a s
  | .groupConfig t a => Sys2Proof.Machine.execGroupConfig t a s
  | .groupStatus t a => Sys2Proof.Machine.execGroupStatus t a s
  | .collStatus t a => Sys2Proof.Machine.execCollStatus t a s
  | .ownerClaim t a => Sys2Proof.Machine.execOwnerClaim t a s
  | .tenantBind t a => Sys2Proof.Machine.execTenantBind t a s
  | .modelKeyRelease t a key tagOk => Sys2Proof.Machine.execModelKeyRelease t a key tagOk s
  | .baleLoad t a => Sys2Proof.Machine.execBaleLoad t a s
  | .linkEncSet t a => Sys2Proof.Machine.execLinkEncSet t a s
  | .encGraceEnd t => Sys2Proof.Machine.execEncGraceEnd t s
  | .cellarKeyRotate t a => Sys2Proof.Machine.execCellarKeyRotate t a s
  | .linkKeyRotate t a => Sys2Proof.Machine.execLinkKeyRotate t a s
  | .cellarRekeyWalk t p good => Sys2Proof.Machine.execCellarRekeyWalk t p good s
  | .cellarOldKeyDestroy t p => Sys2Proof.Machine.execCellarOldKeyDestroy t p s
  | .linkOldKeyDestroy t k => Sys2Proof.Machine.execLinkOldKeyDestroy t k s
  | .keyStatus t a => Sys2Proof.Machine.execKeyStatus t a s
  | .faultLogRead t a => Sys2Proof.Machine.execFaultLogRead t a s
  | .flightSampleRead t a => Sys2Proof.Machine.execFlightSampleRead t a s
  | .replay t a => Sys2Proof.Machine.execReplay t a s
  | .replaySuspectTimeout t p => Sys2Proof.Machine.execReplaySuspectTimeout t p s
  | .replayComplete t p => Sys2Proof.Machine.execReplayComplete t p s
  | .violationRead t a => Sys2Proof.Machine.execViolationRead t a s
  | .jobAbort t a => Sys2Proof.Machine.execJobAbort t a s
  | .fwStage t a bankMv => Sys2Proof.Machine.execFwStage t a bankMv s
  | .fwStageComplete t result bankMv returnOk => Sys2Proof.Machine.execFwStageComplete t result bankMv returnOk s
  | .fwActivate t a => Sys2Proof.Machine.execFwActivate t a s
  | .fwCancel t a => Sys2Proof.Machine.execFwCancel t a s
  | .confirmHealth t a bankMv burnOk => Sys2Proof.Machine.execConfirmHealth t a bankMv burnOk s
  | .fwStatus t a => Sys2Proof.Machine.execFwStatus t a s
  | .confirmWindowExpire t => Sys2Proof.Machine.execConfirmWindowExpire t s
  | .holdupEnergyRecheck t bankMv burnOk => Sys2Proof.Machine.execHoldupEnergyRecheck t bankMv burnOk s
  | .norOpComplete t bytes bankMv => Sys2Proof.Machine.execNorOpComplete t bytes bankMv s
  | .snapshotRead t a => Sys2Proof.Machine.execSnapshotRead t a s
  | .leaseExpire t => Sys2Proof.Machine.execLeaseExpire t s
  | .avsCurrentRead t bus mA => Sys2Proof.Machine.execAvsCurrentRead t bus mA s
  | .railLimiterUpdate t raw => Sys2Proof.Machine.execRailLimiterUpdate t raw s
  | .governorUpdate t => Sys2Proof.Machine.execGovernorUpdate t s
  | .clockCeilingUpdate t fits eff => Sys2Proof.Machine.execClockCeilingUpdate t fits eff s
  | .vfStep t q => Sys2Proof.Machine.execVfStep t q s
  | .ageingTrimUpdate t q => Sys2Proof.Machine.execAgeingTrimUpdate t q s
  | .droopDetect t q => Sys2Proof.Machine.execDroopDetect t q s
  | .droopRecover t q cycles => Sys2Proof.Machine.execDroopRecover t q cycles s
  | .droopThresholdUpdate t q slackMV slackPm => Sys2Proof.Machine.execDroopThresholdUpdate t q slackMV slackPm s
  | .quadrantGate t q => Sys2Proof.Machine.execQuadrantGate t q s
  | .quadrantUngate t q => Sys2Proof.Machine.execQuadrantUngate t q s
  | .tallyIntegrate t shares dieBytes fabBytes => Sys2Proof.Machine.execTallyIntegrate t shares dieBytes fabBytes s
  | .minuteEnd t => Sys2Proof.Machine.execMinuteEnd t s
  | .sensorSample t temps => Sys2Proof.Machine.execSensorSample t temps s
  | .flowReportMissing t => Sys2Proof.Machine.execFlowReportMissing t s
  | .flowFallow t => Sys2Proof.Machine.execFlowFallow t s
  | .flowStop t => Sys2Proof.Machine.execFlowStop t s
  | .flowStopEnd t => Sys2Proof.Machine.execFlowStopEnd t s
  | .drbgHealthFail t => Sys2Proof.Machine.execDrbgHealthFail t s
  | .tapExtest t on => Sys2Proof.Machine.execTapExtest t on s
  | .spdmGetVersion t path => Sys2Proof.Machine.execSpdmGetVersion t path s
  | .spdmGetCapabilities t path => Sys2Proof.Machine.execSpdmGetCapabilities t path s
  | .spdmNegotiateAlgorithms t path => Sys2Proof.Machine.execSpdmNegotiateAlgorithms t path s
  | .spdmGetDigests t path => Sys2Proof.Machine.execSpdmGetDigests t path s
  | .spdmGetCertificate t path slot => Sys2Proof.Machine.execSpdmGetCertificate t path slot s
  | .spdmChallenge t path slot => Sys2Proof.Machine.execSpdmChallenge t path slot s
  | .spdmGetMeasurements t path index signed inSession => Sys2Proof.Machine.execSpdmGetMeasurements t path index signed inSession s
  | .spdmKemOffer t path ek => Sys2Proof.Machine.execSpdmKemOffer t path ek s
  | .spdmKeyExchange t path digest => Sys2Proof.Machine.execSpdmKeyExchange t path digest s
  | .spdmFinish t path cred sigOk => Sys2Proof.Machine.execSpdmFinish t path cred sigOk s
  | .spdmKeyUpdate t path => Sys2Proof.Machine.execSpdmKeyUpdate t path s
  | .spdmHeartbeat t path => Sys2Proof.Machine.execSpdmHeartbeat t path s
  | .spdmEndSession t path => Sys2Proof.Machine.execSpdmEndSession t path s
  | .ideKmKeyProg t path stream assoc => Sys2Proof.Machine.execIdeKmKeyProg t path stream assoc s
  | .faultLogFlush t bankMv => Sys2Proof.Machine.execFaultLogFlush t bankMv s
  | .baleLoadComplete t m seq plain mi returnOk => Sys2Proof.Machine.execBaleLoadComplete t m seq plain mi returnOk s
  | .candidateHolderTimeout t m seq returnOk => Sys2Proof.Machine.execCandidateHolderTimeout t m seq returnOk s
  | .tileCopyEnd t ix => Sys2Proof.Machine.execTileCopyEnd t ix s
  | .haywardSelftestEnd t h pass code => Sys2Proof.Machine.execHaywardSelftestEnd t h pass code s
  | .pcieConfigWrite t f bme d3 fmask => Sys2Proof.Machine.execPcieConfigWrite t f bme d3 fmask s
  | .pcieLinkDown t => Sys2Proof.Machine.execPcieLinkDown t s
  | .pcieLinkUp t width => Sys2Proof.Machine.execPcieLinkUp t width s
  | .ethLinkDown t port => Sys2Proof.Machine.execEthLinkDown t port s
  | .ethLinkUp t port => Sys2Proof.Machine.execEthLinkUp t port s
  | .seqHoldEnd t ep q => Sys2Proof.Machine.execSeqHoldEnd t ep q s

end Sys2Proof.Machine
end

