-- ==== Sys2Proof/WellFormed.lean ====
section
/-!
DEFINITION. WellFormed.lean: the commands whose operands name things the package has, and whose lists have the lengths their rows
give. A meaning never needs this: it does nothing where an operand names nothing.
-/
namespace Sys2Proof

/-- Seven mailboxes, and a 64-byte slot (13 Tables 13-3, 13-6). -/
def MbxArgs.wf (a : MbxArgs) : Bool := decide (a.mb < 7) && decide (a.slot < 2 ^ 512)

/-- Twelve stacks, and 72 symbols to a line (07 R167). -/
def LineErr.wf (e : LineErr) : Bool := decide (e.stack < 12) && e.syms.all (· < 72)

def MemIn.wf (m : MemIn) : Bool := m.errs.all LineErr.wf && m.badSectors.all (fun e => decide (e.1 < 4))

/-- A scratchpad has 327,680 8-byte words (04 R116). -/
def SpadIn.wf (i : SpadIn) : Bool := i.bad.all (· < 327680)

/-- 64 pseudo-channels of 36 lanes to a stack (07 R166); at most two lanes of one are marked, by one cause each (R172). -/
def LaneTrain.wf (l : LaneTrain) : Bool := decide (l.stack < 12) && decide (l.lane < 2304) && decide (l.marked < 3)

/-- A stack and one of its pseudo-channels. -/
def pseudoChannel (e : Nat × Nat) : Bool := decide (e.1 < 12) && decide (e.2 < 64)

/-- A lane of a link, or 255 for packets between the package's own endpoints. -/
def laneOrLocal (n : Nat) : Bool := decide (n < 213) || n == 255

def EthFrame.wf (f : EthFrame) : Bool :=
  match f with
  | .roce qpn _ psn _ _ => decide (qpn < 2 ^ 24) && decide (psn < 2 ^ 24)
  | .arp a => decide (a < 2 ^ 32)
  | .solicit a => decide (a < 2 ^ 128)
  | .other => true

/-- An RC field of a function's BAR0, or of a core's CSRs. -/
def RcTarget.wf (r : RcTarget) : Bool :=
  match r with
  | .bar0 f off _ => decide (f < 5) && decide (off < 65536)
  | .spadEcc c => decide (c < 1152)

def RegTarget.wf (r : RegTarget) : Bool :=
  match r with
  | .bar0 f off data wide => decide (f < 5) && decide (off < 65536) && decide (data < 2 ^ (if wide then 64 else 32))
  | .bar2 f off data _ => decide (f < 5) && decide (off + data.length ≤ 65536)
  | .csr c addr v => decide (c < 1152) && decide (addr < 4096) && decide (v < 2 ^ 64)

/-- The operands of a command name things the package has. -/
def Instr.wf (i : Instr) : Bool :=
  match i with
  | .powerUp _ => true
  | .coldReset _ _ _ => true
  | .pinFilterChange _ pin _ _ => decide (pin < 3)
  | .bringupS0 _ strap _ _ _ => decide (strap < 128)
  | .bringupS1 _ failA failB => failA.all (· < 3) && failB.all (· < 3)
  | .bringupS2 _ _ _ _ _ _ => true
  | .bringupS3 _ d2d stk => decide (d2d < 4) && decide (stk < 2 ^ 12)
  | .bringupS4 _ bist trims => bist.all (· < 312) && trims.length == 8
  | .bringupS5 _ _ tiles glns _ => tiles.all (· < 312) && glns.all (· < 12)
  | .bringupS6 _ lanes degraded peaks => lanes.all LaneTrain.wf && degraded.all pseudoChannel && peaks.length == 12
  | .memoryTestStep _ _ _ => true
  | .bringupS7 _ margins => margins.length == 3
  | .bringupS8 _ => true
  | .stageLimitExpire _ => true
  | .railPgLoss _ rail => decide (rail < 19)
  | .tickSyncEdge _ _ => true
  | .tickWindowExpire _ => true
  | .syncLost _ => true
  | .freeRunTick _ => true
  | .tickBoundary _ causes => causes.length == 4
  | .overrunNotice _ n _ => laneOrLocal n
  | .sheafHung _ p => decide (p < 4)
  | .sequencerWatchdog _ c => decide (c < 1152)
  | .engineStall _ u i => [1, 2, 3, 5, 6, 7].contains u && decide (i < (if u == 7 then 12 else 288))
  | .fenceDrainEnd _ p => decide (p < 4)
  | .flightSampleStore _ p => decide (p < 4)
  | .wqPush _ c d7 => decide (c < 1152) && decide (d7 < 2 ^ 64)
  | .wqPushaddr _ c v si => decide (c < 1152) && decide (v < 2 ^ 64) && si.wf
  | .wqPushUnstall _ c => decide (c < 1152)
  | .wqResume _ c => decide (c < 1152)
  | .wqFlush _ c => decide (c < 1152)
  | .ccValWrite _ c _ => decide (c < 1152)
  | .ccAddWrite _ c _ => decide (c < 1152)
  | .vseedWrite _ c v => decide (c < 1152) && decide (v < 2 ^ 64)
  | .vseedApply _ c => decide (c < 1152)
  | .sheafDoneWrite _ c _ => decide (c < 1152)
  | .sheafNextRead _ c => decide (c < 1152)
  | .rcFieldRead _ r => r.wf
  | .bar0BadAccess _ f _ _ _ => decide (f < 5)
  | .registerWrite _ r => r.wf
  | .descriptorIssue _ i u => decide (i < 288) && decide (1 ≤ u) && decide (u ≤ 6)
  | .descriptorFail _ c u _ => decide (c < 1152) && decide (1 ≤ u) && decide (u ≤ 6)
  | .mmaComplete _ i si => decide (i < 288) && si.wf
  | .vopConvert _ i si => decide (i < 288) && si.wf
  | .vopAdd _ i si => decide (i < 288) && si.wf
  | .vopSub _ i si => decide (i < 288) && si.wf
  | .vopMul _ i si => decide (i < 288) && si.wf
  | .vopFma _ i si => decide (i < 288) && si.wf
  | .vopMin _ i si => decide (i < 288) && si.wf
  | .vopMax _ i si => decide (i < 288) && si.wf
  | .vopAbs _ i si => decide (i < 288) && si.wf
  | .vopNeg _ i si => decide (i < 288) && si.wf
  | .vopRcp _ i si => decide (i < 288) && si.wf
  | .vopRsqrt _ i si => decide (i < 288) && si.wf
  | .vopExp2 _ i si => decide (i < 288) && si.wf
  | .vopLog2 _ i si => decide (i < 288) && si.wf
  | .vopCmpgt _ i si => decide (i < 288) && si.wf
  | .vopCmpeq _ i si => decide (i < 288) && si.wf
  | .tileDmaCopy _ c _ mi si => decide (c < 1152) && mi.wf && si.wf
  | .tileDmaFence _ c _ => decide (c < 1152)
  | .syncAdd _ c _ => decide (c < 1152)
  | .syncSet _ c _ => decide (c < 1152)
  | .syncNone _ c _ => decide (c < 1152)
  | .streamOutBlockSend _ c _ mi si => decide (c < 1152) && mi.wf && si.wf
  | .streamOutComplete _ c _ => decide (c < 1152)
  | .gleanerDescComplete _ c _ => decide (c < 1152)
  | .gleanerFwdTimeout _ c _ => decide (c < 1152)
  | .boardLoad _ c _ n mi => decide (c < 1152) && [1, 2, 4, 8].contains n && mi.wf
  | .boardStore _ c _ n _ mi => decide (c < 1152) && [1, 2, 4, 8].contains n && mi.wf
  | .seqFenceComplete _ c => decide (c < 1152)
  | .tileMoveStart _ i => decide (i < 288)
  | .tileMoveAbandon _ i => decide (i < 288)
  | .wainFetch _ ch mi si => decide (ch < 1024) && mi.wf && si.wf
  | .wainBurstIssue _ e mi si => decide (e < 32) && mi.wf && si.wf
  | .wainAgePromote _ ch => decide (ch < 1024)
  | .wainBurstWrite _ e mi => decide (e < 32) && mi.wf
  | .wainCopy _ ch => decide (ch < 1024)
  | .wainFence _ ch => decide (ch < 1024)
  | .wainTimeout _ e _ => decide (e < 32)
  | .wainStall _ ch => decide (ch < 1024)
  | .gleanerDispatch _ k mi si => decide (k < 12) && mi.wf && si.wf
  | .gleanerAgePromote _ k => decide (k < 12)
  | .scoreScan _ k mi si => decide (k < 12) && mi.wf && si.wf
  | .weightedAcc _ k mi si => decide (k < 12) && mi.wf && si.wf
  | .accMem _ k mi si => decide (k < 12) && mi.wf && si.wf
  | .optUpdate _ k mi si => decide (k < 12) && mi.wf && si.wf
  | .gather _ k mi si => decide (k < 12) && mi.wf && si.wf
  | .scatter _ k mi si => decide (k < 12) && mi.wf && si.wf
  | .unpack _ k mi si => decide (k < 12) && mi.wf && si.wf
  | .gleanerFill _ k mi si => decide (k < 12) && mi.wf && si.wf
  | .gleanerCopy _ k mi si => decide (k < 12) && mi.wf && si.wf
  | .patternTest _ k mi si => decide (k < 12) && mi.wf && si.wf
  | .gleanerComplete _ k _ mi => decide (k < 12) && mi.wf
  | .gleanerCmdExpire _ k mi => decide (k < 12) && mi.wf
  | .memWriteback _ k _ => decide (k < 12)
  | .laneMark _ k pc lane => decide (k < 12) && decide (pc < 64) && decide (lane < 36)
  | .readTimingWindow _ k pc lane e lt =>
    decide (k < 12) && decide (pc < 64) && decide (lane < 36) && decide (e ≤ 16384) && decide (lt ≤ 16384)
  | .probeRead _ k pc lanes => decide (k < 12) && decide (pc < 64) && lanes.all (· < 36)
  | .patrolRead _ k mi => decide (k < 12) && mi.wf
  | .patrolLevelUpdate _ k => decide (k < 12)
  | .cellarRead _ p _ => decide (p < 4)
  | .cellarFetchComplete _ p _ _ => decide (p < 4)
  | .cellarWrite _ p _ off bs mi => decide (p < 4) && decide (off + bs.length ≤ 4096) && mi.wf
  | .cellarEvict _ p _ _ => decide (p < 4)
  | .migrationCopyEnd _ k _ mi => decide (k < 12) && mi.wf
  | .stubRetire _ k _ => decide (k < 12)
  | .frameFillDone _ k _ => decide (k < 12)
  | .frozenExpire _ ses => decide (ses < 2 ^ 16)
  | .linkSignalDetect _ n => decide (n < 213)
  | .linkTrainComplete _ k _ _ _ _ far margins => decide (k < 71) && decide (far < 8) && margins.length == 3
  | .linkTrainRetry _ k => decide (k < 71)
  | .loopbackRetrain _ margins => margins.length == 3
  | .codewordReceive _ n _ _ flits => decide (n < 213) && flits.all (· < 2 ^ 256)
  | .laneSignalLost _ n => decide (n < 213)
  | .marginWindow _ n _ _ => decide (n < 213)
  | .rxAdaptUpdate _ n _ _ _ => decide (n < 213)
  | .laneRetrainComplete _ n _ _ => decide (n < 213)
  | .linkFlitIdle _ n => decide (n < 213)
  | .linkFlitStatus _ n => decide (n < 213)
  | .linkFlitCredit _ n => decide (n < 213)
  | .linkFlitAdapt _ n => decide (n < 213)
  | .packetInject _ _ => true
  | .linkOutputSelect _ k n => decide (k < 71) && decide (n < 3)
  | .vcAgePromote _ k vc => decide (k < 71) && decide (1 ≤ vc) && decide (vc ≤ 5)
  | .packetForward _ n _ => laneOrLocal n
  | .packetAgedOut _ k _ => decide (k < 71)
  | .malformedPacket _ n _ => laneOrLocal n
  | .truncate _ n _ => laneOrLocal n
  | .write _ n _ _ mi => laneOrLocal n && mi.wf
  | .readReq _ n _ _ mi si => laneOrLocal n && mi.wf && si.wf
  | .readResp _ n _ => laneOrLocal n
  | .writeAck _ n _ => laneOrLocal n
  | .writeAckSend _ _ => true
  | .syncAddPacket _ n _ _ => laneOrLocal n
  | .syncSetPacket _ n _ _ => laneOrLocal n
  | .syncAck _ n _ => laneOrLocal n
  | .gleanerCmd _ n _ _ => laneOrLocal n
  | .gleanerDone _ n _ => laneOrLocal n
  | .nack _ n _ => laneOrLocal n
  | .abort _ n _ => laneOrLocal n
  | .keyXchgHello _ rx n _ _ => decide (n < (if rx then 213 else 71))
  | .keyXchgReply _ rx n _ => decide (n < (if rx then 213 else 71))
  | .keyXchgFinish _ rx n _ => decide (n < (if rx then 213 else 71))
  | .keyXchgRetry _ k => decide (k < 71)
  | .scrubNotice _ n _ => laneOrLocal n
  | .linkmap _ n _ => laneOrLocal n
  | .linkmapSend _ => true
  | .haywardMsg _ n _ _ => laneOrLocal n
  | .markKUpdate _ k _ => decide (k < 71)
  | .rateAiPeriod _ l => decide (l < 64)
  | .requestTimeout _ _ _ => true
  | .collAllReduce _ job group part mi si =>
    decide (job < 2 ^ 16) && decide (group < 2 ^ 12) && decide (part < 4) && mi.wf && si.wf
  | .collReduceScatter _ job group part mi si =>
    decide (job < 2 ^ 16) && decide (group < 2 ^ 12) && decide (part < 4) && mi.wf && si.wf
  | .collAllGather _ job group part mi si =>
    decide (job < 2 ^ 16) && decide (group < 2 ^ 12) && decide (part < 4) && mi.wf && si.wf
  | .collAllToAll _ job group part mi si =>
    decide (job < 2 ^ 16) && decide (group < 2 ^ 12) && decide (part < 4) && mi.wf && si.wf
  | .collBroadcast _ job group part mi si =>
    decide (job < 2 ^ 16) && decide (group < 2 ^ 12) && decide (part < 4) && mi.wf && si.wf
  | .collReduce _ job group part mi si =>
    decide (job < 2 ^ 16) && decide (group < 2 ^ 12) && decide (part < 4) && mi.wf && si.wf
  | .collBarrier _ job group part mi si =>
    decide (job < 2 ^ 16) && decide (group < 2 ^ 12) && decide (part < 4) && mi.wf && si.wf
  | .collChannelFetch _ ch mi si => decide (ch < 64) && mi.wf && si.wf
  | .collReady _ n _ rk mi si => laneOrLocal n && decide (rk < 64) && mi.wf && si.wf
  | .collExp _ n _ rk mi si => laneOrLocal n && decide (rk < 64) && mi.wf && si.wf
  | .collAgreed _ n _ rk mi si => laneOrLocal n && decide (rk < 64) && mi.wf && si.wf
  | .collContrib _ n _ rk mi => laneOrLocal n && decide (rk < 64) && mi.wf
  | .collResult _ n _ rk mi => laneOrLocal n && decide (rk < 64) && mi.wf
  | .collArrive _ n _ rk mi => laneOrLocal n && decide (rk < 64) && mi.wf
  | .collFail _ n _ rk mi => laneOrLocal n && decide (rk < 64) && mi.wf
  | .chunkComplete _ job group part _ _ mi si =>
    decide (job < 2 ^ 16) && decide (group < 2 ^ 12) && decide (part < 4) && mi.wf && si.wf
  | .collComplete _ job group part _ mi => decide (job < 2 ^ 16) && decide (group < 2 ^ 12) && decide (part < 4) && mi.wf
  | .collTimeout _ job group part _ mi => decide (job < 2 ^ 16) && decide (group < 2 ^ 12) && decide (part < 4) && mi.wf
  | .thresherRestart _ th mi => decide (th < 8) && mi.wf
  | .bar4Read _ f _ _ _ mi => decide (1 ≤ f) && decide (f < 5) && mi.wf
  | .bar4Write _ f _ _ _ mi => decide (1 ≤ f) && decide (f < 5) && mi.wf
  | .pcieReset _ => true
  | .flr _ f => decide (f < 5)
  | .deviceReadTimeout _ p _ => decide (p < 4)
  | .ideIntegrityFail _ f i => decide (1 ≤ f) && decide (f < 5) && decide (i < 2)
  | .ethFrameReceive _ port f => decide (port < 2) && f.wf
  | .rdmaInbound _ port mi => decide (port < 2) && mi.wf
  | .qpRingFetch _ q _ mi si => decide (q < 4096) && mi.wf && si.wf
  | .roceSend _ q mi => decide (q < 4096) && mi.wf
  | .roceSendImm _ q mi => decide (q < 4096) && mi.wf
  | .roceWrite _ q mi => decide (q < 4096) && mi.wf
  | .roceWriteImm _ q mi => decide (q < 4096) && mi.wf
  | .roceRead _ q => decide (q < 4096)
  | .roceRecv _ q => decide (q < 4096)
  | .roceWrComplete _ q _ mi => decide (q < 4096) && mi.wf
  | .roceAckTimeout _ q => decide (q < 4096)
  | .roceCnp _ port => decide (port < 2)
  | .roceRateIncrease _ q => decide (q < 4096)
  | .pfcPauseReceive _ port prio quanta => decide (port < 2) && decide (prio < 8) && decide (quanta < 2 ^ 16)
  | .haywardCheckFail _ h code => decide (h < 2) && decide (1 ≤ code) && decide (code ≤ 6)
  | .haywardWatchdogExpire _ _ => true
  | .haywardTakeover _ => true
  | .haywardIslandRestart _ h => decide (h < 2)
  | .haywardRevert _ => true
  | .haywardHealthPublish _ h _ => decide (h < 2)
  | .mbxDoorbell _ f _ => decide (f < 5)
  | .mbxRspHeadWrite _ f _ => decide (f < 5)
  | .mbxReset _ f _ => decide (f < 5)
  | .mbxAgePromote _ m => decide (m < 7)
  | .mbxProgressUpdate _ m seq => decide (m < 7) && decide (seq < 2 ^ 16)
  | .mbxThrottleEnd _ m => decide (m < 7)
  | .mgmtTlsConnect _ _ _ => true
  | .mgmtSessionClose _ => true
  | .i3cPrivateWrite _ data => decide (data.length ≤ 2 ^ 16)
  | .i3cPrivateRead _ => true
  | .eventDeliver _ f src => decide (f < 5) && decide (src < 512)
  | .evtPendWrite _ f n data wide =>
    decide (f < 5) && decide (n < 16) && !(wide && n % 2 == 1) && decide (data < 2 ^ (if wide then 64 else 32))
  | .evtMaskWrite _ f n data wide =>
    decide (f < 5) && decide (n < 16) && !(wide && n % 2 == 1) && decide (data < 2 ^ (if wide then 64 else 32))
  | .evtPrivSetWrite _ f _ _ => decide (f < 5)
  | .evtPrivClrWrite _ f _ => decide (f < 5)
  | .unknownOpcode _ a => a.wf
  | .identity _ a => a.wf
  | .haywardHealth _ a => a.wf
  | .pkgStatus _ a => a.wf
  | .tileMap _ a => a.wf
  | .stageReport _ a => a.wf
  | .configSet _ a => a.wf
  | .configGet _ a => a.wf
  | .configDone _ a => a.wf
  | .watchListSet _ a => a.wf
  | .netConfig _ a => a.wf
  | .ethGidSet _ a => a.wf
  | .channelSet _ a => a.wf
  | .channelGet _ a => a.wf
  | .channelResume _ a => a.wf
  | .qpCreate _ a => a.wf
  | .qpModify _ a => a.wf
  | .qpDestroy _ a => a.wf
  | .mrReg _ a => a.wf
  | .mrDereg _ a => a.wf
  | .sessionCreate _ a => a.wf
  | .partStart _ a => a.wf
  | .partStop _ a => a.wf
  | .partFence _ a => a.wf
  | .partReset _ a => a.wf
  | .partResetComplete _ p lanes degraded links tiles =>
    decide (p < 4) && lanes.all LaneTrain.wf && degraded.all pseudoChannel && links.all (· < 12) && tiles.all (· < 312)
  | .sessionEnd _ a => a.wf
  | .winnowComplete _ p k => decide (p < 4) && decide (1 ≤ k)
  | .partStatus _ a => a.wf
  | .lptWrite _ a => a.wf
  | .lptRead _ a => a.wf
  | .linkDisable _ a => a.wf
  | .linkEnable _ a => a.wf
  | .linkRetrain _ a => a.wf
  | .quarantineRelease _ a => a.wf
  | .laneDisable _ a => a.wf
  | .laneEnable _ a => a.wf
  | .laneStatus _ a => a.wf
  | .linkStatus _ a => a.wf
  | .routerTelemetry _ a => a.wf
  | .partFabric _ a => a.wf
  | .grantSet _ a => a.wf
  | .modeSet _ a => a.wf
  | .powerStateActive _ a => a.wf
  | .powerStateIdle _ a => a.wf
  | .powerStateFallow _ a => a.wf
  | .powerStateOff _ a => a.wf
  | .fallowEntryComplete _ d => decide (d < 2)
  | .fallowExitComplete _ d => decide (d < 2)
  | .fallowWake _ => true
  | .powerStatus _ a => a.wf
  | .tallyRead _ a => a.wf
  | .forecastRead _ a => a.wf
  | .minuteReport _ a => a.wf
  | .flowReport _ a => a.wf
  | .thermalStatus _ a => a.wf
  | .bufAlloc _ a => a.wf
  | .bufFree _ a => a.wf
  | .bufQuery _ a => a.wf
  | .placementMode _ a => a.wf
  | .tileMovable _ a => a.wf
  | .frameMove _ a => a.wf
  | .placementStatus _ a => a.wf
  | .cellarLend _ a => a.wf
  | .cellarRelease _ a => a.wf
  | .stackHealth _ a => a.wf
  | .jobJoin _ a => a.wf
  | .jobLeave _ a => a.wf
  | .groupCreate _ a => a.wf
  | .groupDelete _ a => a.wf
  | .groupConfig _ a => a.wf
  | .groupStatus _ a => a.wf
  | .collStatus _ a => a.wf
  | .ownerClaim _ a => a.wf
  | .tenantBind _ a => a.wf
  | .modelKeyRelease _ a _ _ => a.wf
  | .baleLoad _ a => a.wf
  | .linkEncSet _ a => a.wf
  | .encGraceEnd _ => true
  | .cellarKeyRotate _ a => a.wf
  | .linkKeyRotate _ a => a.wf
  | .cellarRekeyWalk _ p _ => decide (p < 4)
  | .cellarOldKeyDestroy _ p => decide (p < 4)
  | .linkOldKeyDestroy _ k => decide (k < 71)
  | .keyStatus _ a => a.wf
  | .faultLogRead _ a => a.wf
  | .flightSampleRead _ a => a.wf
  | .replay _ a => a.wf
  | .replaySuspectTimeout _ p => decide (p < 4)
  | .replayComplete _ p => decide (p < 4)
  | .violationRead _ a => a.wf
  | .jobAbort _ a => a.wf
  | .fwStage _ a _ => a.wf
  | .fwStageComplete _ result _ _ => decide (result < 3)
  | .fwActivate _ a => a.wf
  | .fwCancel _ a => a.wf
  | .confirmHealth _ a _ _ => a.wf
  | .fwStatus _ a => a.wf
  | .confirmWindowExpire _ => true
  | .holdupEnergyRecheck _ _ _ => true
  | .norOpComplete _ bytes _ => decide (bytes ≤ 256)
  | .snapshotRead _ a => a.wf
  | .leaseExpire _ => true
  | .avsCurrentRead _ bus _ => decide (bus < 4)
  | .railLimiterUpdate _ raw => raw.length == 19
  | .governorUpdate _ => true
  | .clockCeilingUpdate _ _ eff => eff.length == 8
  | .vfStep _ q => decide (q < 8)
  | .ageingTrimUpdate _ q => decide (q < 8)
  | .droopDetect _ q => decide (q < 8)
  | .droopRecover _ q _ => decide (q < 8)
  | .droopThresholdUpdate _ q _ _ => decide (q < 8)
  | .quadrantGate _ q => decide (q < 8)
  | .quadrantUngate _ q => decide (q < 8)
  | .tallyIntegrate _ shares _ _ => shares.length == 12
  | .minuteEnd _ => true
  | .sensorSample _ temps => temps.length == 116
  | .flowReportMissing _ => true
  | .flowFallow _ => true
  | .flowStop _ => true
  | .flowStopEnd _ => true
  | .drbgHealthFail _ => true
  | .tapExtest _ _ => true
  | .spdmGetVersion _ path => decide (path < 5)
  | .spdmGetCapabilities _ path => decide (path < 5)
  | .spdmNegotiateAlgorithms _ path => decide (path < 5)
  | .spdmGetDigests _ path => decide (path < 5)
  | .spdmGetCertificate _ path _ => decide (path < 5)
  | .spdmChallenge _ path _ => decide (path < 5)
  | .spdmGetMeasurements _ path _ _ _ => decide (path < 5)
  | .spdmKemOffer _ path _ => decide (path < 5)
  | .spdmKeyExchange _ path _ => decide (path < 5)
  | .spdmFinish _ path _ _ => decide (path < 5)
  | .spdmKeyUpdate _ path => decide (path < 5)
  | .spdmHeartbeat _ path => decide (path < 5)
  | .spdmEndSession _ path => decide (path < 5)
  | .ideKmKeyProg _ path stream assoc => decide (path < 5) && decide (stream < 2) && decide (assoc.length ≤ 2)
  | .faultLogFlush _ _ => true
  | .baleLoadComplete _ m seq _ mi _ => decide (m < 7) && decide (seq < 2 ^ 16) && mi.wf
  | .candidateHolderTimeout _ m seq _ => decide (m < 7) && decide (seq < 2 ^ 16)
  | .tileCopyEnd _ i => decide (i < 288)
  | .haywardSelftestEnd _ h _ _ => decide (h < 2)
  | .pcieConfigWrite _ f _ _ _ => decide (f < 5)
  | .pcieLinkDown _ => true
  | .pcieLinkUp _ width => [1, 2, 4, 8, 16].contains width
  | .ethLinkDown _ port => decide (port < 2)
  | .ethLinkUp _ port => decide (port < 2)
  | .seqHoldEnd _ _ _ => true

end Sys2Proof
end

