-- ==== Sys2Proof/Safety.lean ====
section
/-!
DEFINITION. Safety.lean: the terms the statements use: that a command completes, that a mailbox command is accepted and
answered, what a command leaves alone, and the invariants.
-/
namespace Sys2Proof.Machine

/-! ## Completion -/

/-- The command's answer at `s` is a next state, of which `Q` holds. -/
def Completes (i : Instr) (s : State) (Q : State → Prop) : Prop :=
  ∃ u, exec i s = Host.Outcome.next u ∧ Q u

/-- The command's answer at `s` is the next state `u`. -/
def Gives (i : Instr) (s u : State) : Prop := exec i s = Host.Outcome.next u

/-- `e` at the command's instant; the queue and the start of the AON counter are not a command's to change. -/
def Settled (t : Nat) (s e : State) : State := { e with now := max s.now t, powerUpAt := s.powerUpAt, pending := s.pending }

/-! ## What is left alone -/

/-- `u` is `e` but for the Event Hub and the outbox: what events that fire may change (14 R348, R351, R355). -/
def ButEvents (e u : State) : Prop := u = { e with evt := u.evt, outbox := u.outbox }

/-- `u` is `e` but for the mailboxes, their windows, the Event Hub and the outbox: what taking and answering a mailbox command
may change (13 R332, R337 to R339). -/
def ButMail (e u : State) : Prop :=
  u = { e with mbx := u.mbx, evt := u.evt, outbox := u.outbox, mem := { e.mem with win := u.mem.win } }

/-! ## Mailbox commands (13) -/

/-- Hayward takes the request `r` that `a` offers next (R332), it is of the catalogue's row `c`, and with the row's own
conditions `k` no check of Table 13-7 turns it away. -/
structure Accepts (s : State) (a : MbxArgs) (c : Cmd) (k : Chk) (r : Req) : Prop where
  next : nextReq s a = some r
  row : r.opcode = c.opcode
  pass : check (take s a.mb) c k r
    (!(r.ploc == 2 && decide (0 < r.len)) || (a.fetchOk && canMaster (take s a.mb) a.mb)) a.hwFault = 0

/-- The response's return to host memory fails, so its payload is lost (R340). -/
def ReturnFails (u : State) (r : Req) (bs : List Byte) (returnOk : Bool) : Prop :=
  r.ploc = 2 ∧ r.mb ≤ 4 ∧ bs ≠ [] ∧ ¬(returnOk = true ∧ canMaster u r.mb = true)

/-- The response slot of a request (Table 13-6). -/
def replySlot (s : State) (r : Req) (st est : Nat) (bs : List Byte) : List Byte :=
  rspSlot (flightOf s r .storeWait) st est bs

/-- The slot stands where the mailbox's responses go: the newest entry of its ring, the management port, or I3C (R337, R345,
R346). -/
def SlotPosted (u : State) (m : Nat) (slot inline : List Byte) : Prop :=
  if m ≤ 4 then winRead u m (0x400 + 64 * (((boxOf u m).rspTail + 15) % 16)) 64 = slot
  else if m = 5 then Output.mgmtRsp (leNat slot) inline ∈ u.outbox
  else u.mbx.i3cRsp = some (leNat slot)

/-- The final response to `r` is posted, with status `st` and payload `bs` in its place (R337 to R340). -/
def Replied (u : State) (r : Req) (st : Nat) (bs : List Byte) (returnOk : Bool) : Prop :=
  (¬ReturnFails u r bs returnOk →
    SlotPosted u r.mb (replySlot u r st 0 bs) (if 32 < bs.length then bs else []) ∧
    (r.mb ≤ 4 → r.ploc = 1 → winRead u r.mb (0x1000 * r.buf) bs.length = bs) ∧
    (r.mb ≤ 4 → r.ploc = 2 → bs ≠ [] → Output.hostWrite r.mb r.hostAddr bs ∈ u.outbox)) ∧
  (ReturnFails u r bs returnOk → SlotPosted u r.mb (replySlot u r 0x40 0 []) [])

/-- The mailbox command's answer at `s`: the response with status `st` and payload `bs` is posted, and apart from the
mailboxes and the events the next state is `e`. -/
def Answers (i : Instr) (s : State) (r : Req) (st : Nat) (bs : List Byte) (returnOk : Bool) (e : State) : Prop :=
  Completes i s fun u => Replied u r st bs returnOk ∧ ButMail e u

/-- The mailbox command is in flight with kind `k` and its IN_PROGRESS response is owed or posted (R341); apart from the
mailboxes and the events the next state is `e`, up to the free value the estimate draws. -/
def Starts (i : Instr) (s : State) (r : Req) (k : BgKind) (e : State) : Prop :=
  Completes i s fun u =>
    (∃ f ∈ u.mbx.flight, f.mb = r.mb ∧ f.seq = r.seq ∧ f.opcode = r.opcode ∧ f.kind = k ∧ f.estEnd ≠ none) ∧
    ButMail { e with freeCtr := u.freeCtr } u

/-! ## Packets (10) -/

/-- A packet of opcode `op` for this position, with header `h`, heads lane `n`, of a link or of the package's own endpoints, and is
neither a violation (Table 10-6), refused by quarantine, nor STALE_DEST; `s1` is `s` with it taken and counted and its flits
returned, `pay` its payload in clear (R248, R254). -/
structure Arrives (s : State) (n op : Nat) (opened : Option (List Byte)) (p : Pkt) (s1 : State) (h : Nat) (pay : List Byte) :
    Prop where
  head : laneHead s n = some p
  hdr : p.hdr = h
  packet : bits h 0 16 ≠ 0xFFFF
  row : hOp h = op
  here : hDestPos h = s.boot.posId
  way : (n = localLane ∧ s1 = popLane s n ∧ pay = p.pay) ∨
    (n ≠ localLane ∧ classify s (n / 3) h opened = none ∧ usable s (n / 3) = true ∧
      (op = 0x30 ∨ op = 0x32 ∨ lpkgOf s s.boot.posId = some (hDestEid h / 1024)) ∧ quarDrop s (n / 3) h = false ∧
      s1 = freeFlits (countRx (popLane s n) (n / 3) h) (n / 3) (pairOf h) (pktFlits h) ∧ pay = clearPay p opened)

/-! ## Invariants -/

/-- The AON counter, which runs from the latest power-up, has a value: the present instant is not before it (log 1). -/
def AonInv (s : State) : Prop := s.powerUpAt ≤ s.now

end Sys2Proof.Machine
end

