-- ==== Sys2Proof/Certificates/Slice0/Obligations.lean ====
section
/-!
DEFINITION. Certificates/Slice0/Obligations.lean: the statements for the provers.
-/
open Sys2Proof Sys2Proof.Machine

/-- Step runs the front command: the queue's first command is taken out, and the answer is exec's on the state with the queue's
rest (the model's queue of waiting commands, log 3). On an empty queue the block idles: the step answers the same state (log 3,
the model's choice). -/
def Obligations.StepRunsFrontCommand : Prop :=
  (∀ (c : Instr) (rest : List Instr) (s : State), s.pending = c :: rest → step s = exec c { s with pending := rest }) ∧
  (∀ s : State, s.pending = [] → step s = Host.Outcome.next s)

/-- No command stops the machine: exec answers a next state for every command and every state, it leaves the queue as it found
it, and the present instant does not move back (logs 1 and 3). -/
def Obligations.EveryCommandGoesOn : Prop :=
  ∀ (i : Instr) (s : State), ∃ u, exec i s = Host.Outcome.next u ∧ u.pending = s.pending ∧ s.now ≤ u.now ∧
    ((∀ t, i ≠ .powerUp t) → u.powerUpAt = s.powerUpAt)

/-- A run of `n` steps from any state answers a next state, has taken exactly the first `n` commands off the queue in their
order, and has not moved the present instant back: every command that waits is reached, and none stops the machine. -/
def Obligations.RunTakesCommandsInOrder : Prop :=
  ∀ (n : Nat) (s : State), ∃ u, Host.Core.run core n s = Host.Outcome.next u ∧ u.pending = s.pending.drop n ∧ s.now ≤ u.now

/-- The AON counter, which runs from the latest power-up, always has a value: no step makes the present instant earlier than
that power-up (log 1). -/
def Obligations.StepKeepsAonCounter : Prop :=
  ∀ s u : State, AonInv s → step s = Host.Outcome.next u → AonInv u

/-- The invariant of the AON counter and the memories' canonical form hold right after power-up (logs 1 and 5). -/
def Obligations.ResetHoldsInvariants : Prop :=
  AonInv State.reset ∧ Memory.wf State.reset.mem = true ∧ State.reset.pending = []

/-- The tick generator (02 R33 to R38): an edge in the window closes the frame 40 ns later, and any other counts out of window;
a window that closes empty inserts a tick at T + T/8; eight such frames lose sync; in FREE_RUN a tick comes every T, an edge
within T/8 of its tick counts toward the relock, which the fourth in a row brings, and one farther off starts the run anew. -/
def Obligations.TickGeneratorFollows : Prop :=
  ∀ (t high : Nat) (s : State) (k : Tick), s.tick = k → k.running = true →
    (k.state ∈ [.acquiring, .locked] →
      (k.edgeSeen = false → k.due = none → k.base + 1000 * k.periodUs ≤ max s.now t + 125 * k.periodUs →
        max s.now t ≤ k.base + 1000 * k.periodUs + 125 * k.periodUs → Gives (.tickSyncEdge t high) s { s.clock t with tick := { k with
          due := some (max s.now t + 40), edgeSeen := true, missRun := 0,
          lastOffset := (max s.now t : Int) - ((k.base + 1000 * k.periodUs : Nat) : Int), sf := sfStep k.sf (symbolOf high) } }) ∧
      (k.edgeSeen = true ∨ k.due ≠ none ∨ max s.now t + 125 * k.periodUs < k.base + 1000 * k.periodUs ∨
          k.base + 1125 * k.periodUs < max s.now t → Completes (.tickSyncEdge t high) s fun u =>
        u = { s.clock t with tick := { k with rc := u.tick.rc } } ∧ ∀ f < 5, mget {} u.tick.rc f =
          { (mget {} k.rc f : TickRc) with oow := satAdd max32 (mget {} k.rc f : TickRc).oow 1 }) ∧
      (k.edgeSeen = false → k.due = none → k.base + 1125 * k.periodUs < max s.now t → Completes (.tickWindowExpire t) s fun u =>
        u = { s.clock t with tick := { k with
          rc := u.tick.rc, due := some (k.base + 1125 * k.periodUs), missRun := min 8 (k.missRun + 1), sf := sfDrop k.sf } } ∧
        ∀ f < 5, mget {} u.tick.rc f = { (mget {} k.rc f : TickRc) with miss := satAdd max32 (mget {} k.rc f : TickRc).miss 1 }) ∧
      (8 ≤ k.missRun → Completes (.syncLost t) s fun u => ButEvents { s.clock t with tick := u.tick } u ∧
        u.tick.state = .freeRun ∧ u.tick.countValid = true ∧ u.tick.count = k.count ∧ u.tick.goodRun = 0 ∧
        u.tick.localCount = (k.localCount || k.state == .acquiring) ∧ (evtBit u 0 9).pend = true ∧
        ∀ f < 5, (mget {} u.tick.rc f : TickRc).loss = satAdd max32 (mget {} k.rc f : TickRc).loss 1) ∧
      (k.missRun < 8 → Gives (.syncLost t) s (s.clock t))) ∧
    (k.state = .freeRun →
      (k.due = none → k.prev + 1000 * k.periodUs ≤ max s.now t → Gives (.freeRunTick t) s { s.clock t with tick := { k with
        due := some (k.prev + 1000 * k.periodUs) } }) ∧
      (k.prev + 125 * k.periodUs < max s.now t → max s.now t + 125 * k.periodUs < k.prev + 1000 * k.periodUs →
        Completes (.tickSyncEdge t high) s fun u => u.tick.goodRun = 0 ∧ u.tick.state = .freeRun ∧ u.tick.due = k.due ∧
          (mget {} u.tick.rc 0 : TickRc).oow = satAdd max32 (mget {} k.rc 0 : TickRc).oow 1) ∧
      (k.prev + 1000 * k.periodUs ≤ max s.now t + 125 * k.periodUs → max s.now t ≤ k.prev + 1125 * k.periodUs → 20 ≤ k.periodUs →
        k.seenLast = true → k.seenNext = false →
        (k.goodRun < 3 → Gives (.tickSyncEdge t high) s { s.clock t with tick := { k with
          goodRun := k.goodRun + 1, seenNext := true } }) ∧
        (k.goodRun = 3 → k.due = none → Completes (.tickSyncEdge t high) s fun u => u.tick.state = .locked ∧ u.tick.edgeSeen = true ∧
          u.tick.missRun = 0 ∧ u.tick.count = k.count ∧
          (max s.now t + 40 < k.prev + 1000 * k.periodUs → u.tick.due = some (max s.now t + 40) ∧ u.tick.rebase = none) ∧
          (k.prev + 1000 * k.periodUs ≤ max s.now t + 40 → u.tick.due = some (k.prev + 1000 * k.periodUs) ∧
            u.tick.rebase = some (max s.now t + 40)))))

/-- The tick boundary (02 R31, R34, R43 to R46, R49): at a boundary that is due, steps 1 to 8 of Table 2-4 run in their order,
each on the results of those before it, where no firmware activation fires at step 3. Step 1 moves the count by one, or sets it
by a whole superframe; a sheaf released and not complete makes its partition late, counted at the first boundary only; step 8
releases a sheaf with the next sequence number and the boundary's count. -/
def Obligations.BoundaryRunsItsSteps : Prop :=
  ∀ (t b p v : Nat) (causes : List Nat) (s s2 : State) (r : Release), s.tick.due = some b → s.tick.running = true →
    s.tick.state ≠ .halted → b ≤ max s.now t → s2 = step2 (step1 (s.clock t) b causes) (b - s.tick.prev) →
    (activationDue b s.tick.countValid s2 = false → Gives (.tickBoundary t causes) s (Settled t s (stackerLoop
      (step8 b s.tick.countValid (fireStep b s.tick.countValid 7 (step6 b s.tick.countValid (step5 b s.tick.countValid
        (step4 b s.tick.countValid s2)))))))) ∧
    ((countStep s b).tick.prev = b ∧ (countStep s b).tick.due = none ∧
      (s.tick.sf.whole = none → (countStep s b).tick.count = s.tick.count + 1) ∧
      (s.tick.sf.whole = some (v, 1) → s.tick.state = .acquiring → (countStep s b).tick.count = BitVec.ofNat 64 (v + 65) ∧
        (countStep s b).tick.state = .locked ∧ (countStep s b).tick.countValid = true ∧ (countStep s b).tick.rc = s.tick.rc) ∧
      (s.tick.sf.whole = some (v, 1) → s.tick.state = .locked → s.tick.count + 1 ≠ BitVec.ofNat 64 (v + 65) →
        (countStep s b).tick.count = BitVec.ofNat 64 (v + 65) ∧ (evtBit (countStep s b) 0 10).pend = true ∧
        (mget {} (countStep s b).tick.rc 0 : TickRc).correct = satAdd max32 (mget {} s.tick.rc 0 : TickRc).correct 1)) ∧
    (p < 4 → mget {} s.tick.rel p = r → r.out = true → r.excused = false → refusing s p = false → s.power.idle = false →
      (let u := judgeSheaf causes s p
       (mget {} u.tick.rel p : Release) = { r with since := r.since + 1, late := true, lag := min 4 (r.since + 1) } ∧
       (r.since = 0 → mget 0 u.tick.overruns p = satAdd max32 (mget 0 s.tick.overruns p) 1 ∧
         (evtBit u (p + 1) (128 + 96 * p + 1)).pend = true) ∧
       (r.since ≠ 0 → u.tick.overruns = s.tick.overruns) ∧ releasable u p = false)) ∧
    (p < 4 → mget {} s.tick.rel p = r →
      (let u := releaseSheaf s p
       (mget {} u.tick.rel p : Release).seq = (r.seq + 1) % 4294967296 ∧ (mget {} u.tick.rel p : Release).tick = s.tick.count.toNat ∧
       (mget {} u.tick.rel p : Release).late = false ∧
       (∀ i ∈ tilesOf p, (tileOf u i).sheafTick = s.tick.count.toNat ∧ (tileOf u i).sheafSeq = (r.seq + 1) % 4294967296) ∧
       (∀ q, q ≠ p → mget {} u.tick.rel q = (mget {} s.tick.rel q : Release))))

/-- A firmware activation at step 3 (02 R45; 21 R498): at a boundary that is due, once steps 1 and 2 have run, a due activation
fires, steps 4 to 8 do not run, and every staged change is discarded; the trial target and the window stand in the AON island.
-/
def Obligations.ActivationEndsTheBoundary : Prop :=
  ∀ (t b : Nat) (causes : List Nat) (s s2 : State), s.tick.due = some b → s.tick.running = true → s.tick.state ≠ .halted →
    b ≤ max s.now t → s2 = step2 (step1 (s.clock t) b causes) (b - s.tick.prev) → activationDue b s.tick.countValid s2 = true →
    Gives (.tickBoundary t causes) s (Settled t s (activate s2)) ∧ (activate s2).sess.staged = [] ∧ (activate s2).sess.pkg = none ∧
    (activate s2).fw.trial = some (1 - s2.fw.running) ∧ (activate s2).fw.windowEnd ≠ none

/-- A ready core's CSR accesses and board accesses (04 R88 to R90, R92, R93, R95 to R97, R99, R114; 03 R83, R530): a push is
refused with mcause 24 and its reason, queued, or held on a full queue; WQ_CTRL, CC_VAL, CC_ADD, VSEED, SHEAF_DONE and
SHEAF_NEXT act as their rules say; a board load answers or faults with mcause 5, a board store lands or faults with mcause 7. -/
def Obligations.CoreAccessesAct : Prop :=
  ∀ (t c v b n q : Nat) (k : Core) (si : SpadIn) (mi : MemIn) (s e s1 : State) (bs : List Byte) (ma l ep vc addr : Nat),
    coreOf s c = k → s.clock t = e →
    (coreReady e c = true →
      (∀ d, stagedDesc k v = d →
        (∀ x, pushReason d = some x → Gives (.wqPush t c v) s { e with
          cores := mset s.cores c { k with stage := mset k.stage 7 (v % 2 ^ 64), mepc := (Config.corePc c (max s.now t)).toNat, mcause := 24, mtval := x }
          outbox := .trap c 24 x :: s.outbox }) ∧
        (pushReason d = none → k.queue.length < 32 → Gives (.wqPush t c v) s
          (setCore e c { k with stage := mset k.stage 7 (v % 2 ^ 64), queue := k.queue ++ [d] })) ∧
        (pushReason d = none → 32 ≤ k.queue.length → Gives (.wqPush t c v) s
          (setCore e c { k with stage := mset k.stage 7 (v % 2 ^ 64), stall := some (.push d) }))) ∧
      (v < 2 ^ 22 →
        (0x27FFC0 < v → Gives (.wqPushaddr t c v si) s (coreTrap e c 24 3)) ∧
        (v ≤ 0x27FFC0 → v % 8 ≠ 0 → Gives (.wqPushaddr t c v si) s (coreTrap e c 24 4)) ∧
        (v ≤ 0x27FFC0 → v % 8 = 0 → eccCount e (tileOfCore c) si = s1 →
          (badIn si v 64 = true → Gives (.wqPushaddr t c v si) s (coreTrap s1 c 24 10)) ∧
          (badIn si v 64 = false → ∀ d, leNat (spadRead s (tileOfCore c) v 64) = d →
            (∀ x, pushReason d = some x → Gives (.wqPushaddr t c v si) s (coreTrap s1 c 24 x)) ∧
            (pushReason d = none → k.queue.length < 32 → Gives (.wqPushaddr t c v si) s
              (setCore s1 c { k with queue := k.queue ++ [d] }))))) ∧
      Gives (.wqResume t c) s (setCore e c { k with halted := false }) ∧
      Completes (.wqFlush t c) s (fun u => coreOf u c = { k with queue := [] } ∧
        (∀ p, p ≠ partOfCore c → mfind u.tick.rel p = mfind s.tick.rel p) ∧
        u = { e with cores := u.cores, tick := { e.tick with rel := u.tick.rel } }) ∧
      Gives (.ccValWrite t c v) s (ccSet e (partOfCore c) k.ccSel v) ∧
      Gives (.ccAddWrite t c v) s { ccSet e (partOfCore c) k.ccSel (ccGet s (partOfCore c) k.ccSel + v) with
        outbox := .coreRead c (ccGet s (partOfCore c) k.ccSel) :: s.outbox } ∧
      Gives (.vseedWrite t c v) s (setCore e c { k with stall := some (.vseed (v % 2 ^ 64)) }) ∧
      (v % 2 = 1 → (mget {} s.tick.rel (partOfCore c)).seq ≠ 0 → Completes (.sheafDoneWrite t c v) s fun u =>
        coreOf u c = { k with done := true } ∧ u = { e with cores := u.cores, tick := { e.tick with rel := u.tick.rel } } ∧
        ((∀ x ∈ span (288 * partOfCore c) 288, coreDone (coreOf u x) = true) →
          (mget {} s.tick.rel (partOfCore c)).out = true → (mget {} u.tick.rel (partOfCore c)).out = false)) ∧
      (k.nextRead = true → Gives (.sheafNextRead t c) s (setCore e c { k with stall := some .sheafNext })) ∧
      (k.nextRead = false → Gives (.sheafNextRead t c) s { setCore e c { k with nextRead := true } with
        outbox := .coreRead c (tileOf s (tileOfCore c)).sheafSeq :: s.outbox }) ∧
      (boardForm b n = true →
        (spaceTgt e (partOfCore c) none false 2 0 b n = .mem ma → rangeReady e ma n = true →
          (maRead e (sideOfTile (tileOfCore c)) ma n mi = (s1, bs, []) →
            Gives (.boardLoad t c b n mi) s (Settled t s { s1 with outbox := .coreRead c (leNat bs) :: s1.outbox })) ∧
          (∀ x xs, maRead e (sideOfTile (tileOfCore c)) ma n mi = (s1, bs, x :: xs) →
            Gives (.boardLoad t c b n mi) s (Settled t s (coreTrap s1 c 5 (0x100000000000 + b))))) ∧
        (spaceTgt e (partOfCore c) none false 2 0 b n = .far l ep vc addr →
          sendReq e (tileOfCore c) (partOfCore c) .read l ep { op := 2, vc := vc, addr := addr, operand := n } [] n
            (.load c (0x100000000000 + b) n) (fabTimeout e (partOfCore c)) = some (s1, q) →
          Gives (.boardLoad t c b n mi) s (Settled t s (setCore s1 c { coreOf s1 c with stall := some (.boardLoad q) }))) ∧
        (∀ x, spaceTgt e (partOfCore c) none false 2 0 b n = .refused x →
          Gives (.boardLoad t c b n mi) s (coreTrap e c 5 (0x100000000000 + b))) ∧
        (spaceTgt e (partOfCore c) none true 2 0 b n = .mem ma → rangeReady e ma n = true →
          (landMem e (sideOfTile (tileOfCore c)) ma (leBytes n v) none mi = (s1, true) →
            Gives (.boardStore t c b n v mi) s (Settled t s s1)) ∧
          (landMem e (sideOfTile (tileOfCore c)) ma (leBytes n v) none mi = (s1, false) →
            Gives (.boardStore t c b n v mi) s (Settled t s (coreTrap s1 c 7 (0x100000000000 + b))))) ∧
        (spaceTgt e (partOfCore c) none true 2 0 b n = .far l ep vc addr →
          sendReq e (tileOfCore c) (partOfCore c) .write l ep { op := 1, vc := vc, addr := addr, operand := n } (leBytes n v) n
            (.store c (0x100000000000 + b)) (fabTimeout e (partOfCore c)) = some (s1, q) →
          Gives (.boardStore t c b n v mi) s
            (Settled t s (setCore s1 c { coreOf s1 c with stores := (coreOf s1 c).stores ++ [q] }))) ∧
        (∀ x, spaceTgt e (partOfCore c) none true 2 0 b n = .refused x →
          Gives (.boardStore t c b n v mi) s (coreTrap e c 7 (0x100000000000 + b)))) ∧
      (k.stores = [] → Gives (.seqFenceComplete t c) s { e with outbox := .fenceDone c :: s.outbox })) ∧
    (coreLive e c = true →
      (∀ d, k.stall = some (.push d) → k.queue.length < 32 → Gives (.wqPushUnstall t c) s
        (setCore e c { k with stall := none, queue := k.queue ++ [d] })) ∧
      (k.stall = some (.vseed v) → (∀ d ∈ k.queue, dType d ≠ 2) → (∀ j ∈ (tileOf s (tileOfCore c)).vector.jobs, j.core ≠ c) →
        Gives (.vseedApply t c) s (setTile (setCore e c { k with stall := none }) (tileOfCore c)
          { tileOf s (tileOfCore c) with vseed := v, gens := some (seedGens v (tileOfCore c)) })))

/-- Issue and failure (04 R97, R99): the unit whose turn it is takes the head of the queue as its newest descriptor, counted as
issued, and its next turn is the following core's; a sync, matrix, vector or stream-out descriptor starts nothing else at its
issue; a descriptor whose own requests failed ends without its signal, and a queue not yet halted halts and records the cause.
-/
def Obligations.QueuesIssueAndHalt : Prop :=
  ∀ (t i u n d x c : Nat) (ds : List Nat) (k : Core) (g : Engine) (j : Issued) (s : State),
    (nextIssuer (s.clock t) i u = some n → 4 * i + n = c → n < 4 → coreOf s c = k → k.queue = d :: ds → 1 ≤ u → u ≤ 6 →
      engineOf (tileOf s i) u = g → coreLive (s.clock t) c = true → issueRoom (s.clock t) c d = true →
      (u ≠ 3 → u ≠ 6 → Gives (.descriptorIssue t i u) s
        (setEngine (setCore (s.clock t) c { k with queue := ds, issued := (k.issued + 1) % 65536, progress := true }) i u
          { g with
            jobs := g.jobs ++ [{ core := c, index := k.issued, desc := d, issuedAt := max s.now t, limit := 1000000 * cfg s 0x52 (partOfCore c) }]
            progress := true, nextCore := (n + 1) % 4 })) ∧
      (u = 3 ∨ u = 6 → Gives (.descriptorIssue t i u) s
        (Settled t s (let r := issueHead (s.clock t) c u d; startIssued r.1 r.2)))) ∧
    (coreOf s c = k → engineOf (tileOf s (tileOfCore c)) u = g → 1 ≤ u → u ≤ 6 → coreLive (s.clock t) c = true →
      jobOf s c u n = some j → j.fail = some x → Completes (.descriptorFail t c u n) s fun v =>
        (engineOf (tileOf v (tileOfCore c)) u).jobs = g.jobs.filter (fun y => !(y.core == c && y.index == n)) ∧
        coreOf v c = (if k.halted then { k with completed := (k.completed + 1) % 65536, progress := true }
          else { k with
            completed := (k.completed + 1) % 65536, progress := true, halted := true, errCause := x, errType := dType j.desc
            errIndex := n }) ∧
        v = { s.clock t with cores := v.cores, tiles := v.tiles, tick := { s.tick with rel := v.tick.rel } })

/-- MMA_COMPLETE (04 R104, R105; 03 R68, R71, R73): an MMA of no k-groups only completes; one that meets an uncorrectable word
fails with cause 1; else every accumulator element is its group sums added in order, WRITE_OUT writes each rounded once to its
place, no byte elsewhere changes, the flags are raised, and the descriptor completes. -/
def Obligations.MmaAccumulates : Prop :=
  ∀ (t i d : Nat) (si : SpadIn) (s s1 : State) (j : Issued) (js : List Issued) (f : FloatFmt),
    (tileOf s i).matrix.jobs = j :: js → j.desc = d → unitLive (s.clock t) i = true → eccCount (s.clock t) i si = s1 →
    (mGroups d = 0 → Gives (.mmaComplete t i si) s (completeJob (s.clock t) 1 j)) ∧
    (mGroups d ≠ 0 → mmaBad si d = true → Gives (.mmaComplete t i si) s (failJob s1 1 j 1)) ∧
    (mGroups d ≠ 0 → mmaBad si d = false → mmaReason d = none → tileOfCore j.core = i → Completes (.mmaComplete t i si) s fun u =>
      (∀ m < 64, ∀ n < 128, accGet (tileOf u i) (mAcc d) m n =
        (mmaElem s1 i d m n (if mAccZero d then 0 else accGet (tileOf s i) (mAcc d) m n)).1) ∧
      (∀ a < 4, a ≠ mAcc d → ∀ m < 64, ∀ n < 128, accGet (tileOf u i) a m n = accGet (tileOf s i) a m n) ∧
      (mWriteOut d = true → fmtOf (mOutFmt d) = some f → ∀ m < 64, ∀ n < 128,
        spadRead u i (mOut d + m * mOutStride d + n * (fmtBits (mOutFmt d) / 8)) (fmtBits (mOutFmt d) / 8) =
          leBytes (fmtBits (mOutFmt d) / 8)
            (roundRes f .rne (mSat d) ⟨fp32.dec (accGet (tileOf u i) (mAcc d) m n).toNat, 0⟩).1) ∧
      (∀ a, (mWriteOut d = true → ∀ m < 64, a < mOut d + m * mOutStride d ∨
          mOut d + m * mOutStride d + 128 * (fmtBits (mOutFmt d) / 8) ≤ a) → spadRead u i a 1 = spadRead s i a 1) ∧
      (∀ i', i' ≠ i → ∀ a < spadBytes, spadRead u i' a 1 = spadRead s i' a 1) ∧ u.mem = { s.mem with spad := u.mem.spad } ∧
      (tileOf u i).matrix.jobs = (j :: js).filter (fun y => !(y.core == j.core && y.index == j.index)) ∧
      (coreOf u j.core).completed = ((coreOf s j.core).completed + 1) % 65536 ∧
      u = { s.clock t with mem := u.mem, tiles := u.tiles, cores := u.cores, ccs := u.ccs, tick := { s.tick with rel := u.tick.rel } })

/-- The vector unit's completions (04 R106, R107; 03 R58 to R63, R76, R77, R83 to R85, R529; Table 3-8), for each operation: no
elements only completes; an uncorrectable operand fails with cause 1; else D holds, element for element, the operation's value
on the operands read before, rounded once in the mode RND selects, the generators step once an element under RND 2 alone, and it
completes. -/
def Obligations.VectorOperationsComplete : Prop :=
  ∀ (t i d op e : Nat) (si : SpadIn) (s s1 : State) (j : Issued) (js : List Issued) (f : FloatFmt) (c : Instr) (xs ys zs : List FVal),
    (op, c) ∈ [(0x00, .vopConvert t i si), (0x01, .vopAdd t i si), (0x02, .vopSub t i si), (0x03, .vopMul t i si),
      (0x04, .vopFma t i si), (0x05, .vopMin t i si), (0x06, .vopMax t i si), (0x07, .vopAbs t i si), (0x08, .vopNeg t i si),
      (0x09, .vopRcp t i si), (0x0A, .vopRsqrt t i si), (0x0B, .vopExp2 t i si), (0x0C, .vopLog2 t i si),
      (0x0D, .vopCmpgt t i si), (0x0E, .vopCmpeq t i si)] →
    (tileOf s i).vector.jobs = j :: js → j.desc = d → vOp d = op → unitLive (s.clock t) i = true → eccCount (s.clock t) i si = s1 →
    (vCount d = 0 → Gives c s (completeJob (s.clock t) 2 j)) ∧
    (vCount d ≠ 0 → vecBad si d = true → Gives c s (failJob s1 2 j 1)) ∧
    (vCount d ≠ 0 → vecBad si d = false → isMx (vDst d) = true → Gives c s (completeJob (vecRun s1 i d) 2 j)) ∧
    (vCount d ≠ 0 → vecBad si d = false → fmtOf (vDst d) = some f → isMx (vDst d) = false → vecReason d = none →
      tileOfCore j.core = i → (loadArray s i (vSrc d) (vX d) (vXScale d) (vCount d)).1 = xs →
      (if namesY op = false then List.replicate (vCount d) (.fin false 0 0) else if vYImm d = true then List.replicate (vCount d) (fp32.dec (vImm d))
        else (loadArray s i (vSrc d) (vY d) 0 (vCount d)).1) = ys →
      (if namesZ op = true then (loadArray s i (vSrc d) (vZ d) 0 (vCount d)).1 else List.replicate (vCount d) (.fin false 0 0)) = zs →
      Completes c s fun u =>
      (e < vCount d →
        spadRead u i (vD d + e * (fmtBits (vDst d) / 8)) (fmtBits (vDst d) / 8) =
          leBytes (fmtBits (vDst d) / 8)
            (roundRes f (elemRnd (gensOf s i) (vRnd d) e) (vSat d)
              (vecValue op ((xs[e]?).getD .nan) ((ys[e]?).getD .nan) ((zs[e]?).getD .nan))).1) ∧
      (∀ a, a < vD d ∨ vD d + vCount d * (fmtBits (vDst d) / 8) ≤ a → spadRead u i a 1 = spadRead s i a 1) ∧
      u.mem = { s.mem with spad := u.mem.spad } ∧
      (tileOf u i).gens = (if vRnd d = 2 then some (gensAfter (gensOf s i) (vCount d)) else (tileOf s i).gens) ∧
      (tileOf u i).vector.jobs = (j :: js).filter (fun y => !(y.core == j.core && y.index == j.index)) ∧
      (coreOf u j.core).completed = ((coreOf s j.core).completed + 1) % 65536 ∧
      u = { s.clock t with mem := u.mem, tiles := u.tiles, cores := u.cores, ccs := u.ccs, tick := { s.tick with rel := u.tick.rel } })

/-- Tile DMA, sync and stream-out (04 R101, R109 to R112, R115): an empty COPY completes; a COPY refused fails with the cause;
one within the tile moves its bytes; a FENCE fails with the earliest failure held or completes once earlier COPYs have ended and
their writes are acknowledged; sync descriptors add, set, or only signal, here or by a packet; a stream-out completes when its
last block has left. -/
def Obligations.TransfersOfATileAct : Prop :=
  ∀ (t c x q n : Nat) (mi : MemIn) (si : SpadIn) (s s1 s2 e : State) (j : Issued) (k : Core) (d : Nat) (xs : List Nat),
    s.clock t = e → coreLive e c = true → coreOf s c = k → j.desc = d → j.core = c → j.index = n → j.fail = none →
    (jobOf s c 3 n = some j → cOp d = 0 →
      (copyEmpty d = true ∨ (j.started = true ∧ j.reqs = []) → Gives (.tileDmaCopy t c n mi si) s (completeJob e 3 j)) ∧
      (copyEmpty d = false → j.started = false → copyRefusal e c d = some x →
        Gives (.tileDmaCopy t c n mi si) s (failJob e 3 j x)) ∧
      (copyEmpty d = false → j.started = false → copyRefusal e c d = none → copyReady e c d = true →
        (∀ ok, copyLines c d n mi si (List.range (cLines d)) (eccCount e (tileOfCore c) si) = (s1, ok) →
          Gives (.tileDmaCopy t c n mi si) s (Settled t s
            (if ok then completeJob { s1 with freeCtr := s1.freeCtr + 1 } 3 j
             else failJob { s1 with freeCtr := s1.freeCtr + 1 } 3 j 1))) ∧
        (cLines d = 1 → cSrcSpace d = 0 → cDstSpace d = 0 → cConv d = 0 → dmaReason d = none →
          badIn si (cSrc d) (cLen d) = false → Completes (.tileDmaCopy t c n mi si) s fun u =>
            spadRead u (tileOfCore c) (cDst d) (cLen d) = spadRead s (tileOfCore c) (cSrc d) (cLen d) ∧
            (∀ a, a < cDst d ∨ cDst d + cLen d ≤ a → spadRead u (tileOfCore c) a 1 = spadRead s (tileOfCore c) a 1) ∧
            u.mem = { s.mem with spad := u.mem.spad }))) ∧
    (jobOf s c 3 n = some j → cOp d = 1 →
      (k.fails = x :: xs → Gives (.tileDmaFence t c n) s (failJob (setCore e c { k with fails := [] }) 3 j x)) ∧
      (k.fails = [] → (∀ w ∈ k.writes, issuedBefore w.2 n = false) →
        (∀ y ∈ (tileOf s (tileOfCore c)).dma.jobs, y.core = c → cOp y.desc = 0 → issuedBefore y.index n = false) →
        Gives (.tileDmaFence t c n) s (completeJob e 3 j))) ∧
    (jobOf s c 4 n = some j → j.started = false →
      (yOp d = 2 → Gives (.syncNone t c n) s (completeJob e 4 j)) ∧
      (yRemote d = false →
        (yOp d = 0 → Gives (.syncAdd t c n) s (completeJob (ccAdd e (partOfCore c) (yCc d) (yValue d)) 4 j)) ∧
        (yOp d = 1 → Gives (.syncSet t c n) s (completeJob (ccSet e (partOfCore c) (yCc d) (yValue d)) 4 j))) ∧
      (yRemote d = true → partOfEp (yEid d % 1024) = some q →
        (yEid d / 1024 = ownLpkg s → refuses e (partOfCore c) q = false → related s (partOfCore c) q = true →
          (yOp d = 0 → Gives (.syncAdd t c n) s (completeJob (ccAdd e q (yCc d) (yValue d)) 4 j)) ∧
          (yOp d = 1 → Gives (.syncSet t c n) s (completeJob (ccSet e q (yCc d) (yValue d)) 4 j))) ∧
        (yEid d / 1024 ≠ ownLpkg s → (lptPos s (yEid d / 1024)).isSome = true →
          (yOp d = 0 → sendReq e (tileOfCore c) (partOfCore c) .sync (yEid d / 1024) (yEid d % 1024)
            { op := 5, vc := 0, cc := yCc d, operand := yValue d } [] 0 (.sync c n) (fabTimeout e (partOfCore c)) = some (s2, x) →
            Gives (.syncAdd t c n) s (Settled t s (setJob s2 4 { j with started := true, reqs := [x] }))) ∧
          (yOp d = 1 → sendReq e (tileOfCore c) (partOfCore c) .sync (yEid d / 1024) (yEid d % 1024)
            { op := 6, vc := 0, cc := yCc d, operand := yValue d } [] 0 (.sync c n) (fabTimeout e (partOfCore c)) = some (s2, x) →
            Gives (.syncSet t c n) s (Settled t s (setJob s2 4 { j with started := true, reqs := [x] })))))) ∧
    (jobOf s c 5 n = some j → j.sent = oBlocks d ∨ oBlock d = 0 → Gives (.streamOutComplete t c n) s (completeJob e 5 j))

/-- T2 blocks (03 R61): where byte j of the 8 bytes of block g holds d0 + 3 d1 + 9 d2 + 27 d3 + 81 d4, and byte 7 the scale, the
matrix unit reads as element 5j + i of column n the value d - 1 of digit i of byte j, whatever the unused digits of byte 6,
under the scale of byte 7. -/
def Obligations.TernaryBlocksRead : Prop :=
  ∀ (s : State) (i d n g sc : Nat) (dg : List Nat) (bs : List Byte), mBFmt d = 11 → dg.length = 35 → (∀ x ∈ dg, x < 3) → sc < 256 →
    bs = spadRead s i (mB d + n * mBStride d + 8 * g) 8 →
    (∀ j < 7, (bs.getD j 0).toNat = dg.getD (5 * j) 0 + 3 * dg.getD (5 * j + 1) 0 + 9 * dg.getD (5 * j + 2) 0 +
      27 * dg.getD (5 * j + 3) 0 + 81 * dg.getD (5 * j + 4) 0) →
    (bs.getD 7 0).toNat = sc →
    groupB s i d n g = {
      vals := (dg.take 32).map (fun x => match x with | 0 => .fin true 1 0 | 1 => .fin false 0 0 | _ => .fin false 1 0),
      scale := if sc = 255 then none else some ((sc : Int) - 127), fl := 0 }

/-- The Wain engines (05 R121 to R123, R125, R130 to R133): a working engine fetches the next ring entry of a channel whose
doorbell is ahead, halting it by name where the fetch, the descriptor or its extent fails; issues the burst that arbitration
selects; promotes an aged channel; writes the burst complete first; and completes a COPY, and a FENCE whose writes are all
acknowledged, with DONE and the signal, or halts the channel with the failure the FENCE reports; a late read halts it with
ERR_CAUSE 4. -/
def Obligations.WainStepsAct : Prop :=
  ∀ (t ch e q i j k d f0 : Nat) (mi : MemIn) (si : SpadIn) (s s1 : State) (c : Chan) (w : ChanWork) (g : WainEngine) (x : WainWork)
    (xs : List WainWork) (b : Burst) (bs : List Burst) (r : OutReq),
    chanOf s ch = c → workOf s ch = w → engOfChan ch = e → wainOf s e = g → engLive (s.clock t) e = true → c.halted = false →
    i = c.head % c.ringEntries →
    (doorbellAhead s (partOfChan ch) c = true → ringReady (s.clock t) (partOfChan ch) c i = true →
      (ringRead (s.clock t) (partOfChan ch) (dieOfPart (partOfChan ch)) c i mi si = (s1, none) → s1.wain = s.wain →
        Completes (.wainFetch t ch mi si) s fun u => chanOf u ch = { c with halted := true, errCause := 7, errReason := 0 } ∧
          workOf u ch = w) ∧
      (ringRead (s.clock t) (partOfChan ch) (dieOfPart (partOfChan ch)) c i mi si = (s1, some d) → s1.wain = s.wain →
        (∀ n, wainReason d = some n → Completes (.wainFetch t ch mi si) s fun u =>
          chanOf u ch = { c with head := (c.head + 1) % 2 ^ 32, halted := true, errCause := 6, errReason := n }) ∧
        (wainReason d = none →
          (wOp d = 1 → wCount d ≠ 0 → wainRefusal s1 ch d = none) →
          Completes (.wainFetch t ch mi si) s fun u =>
          chanOf u ch = { c with head := (c.head + 1) % 2 ^ 32 } ∧
          (workOf u ch).work = w.work ++ [{ desc := d, index := c.head }]) ∧
        (∀ n, wainReason d = none → wOp d = 1 → wCount d ≠ 0 → wainRefusal s1 ch d = some n →
          Completes (.wainFetch t ch mi si) s fun u =>
          chanOf u ch = { c with head := (c.head + 1) % 2 ^ 32, halted := true, errCause := n, errReason := 0 }))) ∧
    (wainSelect (s.clock t) e = some ch → wainNext w.work = some x →
      b = { chan := ch, index := x.index, desc := x.desc, first := x.read, count := burstCount x } →
      burstReady (s.clock t) b = true → Gives (.wainBurstIssue t e mi si) s (Settled t s
        (issueBurst (startAges (s.clock t) e ch) ch x b mi si))) ∧
    (w.promotedAt = none → w.waitSince = some j → j + 1000 * c.ageUs ≤ max s.now t →
      Gives (.wainAgePromote t ch) s (setWork (s.clock t) ch { w with promotedAt := some (max s.now t) })) ∧
    (g.full = b :: bs → b.chan = ch → burstWriteReady (s.clock t) b = true → Completes (.wainBurstWrite t e mi) s fun u =>
      (wainOf u e).full = bs ∧ (wainOf u e).bursts = g.bursts ∧ u.freeCtr = s.freeCtr + 1) ∧
    (w.work = x :: xs → wOp x.desc = 1 → x.written = wCount x.desc → headWait s ch x = true → c.enable = true →
      Completes (.wainCopy t ch) s fun u => chanOf u ch = { c with done := (c.done + 1) % 2 ^ 32 } ∧ (workOf u ch).work = xs ∧
        ccGet u (partOfChan ch) (dSigCc x.desc) = (if dSigEn x.desc then (ccGet s (partOfChan ch) (dSigCc x.desc) + 1) % 2 ^ 32
          else ccGet s (partOfChan ch) (dSigCc x.desc)) ∧
        u = { s.clock t with wain := u.wain, ccs := u.ccs }) ∧
    (w.work = x :: xs → wOp x.desc = 2 → headWait s ch x = true → c.enable = true →
      (w.fails = [] → w.writes = [] → slotsOf g ch = 0 → Completes (.wainFence t ch) s fun u =>
        chanOf u ch = { c with done := (c.done + 1) % 2 ^ 32 } ∧ (workOf u ch).work = xs ∧
        u = { s.clock t with wain := u.wain, ccs := u.ccs }) ∧
      (w.fails.head? = some k → Completes (.wainFence t ch) s fun u =>
        chanOf u ch = { c with halted := true, errCause := k, errReason := 0 } ∧ (workOf u ch).fails = [] ∧
        ButEvents { s.clock t with wain := u.wain } u)) ∧
    (findReq s (epOfEng e) q = some r → r.at_ + r.limit ≤ max s.now t → injected s r = true → r.owner = .wainRead ch j f0 k →
      g.bursts.find? (fun b => b.chan == ch && b.index == j && b.first == f0) = some b → Completes (.wainTimeout t e q) s fun u =>
        chanOf u ch = { c with halted := true, errCause := 4, errReason := 0 } ∧ u.fab.reqs = s.fab.reqs.erase r)

/-- The Gleaners' queues (06 R137, R138, R142, R143, R145, R149 to R152; Table 6-6): a free Gleaner takes the firmware queue
first, then a promoted normal command, the high class, the normal class; what it took runs, or ends at once, malformed or
refused with its status, or is split, or is passed on; a head that waited GLN_AGE is promoted; a completion is recorded and
reported; one held 1,001 ms stops; at the forwarder it ends the descriptor, and a late one times it out with CAUSE 4. -/
def Obligations.GleanerQueuesAct : Prop :=
  ∀ (t k id x n : Nat) (mi : MemIn) (si : SpadIn) (s e : State) (g g1 : Gleaner) (c : GlnCmd) (cs : List GlnCmd) (o : GlnOpen)
    (j : Issued) (r : GlnRun) (ix : List Nat) (req : OutReq),
    s.clock t = e → glnOf s k = g →
    (glnLive e k = true → g.running = none → gAuto c.body = false → (∀ i n, c.src ≠ .piece i n) → glnAtOnce c.body = false →
      glnMalformed e c.body = none → glnRefusal e c.ses c.body = none → isSplit c.body = false →
      (g.fw = c :: cs → Gives (.gleanerDispatch t k mi si) s (setGln e k { g with fw := cs, running := some c, progress := true })) ∧
      (g.fw = [] → g.promoted = false ∨ g.normal = [] → g.high = c :: cs → Gives (.gleanerDispatch t k mi si) s
        (setGln e k { g with high := cs, running := some c, progress := true })) ∧
      (g.fw = [] → g.promoted = true ∨ g.high = [] → g.normal = c :: cs → Gives (.gleanerDispatch t k mi si) s
        (setGln e k { g with
          normal := cs, promoted := false, headSince := if cs.isEmpty then none else some (max s.now t), running := some c
          progress := true }))) ∧
    (glnLive e k = true → g.running = none → glnSelect g (max s.now t) = some (c, g1) →
      ((∃ i n, c.src = .piece i n) → Gives (.gleanerDispatch t k mi si) s
        (setGln e k { g1 with running := some c, progress := true })) ∧
      ((∀ i n, c.src ≠ .piece i n) → gAuto c.body = false →
        (glnAtOnce c.body = true → Gives (.gleanerDispatch t k mi si) s (glnEnd (setGln e k g1) k c 0 0)) ∧
        (glnAtOnce c.body = false → glnMalformed e c.body = some x → Gives (.gleanerDispatch t k mi si) s
          (glnEnd (setGln e k g1) k c 1 x)) ∧
        (glnAtOnce c.body = false → glnMalformed e c.body = none → glnRefusal e c.ses c.body = some x →
          Gives (.gleanerDispatch t k mi si) s (glnEnd (setGln e k g1) k c x 0)) ∧
        (glnAtOnce c.body = false → glnMalformed e c.body = none → glnRefusal e c.ses c.body = none → isSplit c.body = true →
          scatterIndices (setGln e k g1) k c mi si = (r, ix) →
          Gives (.gleanerDispatch t k mi si) s (Settled t s
            (if r.status = 0 then glnSplit r.st k c ix else glnEnd r.st k c r.status 0)))) ∧
      ((∀ i n, c.src ≠ .piece i n) → gAuto c.body = true → primaryStack e c.body = some x → x ≠ k → glnRoom e x c.body = true →
        Gives (.gleanerDispatch t k mi si) s (glnPut (setGln e k g1) x { c with body := setBits c.body 80 1 0 }))) ∧
    (glnLive e k = true → g.normal ≠ [] → g.promoted = false → g.headSince = some x →
      x + 1000 * cfg s 0x51 (partOfStack k) ≤ max s.now t →
      Gives (.gleanerAgePromote t k) s (setGln e k { g with promoted := true })) ∧
    (k < 12 → g.opens.find? (fun o => o.id == id) = some o → o.pieces = 0 →
      (∀ core i, o.cmd.src = .tile core i → gRecEn o.cmd.body = false → jobOf e core 6 i = some j →
        Gives (.gleanerComplete t k id mi) s (setJob (setGln e k { g with
          opens := g.opens.filter (fun x => x.id != id), progress := true }) 6 { j with done := some o.status })) ∧
      (∀ h, o.cmd.src = .vc4 h → Gives (.gleanerComplete t k id mi) s (Settled t s (answerPkt (writeGlnRecord (setGln e k { g with
          opens := g.opens.filter (fun x => x.id != id), progress := true }) k o mi) h 9 0 o.status []))) ∧
      (o.cmd.src = .firmware → Gives (.gleanerComplete t k id mi) s (Settled t s (writeGlnRecord (setGln e k { g with
          opens := g.opens.filter (fun x => x.id != id), progress := true }) k o mi)))) ∧
    (k < 12 → glnTakeExpired g (max s.now t) = some (o, g1) →
      o.status = 6 ∧ o.cmd.arrived + 1001000000 ≤ max s.now t ∧ o.cmd.src ≠ .firmware ∧
      Gives (.gleanerCmdExpire t k mi) s (Settled t s
        (writeGlnRecord (dropPieces (setGln e k { g1 with progress := true }) k o.id) k o mi))) ∧
    (jobOf s n 6 id = some j →
      (coreLive e n = true → j.done = some 0 → Gives (.gleanerDescComplete t n id) s (completeJob e 6 j)) ∧
      (coreLive e n = true → ∀ x, j.done = some x → x ≠ 0 → Gives (.gleanerDescComplete t n id) s (failJob e 6 j
        (if x = 2 then 2 else if x = 3 then 3 else if x = 4 then 5 else if x = 6 then 4 else 6))) ∧
      (j.done = none → j.fail = none → j.issuedAt + j.limit ≤ max s.now t →
        (s.fab.reqs.find? (fun r => r.owner == .forward n id) = none → Gives (.gleanerFwdTimeout t n id) s (failJob e 6 j 4)) ∧
        (s.fab.reqs.find? (fun r => r.owner == .forward n id) = some req →
          Gives (.gleanerFwdTimeout t n id) s (failJob (timeoutReq e req) 6 j 4))))

/-- Each Gleaner operation runs to its end (06 R147, R151, R153 to R162): the running command's run is that of its operation,
the Gleaner is then free, and what the run found is held for its completion, or joins the command whose piece it was. A COPY
between places of a scratchpad that do not overlap leaves the source's bytes at the destination and all others as they were. -/
def Obligations.GleanerOperationsRun : Prop :=
  ∀ (t k b : Nat) (mi : MemIn) (si : SpadIn) (s e : State) (g : Gleaner) (c : GlnCmd) (gi : GlnIn) (r0 : GlnRun),
    glnOf s k = g → g.running = some c → c.body = b → s.clock t = e → glnLive e k = true → glnReady e (glnExtents b) = true →
    gi = { gln := k, tile := gTile b, mi := mi, si := si } →
    r0 = { st := if usesTile b then eccCount e (gTile b % 1024) si else e } →
    (gOp b = 1 → Gives (.scoreScan t k mi si) s (Settled t s (glnFinish k c (runScore gi b r0)))) ∧
    (gOp b = 2 → Gives (.weightedAcc t k mi si) s (Settled t s (glnFinish k c (runWeighted gi b r0)))) ∧
    (gOp b = 3 → Gives (.accMem t k mi si) s (Settled t s (glnFinish k c (runAcc gi (glnRecv k c) b r0)))) ∧
    (gOp b = 4 → Gives (.optUpdate t k mi si) s (Settled t s (glnFinish k c (runOpt gi (glnRecv k c) b r0)))) ∧
    (gOp b = 5 → Gives (.gather t k mi si) s (Settled t s (glnFinish k c (runGather gi c.ses b r0)))) ∧
    (gOp b = 6 → Gives (.scatter t k mi si) s (Settled t s (glnFinish k c (runScatter gi (glnRecv k c) c.ses b r0)))) ∧
    (gOp b = 7 → Gives (.unpack t k mi si) s (Settled t s (glnFinish k c (runUnpack gi b r0)))) ∧
    (gOp b = 8 → Gives (.gleanerFill t k mi si) s (Settled t s (glnFinish k c (runFill gi b r0)))) ∧
    (gOp b = 9 → Gives (.gleanerCopy t k mi si) s (Settled t s (glnFinish k c (runCopy gi b r0)))) ∧
    (gOp b = 10 → Gives (.patternTest t k mi si) s (Settled t s (glnFinish k c (runPattern gi (glnRecv k c) b r0)))) ∧
    (gOp b = 9 → gASpad b = true → gOutSpad b = true → gA b + gCount b ≤ gD b ∨ gD b + gCount b + 8 ≤ gA b →
      badIn si (gA b) (gCount b) = false → (∀ i n, c.src ≠ .piece i n) → gA b + gCount b ≤ spadBytes → gD b + gCount b ≤ spadBytes →
      (gA b % 8 = 0) → (gD b % 8 = 0) →
      Completes (.gleanerCopy t k mi si) s fun u =>
        spadRead u (gTile b % 1024) (gD b) (gCount b) = spadRead s (gTile b % 1024) (gA b) (gCount b) ∧
        (∀ i < 288, ∀ a < spadBytes, i ≠ gTile b % 1024 ∨ a < gD b ∨ gD b + gCount b ≤ a → spadRead u i a 1 = spadRead s i a 1) ∧
        u.mem = { s.mem with spad := u.mem.spad } ∧ (glnOf u k).running = none ∧
        (glnOf u k).opens = g.opens ++ [{ id := g.nextId, cmd := c }])

/-- The stacks' own upkeep (07 R170, R172 to R176, R178): write-back, marking of a lane and of a third one, the read-timing
loop, probe and patrol reads, and the patrol level, each on a working stack under its rule's condition. -/
def Obligations.StackUpkeepActs : Prop :=
  ∀ (t k pc lane e lt line : Nat) (lanes : List Nat) (mi : MemIn) (s : State) (st : Stack) (a : StkLane), k < 12 → pc < 64 →
    lane < 36 → stackOf s k = st → stackAwake st = true → mget {} st.lanes (36 * pc + lane) = a →
    (line ∈ st.writeBack → Gives (.memWriteback t k line) s
      (setStack (s.clock t) k { st with writeBack := st.writeBack.filter (· != line) })) ∧
    (a.marked = 0 → markCause st pc lane ≠ 0 → (markedLanes st pc).length < 2 → Gives (.laneMark t k pc lane) s
      (faultLog (setStack (s.clock t) k { st with
        lanes := mset st.lanes (36 * pc + lane) { a with marked := markCause st pc lane } })
        0x20 (partOfStack k) [k, pc, lane, markCause st pc lane])) ∧
    (a.marked = 0 → markCause st pc lane ≠ 0 → 2 ≤ (markedLanes st pc).length → Completes (.laneMark t k pc lane) s fun u =>
      (mget {} (stackOf u k).pcs pc).degraded = true ∧ (stackOf u k).lanes = st.lanes ∧
      ButEvents { s.clock t with stks := u.stks } u) ∧
    (e ≤ 16384 → lt ≤ 16384 → Completes (.readTimingWindow t k pc lane e lt) s fun u =>
      (mget {} (stackOf u k).lanes (36 * pc + lane)).delay = (if lt + 32 < e then min 127 (a.delay + 1)
        else if e + 32 < lt then a.delay - 1 else a.delay) ∧
      (mget {} (stackOf u k).lanes (36 * pc + lane)).offset = (if 64 < e + lt then max 1 (a.offset - 1)
        else if e + lt < 16 then min 32 (a.offset + 1) else a.offset) ∧
      ButEvents { s.clock t with stks := u.stks } u ∧ (∀ j, j ≠ k → stackOf u j = stackOf s j)) ∧
    ((mget {} st.pcs pc).lastRead + 100000 ≤ max s.now t → Gives (.probeRead t k pc lanes) s
      (setStack (s.clock t) k (countCodeword st pc (max s.now t) lanes))) ∧
    (mi.errs = [] → st.patrolPos ∉ st.bad → st.patrolPos ∉ st.poisoned → Gives (.patrolRead t k mi) s
      (setStack (s.clock t) k { countCodeword st (linePc st.patrolPos) (max s.now t) [] with
        patrolPos := if st.patrolPos + 1 < stackLines s then st.patrolPos + 1 else 0 })) ∧
    (st.patrolAt + 60000000000 ≤ max s.now t → Completes (.patrolLevelUpdate t k) s fun u =>
      u = setStack (s.clock t) k (stackOf u k) ∧
      stackOf u k = { st with
        patrolAt := max s.now t, corrInterval := 0, quietRun := (stackOf u k).quietRun, patrolLevel := (stackOf u k).patrolLevel } ∧
      (64 ≤ st.corrInterval → (stackOf u k).patrolLevel = patrolClamp s k (st.patrolLevel + 1) ∧ (stackOf u k).quietRun = 0) ∧
      (8 ≤ st.corrInterval → st.corrInterval < 64 →
        (stackOf u k).patrolLevel = patrolClamp s k st.patrolLevel ∧ (stackOf u k).quietRun = 0) ∧
      (st.corrInterval < 8 → st.quietRun < 9 →
        (stackOf u k).patrolLevel = patrolClamp s k st.patrolLevel ∧ (stackOf u k).quietRun = st.quietRun + 1) ∧
      (st.corrInterval < 8 → 9 ≤ st.quietRun →
        (stackOf u k).patrolLevel = patrolClamp s k (st.patrolLevel - 1) ∧ (stackOf u k).quietRun = 0))

/-- The Cellar's own steps (07 R186 to R188; 19 R450): an unwritten sector is read as zeros without a fetch, a written one is
fetched and then stands in the buffer, poisoned in every line where its check fails, with CELLAR_INTEGRITY counted; a write of a
whole line merges into the buffered sector; an evicted dirty sector is sealed under the current epoch with its next count. -/
def Obligations.CellarStepsAct : Prop :=
  ∀ (t p g l : Nat) (bs : List Byte) (mi : MemIn) (good leave : Bool) (s : State) (c : Cellar) (x : Sector) (b : SectorBuf),
    cellarOf s p = c →
    (c.lent = true → g < 512 * c.slots → cellarBuf s p g = none → c.buf.length < 64 → mfind c.table g = none →
      Gives (.cellarRead t p g) s
        (setCellar (s.clock t) p { c with buf := c.buf ++ [{ sector := g, data := List.replicate 4096 0 }] })) ∧
    (c.lent = true → g < 512 * c.slots → cellarBuf s p g = none → c.buf.length < 64 → mfind c.table g = some x →
      canMaster s (p + 1) = true → Gives (.cellarRead t p g) s
        ((setCellar (s.clock t) p { c with
          buf := c.buf ++ [{ sector := g, data := List.replicate 4096 0, pending := true }] }).emit (.cellarRead p g))) ∧
    (cellarBuf s p g = some b → b.pending = true → mfind c.table g = some x →
      (good = true → x.poisoned = false → Gives (.cellarFetchComplete t p g good) s
        (setCellar (s.clock t) p { c with
          buf := c.buf.filter (fun y => y.sector != g) ++ [{ sector := g, data := x.data, poison := pmapLines x.pmap }] })) ∧
      (good = false → Completes (.cellarFetchComplete t p g good) s fun u =>
        cellarOf u p = { c with
          buf := c.buf.filter (fun y => y.sector != g) ++ [{ sector := g, data := x.data, poison := 2 ^ 32 - 1 }] } ∧
        (partRec u p).cellarInt = satAdd max16 (partRec s p).cellarInt 1 ∧
        ButEvents { s.clock t with cellars := u.cellars, fab := u.fab } u)) ∧
    (c.lent = true → g < 512 * c.slots → cellarBuf s p g = some b → b.pending = false → l < 32 → bs.length = 128 →
      (b.dirty = true ∨ nextCount c g < 2 ^ 32) →
      Gives (.cellarWrite t p g (128 * l) bs mi) s (setCellarBuf (s.clock t) p { b with
        data := b.data.take (128 * l) ++ mergeBytes ((b.data.drop (128 * l)).take 128) (bs.map some) ++ b.data.drop (128 * l + 128),
        dirty := true, age := 0, poison := setBits b.poison l 1 0 })) ∧
    (cellarBuf s p g = some b → b.dirty = true → b.pending = false → canMaster s (p + 1) = true → c.releasing = false →
      Completes (.cellarEvict t p g leave) s fun u =>
        mfind (cellarOf u p).table g = some { epoch := c.cur, count := nextCount c g, pmap := linesPmap b.poison, data := b.data } ∧
        (∀ h, h ≠ g → mfind (cellarOf u p).table h = mfind c.table h) ∧
        Output.cellarWrite p g c.cur (nextCount c g) (linesPmap b.poison) ∈ u.outbox ∧
        (leave = true → cellarBuf u p g = none) ∧
        (leave = false → cellarBuf u p g = some { b with dirty := false, age := 0 }) ∧
        ButEvents { s.clock t with cellars := u.cellars } u)

/-- The buffer and Cellar commands (08 R192, R195, R197, R198; 07 R184; 15 Table 15-13): accepted with each row's own conditions
met, BUF_ALLOC of size 0 allocates nothing, one that can be backed places the buffer and answers its base, one that cannot is
answered NO_RESOURCE, and a shared one asks the next tray-mate; BUF_FREE frees the buffer; BUF_QUERY answers its record;
CELLAR_LEND and CELLAR_RELEASE begin and end a Cellar. -/
def Obligations.BufferCommandsAct : Prop :=
  ∀ (t : Nat) (a : MbxArgs) (s s1 : State) (r : Req) (q : AllocReq) (b : Buf) (key : Nat) (c : Cellar),
    allocReq s r.part r.params = q → cellarOf s r.part = c →
    (q.size = 0 → Accepts (s.clock t) a
        { opcode := 0x600, rights := 2, pkg := .c, partUse := .one, parts := some [.assigned, .running], resp := 16 } {} r →
      Answers (.bufAlloc t a) s r 0 (allocAnswer 0 (ownLpkg s) 0) a.returnOk (s.clock t)) ∧
    (q.size ≠ 0 → allocBad s q = false → q.pages s ≤ freePages s q.owner →
      Accepts (s.clock t) a
        { opcode := 0x600, rights := 2, pkg := .c, partUse := .one, parts := some [.assigned, .running], resp := 16 } {} r →
      (allocHere s q = some (s1, b) → Answers (.bufAlloc t a) s r 0
        (allocAnswer (if q.shared then boardBase s.boot.posId b.base else b.base) (ownLpkg s) b.width) a.returnOk
        { s.clock t with freeCtr := s.freeCtr + 1, place := s1.place }) ∧
      (allocHere s q = none → q.shared = false → Answers (.bufAlloc t a) s r 0x31 [] a.returnOk (s.clock t)) ∧
      (∀ pos, allocHere s q = none → q.shared = true → nextMate s [] = some pos →
        Starts (.bufAlloc t a) s r (.bufAlloc [pos] (max s.now t)) (sendHay (take (s.clock t) a.mb) ((lpkgOf s pos).getD 0)
          { kind := 0, session := q.session, handle := q.handle, attr := q.attr, size := q.size }))) ∧
    (bufOf s (sessionOf s r.part) (r.f 0 32) = some (key, b) →
      (Accepts (s.clock t) a
        { opcode := 0x601, rights := 2, pkg := .c, partUse := .one, parts := some [.assigned, .running, .fenced] } {} r →
        Answers (.bufFree t a) s r 0 [] a.returnOk (Settled t s (freeBuf (take (s.clock t) a.mb) key b))) ∧
      (Accepts (s.clock t) a
        { opcode := 0x602, rights := 3, pkg := .c, partUse := .one, parts := some notFree, resp := 32 } {} r →
        Answers (.bufQuery t a) s r 0 (leBytes 32 (packBits
          [(if bit b.attr 2 = true then boardBase ((lptPos s b.holder).getD s.boot.posId) b.base else b.base, 48), (b.attr, 16),
           (b.size, 64), (pagesStack b, 32), (pagesCellar b, 24), (b.width, 3), (0, 5), (b.holder, 6)])) a.returnOk (s.clock t))) ∧
    (r.f 0 64 % 4096 = 0 → 1 ≤ r.f 64 17 → r.f 64 17 ≤ 65536 → c.lent = false →
      tableFrames (r.f 64 17) ≤ (tablePlaces s r.part (tableFrames (r.f 64 17))).length → s.keys.drbgFailed = false →
      Accepts (s.clock t) a
        { opcode := 0x607, rights := 2, pkg := .c, partUse := .one, parts := some [.assigned, .running] } {} r →
      Answers (.cellarLend t a) s r 0 [] a.returnOk (setCellar { s.clock t with freeCtr := s.freeCtr + 1 } r.part
        { lent := true, hostBase := r.f 0 64, slots := r.f 64 17,
          tableAt := tablePlaces s r.part (tableFrames (r.f 64 17)), k0 := some s.freeCtr })) ∧
    (c.lent = true → c.releasing = false → r.part < 4 → c.buf.any (·.dirty) = true → canMaster s (r.part + 1) = false →
      (∀ e ∈ s.place.bufs, e.2.owner = r.part → ∀ p ∈ e.2.pages, (pageFrame p).isSome = true) →
      (∀ p, p ≠ r.part → (cellarOf s p).releasing = false) →
      Accepts (s.clock t) a
        { opcode := 0x608, rights := 2, pkg := .c, partUse := .one, parts := some [.assigned, .running, .fenced] } {} r →
      Starts (.cellarRelease t a) s r .cellarRelease (setCellar (s.clock t) r.part { c with releasing := true })) ∧
    (c.lent = true → c.releasing = false → r.part < 4 → c.buf.any (·.dirty) = false →
      (∀ e ∈ s.place.bufs, e.2.owner = r.part → ∀ p ∈ e.2.pages, (pageFrame p).isSome = true) →
      (∀ p, p ≠ r.part → (cellarOf s p).releasing = false) →
      (∀ f ∈ s.mbx.flight, f.kind ≠ .cellarRelease) →
      Accepts (s.clock t) a
        { opcode := 0x608, rights := 2, pkg := .c, partUse := .one, parts := some [.assigned, .running, .fenced] } {} r →
      Completes (.cellarRelease t a) s fun u => cellarOf u r.part = {} ∧ u.place.filling = s.place.filling ++ c.tableAt ∧
        u.mbx.flight = s.mbx.flight)

/-- What an allocation places (08 R192, R194, R195; Table 8-3): as many pages as asked, rounded up; every frame was free, on a
stack of the session's pool that has not failed, and no two pages share a place; no page of a RESIDENT, PINNED or shared buffer
lies in the Cellar; the base lies in the owner's region. -/
def Obligations.AllocationTakesFreePlaces : Prop :=
  ∀ (s s1 : State) (q : AllocReq) (b : Buf), allocHere s q = some (s1, b) → allocBad s q = false →
    b.pages.length = q.pages s ∧ b.pages.Nodup ∧
    (∀ k f, PageAt.frame k f ∈ b.pages → 32768 * k + f ∉ heldFrames s ∧ f < framesPerStack s ∧ (stackOf s k).failed = false) ∧
    (q.resident = true ∨ q.pinned = true ∨ q.shared = true → ∀ n, PageAt.slot n ∉ b.pages) ∧
    b.base / 2 ^ 38 = q.owner ∧ b.base % frameBytes = 0 ∧
    s1.place.bufs = s.place.bufs ++ [(s.place.nextBuf, b)] ∧ s1.place.filling = s.place.filling

/-- The placement commands (08 R209, R211 to R213; 07 R180; 15 Table 15-13): accepted with each row's own conditions met, a mode
and movable tiles are held staged with COMMIT_TICK, a frame move is in flight with its migration begun, and the records of a
session and of the stacks are answered, their RC fields clearing for the operator alone. -/
def Obligations.PlacementCommandsAct : Prop :=
  ∀ (t : Nat) (a : MbxArgs) (s : State) (r : Req) (b : Buf) (key src f page : Nat),
    (tickBad s (r.f 0 64) = false → tickWrong s (r.f 0 64) = false → s.sess.staged.length < 64 →
      (r.f 64 2 ≠ 3 → (r.f 64 2 = 2 → ∀ e ∈ s.place.bufs, e.2.session = sessionOf s r.part → bit e.2.attr 3 = true) →
        Accepts (s.clock t) a
          { opcode := 0x603, rights := 3, pkg := .c, partUse := .one, parts := some [.assigned, .running], resp := 8 } {} r →
        Answers (.placementMode t a) s r 0 (leBytes 8 (commitTick (s.clock t) (r.f 0 64))) a.returnOk
          { s.clock t with sess := { s.sess with staged := s.sess.staged ++
            [⟨if r.f 0 64 = 0 then none else some (r.f 0 64), max s.now t, .placement r.part (r.f 64 2) (r.f 80 16)⟩] } }) ∧
      ((∀ i ∈ span (r.f 64 9) (r.f 73 9), i < 288 ∧ partOfTile i = r.part) →
        Accepts (s.clock t) a
          { opcode := 0x604, rights := 3, pkg := .c, partUse := .one, parts := some [.assigned, .running], resp := 8 } {} r →
        Answers (.tileMovable t a) s r 0 (leBytes 8 (commitTick (s.clock t) (r.f 0 64))) a.returnOk
          { s.clock t with sess := { s.sess with staged := s.sess.staged ++
            [⟨if r.f 0 64 = 0 then none else some (r.f 0 64), max s.now t,
              .movable r.part (r.f 64 9) (r.f 73 9) (bit r.params 82)⟩] } })) ∧
    (tickBad s (r.f 0 64) = false → tickWrong s (r.f 0 64) = false → bufOf s (sessionOf s r.part) (r.f 64 32) = some (key, b) →
      (mget {} s.place.sessions (sessionOf s r.part) : Placement).mode = 2 → page = r.f 96 32 * b.width + r.f 128 3 →
      r.f 128 3 < b.width → candidateStack s b page (r.f 132 4) = true → dieAway s (r.f 132 4) = false →
      b.pages[page]? = some (.frame src f) → dieAway s src = false →
      Accepts (s.clock t) a
        { opcode := 0x605, rights := 3, pkg := .c, partUse := .one, parts := some [.running, .assigned], resp := 16 } {} r →
      Starts (.frameMove t a) s r (.frameMove b.session (r.f 96 32) (r.f 128 3) (r.f 132 4))
        (Settled t s (startMove (take (s.clock t) a.mb) key b page (r.f 132 4) (some (r.f 0 64)) (some (65536 * r.mb + r.seq))))) ∧
    (Accepts (s.clock t) a
        { opcode := 0x606, rights := 3, pkg := .c, partUse := .one, parts := some notFree, resp := 32 } {} r →
      Answers (.placementStatus t a) s r 0 (leBytes 32 (placementRecord s (sessionOf s r.part))) a.returnOk
        (if r.op then updSession (s.clock t) (sessionOf s r.part) (fun p =>
          { p with migrations := 0, abandoned := 0, tileMoves := 0, stubForwards := 0, cellarMoves := 0 }) else s.clock t)) ∧
    (7 ≤ s.boot.stage.getD 0 →
      (r.op = true → Accepts (s.clock t) a { opcode := 0x609, rights := 3, pkg := .any, partUse := .pkg } { resp := some 384 } r →
        Answers (.stackHealth t a) s r 0 ((List.range 12).flatMap (fun k => leBytes 32 (healthRecord (stackOf s k)))) a.returnOk
          ((List.range 12).foldl clearHealth (s.clock t))) ∧
      (r.op = false → Accepts (s.clock t) a { opcode := 0x609, rights := 3, pkg := .any, partUse := .pkg } { resp := some 96 } r →
        Answers (.stackHealth t a) s r 0 ((stacksOf r.part).flatMap (fun k => leBytes 32 (healthRecord (stackOf s k)))) a.returnOk
          (s.clock t)))

/-- The Stacker's own steps (08 R195, R205, R206, R208, R210, R211; 15 R373): a copied migration has its copy's end recorded and
every line of the destination as the source's, poisoned where that was uncorrectable; a stub is retired into a zero fill; a
filled frame reads 0 everywhere and is held no longer; Frozen expires; a tile move starts, ends its copy, or is abandoned and
counted; a late candidate holder is passed by. -/
def Obligations.StackerStepsAct : Prop :=
  ∀ (t k f i row ses m seq : Nat) (mi : MemIn) (ok : Bool) (s : State) (mv : Migration) (b : Stub) (p : Placement) (x : TileMove)
    (fl : InFlight) (l : List Nat) (w : Nat),
    (s.place.moves.find? (fun m => m.srcStack == k && m.srcFrame == f && m.endAt.isNone) = some mv → mi.errs = [] →
      mv.dstStack ≠ mv.srcStack → (stackOf s k).failed = false →
      Completes (.migrationCopyEnd t k f mi) s fun u =>
        (∀ o < frameBytes, frameLines * f + o / 128 ∉ (stackOf s k).poisoned → frameLines * f + o / 128 ∉ (stackOf s k).bad →
          stkRead u mv.dstStack (frameBytes * mv.dstFrame + o) 1 = stkRead s k (frameBytes * f + o) 1) ∧
        (∀ n < frameLines, frameLines * mv.dstFrame + n ∈ (stackOf u mv.dstStack).poisoned ↔
          frameLines * f + n ∈ (stackOf s k).poisoned ∨ frameLines * f + n ∈ (stackOf s k).bad) ∧
        (∀ e ∈ u.place.moves, e = { mv with endAt := some (max s.now t) } ∨ e ∈ s.place.moves) ∧
        { mv with endAt := some (max s.now t) } ∈ u.place.moves) ∧
    (s.place.stubs.find? (fun b => b.stack == k && b.frame == f) = some b → 2 ≤ b.age →
      Gives (.stubRetire t k f) s { s.clock t with place := { s.place with
        stubs := s.place.stubs.filter (· != b), filling := s.place.filling ++ [32768 * k + f] } }) ∧
    (32768 * k + f ∈ s.place.filling → (stackOf s k).selfRefresh = false → f < 32768 →
      Completes (.frameFillDone t k f) s fun u => 32768 * k + f ∉ u.place.filling ∧
        (∀ o < frameBytes, stkRead u k (frameBytes * f + o) 1 = [0]) ∧
        (∀ n, n / frameLines = f → n ∉ (stackOf u k).bad ∧ n ∉ (stackOf u k).poisoned) ∧
        u.mem.spad = s.mem.spad ∧ u.mem.win = s.mem.win ∧ (∀ j, j ≠ k → stackOf u j = stackOf s j)) ∧
    (mfind s.place.sessions ses = some p → p.mode = 1 → p.left = 0 → Gives (.frozenExpire t ses) s { s.clock t with
      place := { s.place with sessions := mset s.place.sessions ses { p with frozen := true } } }) ∧
    (unusedRow s (colOfTile i) = some row → tileMoveOk (s.clock t) i row = true → Gives (.tileMoveStart t i) s { s.clock t with
      place := { s.place with tileMoves := s.place.tileMoves ++ [{ tile := i, row := row, start := max s.now t }] } }) ∧
    (x ∈ s.place.tileMoves → x.tile = i → x.copyEnd = none →
      Gives (.tileCopyEnd t i) s { s.clock t with place := { s.place with
        tileMoves := s.place.tileMoves.map (fun m => if m.tile == i then { m with copyEnd := some (max s.now t) } else m) } } ∧
      Completes (.tileMoveAbandon t i) s fun u => (∀ y ∈ u.place.tileMoves, y.tile ≠ i) ∧
        (mget {} u.place.sessions (sessionOf s (partOfTile i)) : Placement).abandoned =
          satAdd max16 (mget {} s.place.sessions (sessionOf s (partOfTile i)) : Placement).abandoned 1 ∧
        u = { s.clock t with place := { s.place with tileMoves := u.place.tileMoves, sessions := u.place.sessions } }) ∧
    (s.mbx.flight.find? (fun f => f.mb == m && f.seq == seq) = some fl → fl.kind = .bufAlloc l w → serving s = true →
      w + 10000000 ≤ max s.now t →
      (nextMate s l = none → Completes (.candidateHolderTimeout t m seq ok) s fun u =>
        u.mbx.flight = s.mbx.flight.erase fl ∧ ButMail (s.clock t) u) ∧
      (∀ pos, nextMate s l = some pos → Completes (.candidateHolderTimeout t m seq ok) s fun u =>
        { fl with kind := .bufAlloc (l ++ [pos]) (max s.now t) } ∈ u.mbx.flight ∧ u.place = s.place))

/-- Links and lanes (09 R215, R218, R222 to R229, R232 to R235): training starts, ends UP, MISWIRED or DOWN with a retry due,
and retries; loopback retrains; a sound codeword counts its corrections, an uncorrectable one is discarded whole, 16 in a window
or 8 in a row drop the lane; lost signals drop a lane or lose the link; a window below DROP twice drops a lane; a retrained lane
rejoins, or fails, FAILED at its third failure. -/
def Obligations.LanesAndLinksAct : Prop :=
  ∀ (t n k i pos link peer far errs heads snr f : Nat) (dfe : Int) (ctle : Nat) (m m0 m1 m2 : Int) (ix : List Nat)
    (ms : List (Option Int)) (fs : List Nat) (s e : State) (a : Lane) (l : Link),
    s.clock t = e → n < 213 → n / 3 = k → n % 3 = i → laneOf s n = a → linkOf s k = l →
    (fabricOn e = true → a.signal = false →
      (l.state = .lost → Completes (.linkSignalDetect t n) s fun u => (linkOf u k).state = .training ∧ (laneOf u n).signal = true ∧
        (linkOf u k).attempts = satAdd max16 l.attempts 1 ∧ (linkOf u k).trainStart = some (max s.now t) ∧
        u = { e with fab := u.fab }) ∧
      (l.state = .up ∨ l.state = .degraded ∨ l.state = .training ∨ l.state = .disabled → Gives (.linkSignalDetect t n) s
        (setLane e n { a with signal := true, lostAt := none, lstate := if a.lstate = .miswired then .retrain else a.lstate }))) ∧
    (fabricOn e = true → l.state = .training →
      (pos ≠ farEnd s k ∨ link ≠ 70 - k → Completes (.linkTrainComplete t k pos link ix peer far ms) s fun u =>
        linkOf u k = { l with trainStart := none, peerId := peer, state := .miswired } ∧
        u = { e with fab := u.fab, faults := u.faults, evt := u.evt, outbox := u.outbox }) ∧
      (pos = farEnd s k → link = 70 - k → (∃ w, l.trainStart = some w ∧ max s.now t ≤ w + 12000000000) → ix = [0, 1, 2] →
        ms = [some m0, some m1, some m2] → (cfg s 0x28 4 : Int) ≤ m0 → (cfg s 0x28 4 : Int) ≤ m1 → (cfg s 0x28 4 : Int) ≤ m2 →
        far % 8 = 7 → (∀ j < 3, (laneOf s (3 * k + j)).lstate ≠ .failed ∧ (laneOf s (3 * k + j)).lstate ≠ .disabled) →
        Completes (.linkTrainComplete t k pos link ix peer far ms) s fun u =>
          (linkOf u k).state = .up ∧ (linkOf u k).peerId = peer ∧ (linkOf u k).rxLanes = setBits (setBits (setBits l.rxLanes 0 1 1) 1 1 1) 2 1 1 ∧
          (linkOf u k).txLanes = 7 ∧ (∀ j < 3, (laneOf u (3 * k + j)).lstate = .inService)) ∧
      (pos = farEnd s k → link = 70 - k → far % 8 = 0 → Completes (.linkTrainComplete t k pos link ix peer far ms) s fun u =>
        (linkOf u k).state = .down ∧ (linkOf u k).retryAt = some (max s.now t + 1000000000) ∧ (linkOf u k).rxLanes = 0)) ∧
    (fabricOn e = true → l.state = .down → l.retryAt = some f → f ≤ max s.now t → Completes (.linkTrainRetry t k) s fun u =>
      (linkOf u k).state = .training ∧ (linkOf u k).attempts = satAdd max16 l.attempts 1 ∧ u = { e with fab := u.fab }) ∧
    (fabricOn e = true → s.fab.loopAt + 10000000000 ≤ max s.now t → Completes (.loopbackRetrain t [m0, m1, m2]) s fun u =>
      mget 0 u.fab.loop 0 = m0 ∧ mget 0 u.fab.loop 1 = m1 ∧ mget 0 u.fab.loop 2 = m2 ∧
      ButEvents { e with fab := { e.fab with loop := u.fab.loop, loopAt := max s.now t } } u ∧
      (30 ≤ m0 → 30 ≤ m1 → 30 ≤ m2 → u.evt = s.evt)) ∧
    (fabricOn e = true → a.lstate = .inService →
      (errs ≤ 15 → Gives (.codewordReceive t n errs heads fs) s (Settled t s
        (((fs.take 20).zipIdx.map (fun x => (x.1 % 2 ^ 256, bit heads x.2))).foldl (flitIn n)
          (setLane (setLink e k { l with port := { l.port with fecCorr := satAdd max32 l.port.fecCorr errs } }) n
            { a with
              cw := (a.cw + 1) % 2 ^ 48, corrSym := satAdd max32 a.corrSym errs, curMax := max a.curMax errs
              runUncorr := 0 })))) ∧
      (errs ≤ 15 → f < 2 ^ 256 → bits f 0 16 ≠ 0xFFFF → hcrcOk f = true → hOp f ≠ 0 → hLen f = 0 → hEnc f = false → heads % 2 = 1 → a.rx = none →
        Completes (.codewordReceive t n errs heads [f]) s fun u =>
          (laneOf u n).arrived = a.arrived ++ [{ hdr := f }] ∧ (laneOf u n).skip = false ∧ u = { e with fab := u.fab }) ∧
      (15 < errs → a.winUncorr + 1 < 16 → a.runUncorr + 1 < 8 → a.rx = none → Gives (.codewordReceive t n errs heads fs) s
        (setLane (setLink e k { l with port := { l.port with fecUncorr := satAdd max16 l.port.fecUncorr 1 } }) n
          { a with
            cw := (a.cw + 1) % 2 ^ 48, uncorrCw := satAdd max16 a.uncorrCw 1, winUncorr := a.winUncorr + 1
            runUncorr := a.runUncorr + 1, skip := true })) ∧
      (15 < errs → 15 ≤ a.winUncorr ∨ 7 ≤ a.runUncorr → l.state = .up → 2 ≤ popcount3 (setBits l.rxLanes i 1 0) →
        2 ≤ popcount3 l.txLanes → Completes (.codewordReceive t n errs heads fs) s fun u =>
          (laneOf u n).lstate = .retrain ∧ (laneOf u n).lastCause = (if 15 ≤ a.winUncorr then 2 else 3) ∧
          (laneOf u n).drops = satAdd max16 a.drops 1 ∧ (linkOf u k).rxLanes = setBits l.rxLanes i 1 0 ∧
          u = { e with fab := u.fab, evt := u.evt, outbox := u.outbox })) ∧
    (a.signal = true →
      (a.lstate = .inService → (laneOf s (3 * k + (i + 1) % 3)).signal = true → l.state = .up → 2 ≤ popcount3 (setBits l.rxLanes i 1 0) →
        2 ≤ popcount3 l.txLanes → Completes (.laneSignalLost t n) s fun u =>
          (laneOf u n).lstate = .retrain ∧ (laneOf u n).lastCause = 4 ∧ (laneOf u n).signal = false ∧
          (laneOf u n).drops = satAdd max16 a.drops 1 ∧ (linkOf u k).rxLanes = setBits l.rxLanes i 1 0) ∧
      (l.state ≠ .disabled → l.state ≠ .lost →
        (∀ j < 3, j ≠ i → (laneOf s (3 * k + j)).signal = false ∧ ∃ w, (laneOf s (3 * k + j)).lostAt = some w ∧ max s.now t ≤ w + 2000) →
        Completes (.laneSignalLost t n) s fun u => (linkOf u k).state = .lost ∧ (usable s k = true → (linkOf u k).queue = []) ∧
          (linkOf u k).losEvents = satAdd max16 l.losEvents 1 ∧ (linkOf u k).rxLanes = 0 ∧ (linkOf u k).txLanes = 0)) ∧
    (fabricOn e = true → a.lstate = .inService → a.winAt + 1000000 ≤ max s.now t → -128 ≤ m → m ≤ 127 → snr ≤ 255 →
      ((cfg s 0x26 4 : Int) ≤ m → (cfg s 0x27 4 : Int) ≤ m → Gives (.marginWindow t n m snr) s (setLane e n
        { a with
          margin := m, snr := snr, maxSym := a.curMax, curMax := 0, winUncorr := 0, winAt := max s.now t, belowDrop := 0 })) ∧
      (m < (cfg s 0x27 4 : Int) → a.belowDrop = 1 → l.state = .up → 2 ≤ popcount3 (setBits l.rxLanes i 1 0) → 2 ≤ popcount3 l.txLanes →
        Completes (.marginWindow t n m snr) s fun u => (laneOf u n).lstate = .retrain ∧ (laneOf u n).lastCause = 1 ∧
          (laneOf u n).drops = satAdd max16 a.drops 1 ∧ (laneOf u n).margin = m ∧ (laneOf u n).rx = a.rx ∧
          (linkOf u k).rxLanes = setBits l.rxLanes i 1 0)) ∧
    (fabricOn e = true → a.lstate = .inService ∨ a.lstate = .retrain → -128 ≤ dfe → dfe ≤ 127 →
      Gives (.rxAdaptUpdate t n dfe ctle none) s (setLane e n { a with dfe1 := dfe, ctle := ctle % 32 })) ∧
    (fabricOn e = true → a.lstate = .retrain →
      (peer ≠ l.peerId → Completes (.laneRetrainComplete t n m peer) s fun u => (linkOf u k).state = .training) ∧
      (peer = l.peerId → (cfg s 0x28 4 : Int) ≤ m → m ≤ 127 → -128 ≤ m → l.state = .up ∨ l.state = .degraded ∨ l.state = .down →
        2 ≤ popcount3 (setBits l.rxLanes i 1 1) → 2 ≤ popcount3 l.txLanes → Completes (.laneRetrainComplete t n m peer) s fun u =>
          (laneOf u n).lstate = .inService ∧ (laneOf u n).margin = m ∧ (laneOf u n).retrains = satAdd max16 a.retrains 1 ∧
          (linkOf u k).rxLanes = setBits l.rxLanes i 1 1 ∧
          (linkOf u k).state = (if popcount3 (setBits l.rxLanes i 1 1) = 3 ∧ popcount3 l.txLanes = 3 then .up else .degraded)) ∧
      (peer = l.peerId → m < (cfg s 0x28 4 : Int) → Completes (.laneRetrainComplete t n m peer) s fun u =>
        laneOf u n = { a with
          fails := (laneOf u n).fails, lastCause := 6, lstate := if 3 ≤ (laneOf u n).fails.length then .failed else .retrain } ∧
        (laneOf u n).fails = a.fails.filter (fun f => decide (max s.now t < f + 600000000000)) ++ [max s.now t] ∧
        u = { e with fab := u.fab }))

/-- Link flits taken from a lane (09 R219, R227, R230, R235; 10 R254): sound, of its TYPE, with CTRL_LOST clear: IDLE only
clears the peer's CTRL_LOST; STATUS sets the lanes the far end accepts and settles the state; CREDIT adds the running counts'
advance; ADAPT moves the tap one step, at its limit holding, once a millisecond; CTRL_LOST twice in a row raises it. -/
def Obligations.LinkFlitsAct : Prop :=
  ∀ (t n k f v tap j m : Nat) (p : Pkt) (s e e2 : State) (a b : Lane) (l l2 : Link),
    s.clock t = e → n < 213 → n / 3 = k → laneOf s n = a → linkOf s k = l → flitHead s n = some p → p.hdr = f → hcrcOk f = true →
    { a with arrived := a.arrived.erase p } = b → { l with ctrlRun := 0, ctrlLost := false } = l2 →
    setLink (setLane e n b) k l2 = e2 →
    (bit f 24 = false →
      (bits f 16 8 = 1 → Gives (.linkFlitIdle t n) s e2) ∧
      (bits f 16 8 = 2 → l.state = .up ∨ l.state = .degraded ∨ l.state = .down → 2 ≤ popcount3 l.rxLanes → 2 ≤ popcount3 (bits f 46 3) →
        Completes (.linkFlitStatus t n) s fun u => (linkOf u k).txLanes = bits f 46 3 ∧
          (linkOf u k).state = (if popcount3 (bits f 46 3) = 3 ∧ popcount3 l.rxLanes = 3 then .up else .degraded) ∧
          u = { e with fab := u.fab }) ∧
      (bits f 16 8 = 2 → l.state = .up ∨ l.state = .degraded → popcount3 (bits f 46 3) < 2 → noneInService s k = false →
        Completes (.linkFlitStatus t n) s fun u => (linkOf u k).state = .down ∧ (linkOf u k).queue = [] ∧ u = { e with fab := u.fab }) ∧
      (bits f 16 8 = 3 → Completes (.linkFlitCredit t n) s fun u =>
        (∀ i < 12, mget {} (linkOf u k).pairs i = { (mget {} l.pairs i : Pair) with
          credits := (mget {} l.pairs i : Pair).credits + (bits f (32 + 12 * i) 12 + 4096 - (mget {} l.pairs i : Pair).lastCount) % 4096
          lastCount := bits f (32 + 12 * i) 12 }) ∧
        (linkOf u k).queue = l.queue ∧ (linkOf u k).state = l.state ∧ u = { e with fab := { e.fab with links := u.fab.links, lanes := u.fab.lanes } }) ∧
      (bits f 16 8 = 4 → bits f 32 2 = j → j < 3 → 3 * k + j = m → bits f 34 3 = tap → tap ≤ 4 → bits f 37 2 = v → v = 1 ∨ v = 2 → (laneOf s m).taps.length = 5 →
        (∀ w, mfind (laneOf s m).tapAt tap = some w → w + 1000000 ≤ max s.now t) → Completes (.linkFlitAdapt t n) s fun u =>
          (laneOf u m).taps.getD tap 0 = tapStep tap v ((laneOf s m).taps.getD tap 0) ∧
          (∀ x < 5, x ≠ tap → (laneOf u m).taps.getD x 0 = (laneOf s m).taps.getD x 0) ∧ u = { e2 with fab := { e2.fab with lanes := u.fab.lanes } }) ∧
      (bits f 16 8 = 4 → bits f 37 2 = 0 ∨ bits f 37 2 = 3 ∨ 4 < bits f 34 3 ∨ bits f 32 2 = 3 → Gives (.linkFlitAdapt t n) s e2)) ∧
    (bit f 24 = true → bits f 16 8 = 1 →
      (l.ctrlRun = 0 → l.ctrlLost = false → Gives (.linkFlitIdle t n) s (setLink (setLane e n b) k { l with ctrlRun := 1 })) ∧
      (1 ≤ l.ctrlRun → Completes (.linkFlitIdle t n) s fun u => (linkOf u k).ctrlLost = true))

/-- The fabric commands on links and lanes (09 R229, R232, R237; 10 R268 to R270; 15 Table 15-11): accepted, they disable,
enable, retrain and release a link, disable and enable a lane, and answer the lane, link, port and partition records, whose RC
fields clear for the operator alone. -/
def Obligations.FabricLinkCommandsAct : Prop :=
  ∀ (t k n : Nat) (a : MbxArgs) (s e : State) (r : Req),
    take (s.clock t) a.mb = e → r.f 8 7 = k → k ≤ 70 → r.f 16 2 < 3 → 3 * k + r.f 16 2 = n →
    (Accepts (s.clock t) a { opcode := 0x0402, rights := 1, pkg := .uc, partUse := .pkg } {} r →
      (r.f 0 4 = 0 → (linkOf s k).state ≠ .disabled →
        Completes (.linkDisable t a) s fun u => Replied u r 0 [] a.returnOk ∧ (linkOf u k).state = .disabled ∧
          (linkOf u k).rxLanes = 0 ∧ (∀ j < 3, (laneOf u (3 * k + j)).lstate = .disabled) ∧
          ButMail { s.clock t with fab := u.fab } u) ∧
      (r.f 0 4 = 1 → (linkOf s k).state = .disabled → (∀ j < 3, (laneOf s (3 * k + j)).signal = false) →
        Completes (.linkEnable t a) s fun u => Replied u r 0 [] a.returnOk ∧ (linkOf u k).state = .down ∧
          (∀ j < 3, (laneOf u (3 * k + j)).lstate = (if (laneOf s (3 * k + j)).lstate = .disabled then .off else (laneOf s (3 * k + j)).lstate)) ∧
          ButMail { s.clock t with fab := u.fab } u) ∧
      (r.f 0 4 = 2 → (linkOf s k).state ≠ .disabled → Answers (.linkRetrain t a) s r 0 [] a.returnOk (Settled t s (startTraining e k))) ∧
      (r.f 0 4 = 3 → (linkOf s k).quarantined = true → Completes (.quarantineRelease t a) s fun u => Replied u r 0 [] a.returnOk ∧
        linkOf u k = { linkOf s k with quarantined := false } ∧ u.fab.mapDirty = true ∧
        ButMail { s.clock t with fab := { s.fab with links := u.fab.links, mapDirty := true } } u) ∧
      (r.f 0 4 = 4 → (laneOf s n).lstate = .inService → Answers (.laneDisable t a) s r 0 [] a.returnOk
        (Settled t s (dropLane e n 5 .disabled true))) ∧
      (r.f 0 4 = 4 → (laneOf s n).lstate ≠ .inService → (laneOf s n).lstate ≠ .disabled →
        Answers (.laneDisable t a) s r 0 [] a.returnOk (setLane (s.clock t) n { laneOf s n with lstate := .disabled })) ∧
      (r.f 0 4 = 5 → (laneOf s n).lstate = .disabled ∨ (laneOf s n).lstate = .failed →
        Answers (.laneEnable t a) s r 0 [] a.returnOk (setLane (s.clock t) n { laneOf s n with lstate := .retrain, fails := [] }))) ∧
    (Accepts (s.clock t) a { opcode := 0x0403, rights := 1, pkg := .any, partUse := .pkg, resp := 6816 } {} r →
      Answers (.laneStatus t a) s r 0 ((List.range 213).flatMap (fun n => leBytes 32 (laneRecord s n))) a.returnOk
        { s.clock t with fab := { s.fab with lanes := mmap s.fab.lanes (fun _ (l : Lane) =>
          { l with corrSym := 0, uncorrCw := 0, drops := 0, retrains := 0 }) } }) ∧
    (Accepts (s.clock t) a { opcode := 0x0404, rights := 1, pkg := .any, partUse := .pkg, resp := 1136 } {} r →
      Answers (.linkStatus t a) s r 0 ((List.range 71).flatMap (fun k => leBytes 16 (linkRecord s k))) a.returnOk
        { s.clock t with fab := { s.fab with links := mmap s.fab.links (fun _ (l : Link) => { l with attempts := 0, losEvents := 0 }) } }) ∧
    (Accepts (s.clock t) a { opcode := 0x0405, rights := 1, pkg := .any, partUse := .pkg, resp := 4544 } {} r →
      Answers (.routerTelemetry t a) s r 0 ((List.range 71).flatMap (fun k => leBytes 64 (portRecord (s.clock t) k))) a.returnOk
        (Settled t s ((List.range 71).foldl clearPort e))) ∧
    (Accepts (s.clock t) a { opcode := 0x0406, rights := 3, pkg := .any, partUse := .one, resp := 32 } {} r →
      Answers (.partFabric t a) s r 0 (leBytes 32 (partRecord s r.part)) a.returnOk
        (if r.op then setPartRec (s.clock t) r.part {} else s.clock t))

/-- Sending (10 R244, R246, R249 to R261): a packet whose limiter is open takes its route, or a request to an LPT entry not
valid ends as NOT_PERMITTED; the output sends the packet chosen, spending credits; an aged VC is promoted; an intermediate sets
HOPCLASS and queues; one 500 µs in a Loft is discarded; LINKMAPs go to live peers; a held acknowledgement is sent; K and RATE
follow their rules. -/
def Obligations.PacketsAreSent : Prop :=
  ∀ (t i k n vc w f : Nat) (idle : Bool) (opened : Option (List Byte)) (s e : State) (p q : Pkt) (r : OutReq) (l l1 : Link) (o : OutPkt)
    (x : HeldAck),
    s.clock t = e → linkOf s k = l →
    (s.fab.inject[i]? = some (p, w) → limiterOpen e p.hdr = true →
      (restamp s p = some q → Gives (.packetInject t i) s (Settled t s
        (let s2 := startTimer { e with fab := { e.fab with inject := s.fab.inject.eraseIdx i } } q
         if hDestPos q.hdr = s.boot.posId then { s2 with fab := { s2.fab with local_ := s2.fab.local_ ++ [q] } }
         else sendRouted (limiterTake s2 q.hdr) q))) ∧
      (restamp s p = none → reqOf s p = some r → Gives (.packetInject t i) s (Settled t s
        (reqFail { e with fab := { e.fab with inject := s.fab.inject.eraseIdx i, reqs := s.fab.reqs.erase r } } r 3)))) ∧
    (k < 71 → usable s k = true → n < 3 → bit l.txLanes n = true → pickVc e (touch e l) = some (vc, l1) → vcHead e l1 vc = some o →
      o.from_ = none → linkHeader s k o.pkt.hdr = f → Completes (.linkOutputSelect t k n) s fun u =>
        u.outbox = .packet k f o.pkt.pay :: s.outbox ∧ (linkOf u k).queue = l1.queue.erase o ∧
        (linkOf u k).port.txPkts = satAdd max32 l.port.txPkts 1 ∧
        (hOp f ≠ 0 → (mget {} (linkOf u k).pairs (pairOf f) : Pair).credits =
          (mget {} l.pairs (pairOf f) : Pair).credits - outFlits s o.pkt.hdr) ∧
        (∀ j, j ≠ k → linkOf u j = linkOf s j) ∧ u = { e with fab := { e.fab with links := u.fab.links }, outbox := u.outbox }) ∧
    (k < 71 → 1 ≤ vc → vc ≤ 5 → l.promoted.contains vc = false → mfind (touch e l).since vc = some w →
      w + 1000 * cfg s (0x15 + vc) 4 ≤ max s.now t → Gives (.vcAgePromote t k vc) s
        (setLink e k { touch e l with promoted := l.promoted ++ [vc] })) ∧
    (n < 213 → n / 3 = k → laneHead s n = some p → p.hdr = f → usable s k = true → bits f 0 16 ≠ 0xFFFF → hDestPos f ≠ s.boot.posId → hOp f ≠ 0 →
      classify e k f opened = none → quarDrop s k f = false →
      (usable s (linkTo s (hDestPos f)) = true → Gives (.packetForward t n opened) s (Settled t s
        (enqueue (holdFlits (countRx (popLane e n) k f) k (pairOf f) (pktFlits f)) (linkTo s (hDestPos f))
          { hdr := sealHdr (setBits (setBits (setBits f 11 1 1) 14 1 0) 22 1 0), pay := clearPay p opened } (some k) (pktFlits f)))) ∧
      (usable s (linkTo s (hDestPos f)) = false → Gives (.packetForward t n opened) s (Settled t s
        (discard (freeFlits (countRx (popLane e n) k f) k (pairOf f) (pktFlits f)) (linkTo s (hDestPos f)))))) ∧
    (s.fab.inject[i]? = some (p, w) → w + 500000 ≤ max s.now t → Gives (.packetAgedOut t 255 i) s
      (discard { e with fab := { e.fab with inject := s.fab.inject.eraseIdx i } } (linkTo s (hDestPos p.hdr)))) ∧
    (k < 71 → l.queue[i]? = some o → o.entered + 500000 ≤ max s.now t → o.from_ = none → Completes (.packetAgedOut t k i) s fun u =>
      (linkOf u k).queue = l.queue.eraseIdx i ∧ (linkOf u k).port.discards = satAdd max16 l.port.discards 1 ∧
      u = { e with fab := { e.fab with links := u.fab.links } }) ∧
    (s.mbx.headless = false → s.sess.pkg.isSome = true → s.fab.mapDirty = true ∨ s.fab.mapSent + 1000000 ≤ max s.now t →
      Completes (.linkmapSend t) s fun u => u.fab.mapSent = max s.now t ∧ u.fab.mapDirty = false ∧
        u.fab.inject = s.fab.inject ++ ((List.range 72).filter (fun q => q != s.boot.posId && live s (linkTo s q))).map (fun q =>
          (mkPkt s { op := 0x32, vc := 5, destPos := q, destEid := 1024 * (lpkgOf s q).getD 0 + 344, srcEid := ownEid s 344 }
            (leBytes 32 (packBits [(liveBits s, 128), (s.tick.count.toNat, 64)])), max s.now t)) ∧
        u = { e with fab := { e.fab with mapSent := u.fab.mapSent, mapDirty := u.fab.mapDirty, inject := u.fab.inject } }) ∧
    (s.fab.acks[i]? = some x → x.seqs.length = 1 → Gives (.writeAckSend t i) s
      (queueInject { e with fab := { e.fab with acks := s.fab.acks.eraseIdx i } } (mkPkt e
        { op := 4, vc := 0, route := x.route, via := x.via, echo := x.echo, destPos := x.destPos, destEid := x.destEid,
          srcEid := ownEid s x.ep, seq := x.seqs.headD 0 } []))) ∧
    (s.fab.acks[i]? = some x → 2 ≤ x.seqs.length → Gives (.writeAckSend t i) s
      (queueInject { e with fab := { e.fab with acks := s.fab.acks.eraseIdx i } } (mkPkt e
        { op := 4, vc := 0, route := x.route, via := x.via, echo := x.echo, destPos := x.destPos, destEid := x.destEid,
          srcEid := ownEid s x.ep, seq := x.seqs.headD 0, operand := x.seqs.length } (x.seqs.flatMap (leBytes 2))))) ∧
    (k < 71 → l.winAt + 10000 ≤ max s.now t → Gives (.markKUpdate t k idle) s (setLink e k { touch e l with
      markK := some (if (touch e l).overK.any (fun v => decide (5000 < v.2)) = true then max (cfg s 0x1D 4) (markK s l - 32)
                     else if 0 < l.winMarked ∧ idle = true then min (cfg s 0x1E 4) (markK s l + 64) else markK s l)
      overK := [], winMarked := 0, winAt := max s.now t })) ∧
    (k < 64 → (limiterOf s k).aiAt + 1000 * cfg s 0x22 4 ≤ max s.now t → Gives (.rateAiPeriod t k) s (setLimiter e k
      { fillBucket e (limiterOf s k) with
        rate := if (limiterOf s k).echo then (limiterOf s k).rate else min (cfg s 0x1F 4) ((limiterOf s k).rate + cfg s 0x21 4)
        echo := false, aiAt := max s.now t }))

/-- Requests and messages that arrive (10 R242, R244, R248, R250, R254, R255, R267, R531; 04 R110, R114; 06 R136, R149; 02 R53;
20 R470): permitted, a WRITE lands and is acknowledged, a READ_REQ answered, a SYNC update applied and answered, a GLEANER_CMD
queued; refused, each is answered NACK with its status; a violation is counted under its class; TRUNCATE discards the packet in
progress; ABORT, OVERRUN_NOTICE, SCRUB_NOTICE and LINKMAP act as their rules say. -/
def Obligations.PacketsAreDelivered : Prop :=
  ∀ (t n h ep nb ses q x ps : Nat) (b b' : Bool) (opened : Option (List Byte)) (mi : MemIn) (si : SpadIn) (s e s1 s2 : State) (p : Pkt) (pay bs : List Byte)
    (c : OverrunEntry),
    s.clock t = e → hDestEid h % 1024 = ep → bits (hOperand h) 0 11 = nb →
    (Arrives e n 1 opened p s1 h pay → accessReady e h nb = true →
      (∀ st, accessNack s1 n h ses true nb = some st → Gives (.write t n opened ses mi) s (Settled t s (nack s1 h st))) ∧
      (accessNack s1 n h ses true nb = none → (hDcc h = true → inReach s1 n h ses ((partOfEp ep).getD 0) = true) →
        (ep < 288 → Gives (.write t n opened ses mi) s (Settled t s
            (holdAck (landSpad s1 ep (hAddr h) (pay.take nb) (if hDcc h then some (hCc h) else none)) h))) ∧
        (340 ≤ ep → landMem s1 2 (hAddr h) (pay.take nb) (if hDcc h then some (hCc h) else none) mi = (s2, b) →
          Gives (.write t n opened ses mi) s (Settled t s (if b then holdAck s2 h else nack s2 h 4))))) ∧
    (Arrives e n 2 opened p s1 h pay → accessReady e h nb = true →
      (∀ st, accessNack s1 n h ses false nb = some st → Gives (.readReq t n opened ses mi si) s (Settled t s (nack s1 h st))) ∧
      (accessNack s1 n h ses false nb = none →
        (nb = 0 → Gives (.readReq t n opened ses mi si) s (Settled t s (answerPkt s1 h 3 (hVc h) 0 []))) ∧
        (nb ≠ 0 → ep < 288 → badIn si (hAddr h) nb = false → Gives (.readReq t n opened ses mi si) s (Settled t s
          (answerPkt (eccCount s1 ep si) h 3 (hVc h) 0 (spadRead s1 ep (hAddr h) nb)))) ∧
        (nb ≠ 0 → 340 ≤ ep → maRead s1 2 (hAddr h) nb mi = (s2, bs, []) → Gives (.readReq t n opened ses mi si) s (Settled t s
          (answerPkt s2 h 3 (hVc h) 0 bs))))) ∧
    (Arrives e n 5 opened p s1 h pay → partOfEp ep = some q →
      (endpointShut s1 q = true → Gives (.syncAddPacket t n opened ses) s (Settled t s (nack s1 h 1))) ∧
      (endpointShut s1 q = false → inReach s1 n h ses q = false → Gives (.syncAddPacket t n opened ses) s (Settled t s (nack s1 h 2))) ∧
      (endpointShut s1 q = false → inReach s1 n h ses q = true → Gives (.syncAddPacket t n opened ses) s (Settled t s
        (answerPkt (ccAdd s1 q (hCc h) (hOperand h)) h 7 0 0 [])))) ∧
    (Arrives e n 6 opened p s1 h pay → partOfEp ep = some q → endpointShut s1 q = false → inReach s1 n h ses q = true →
      Gives (.syncSetPacket t n opened ses) s (Settled t s (answerPkt (ccSet s1 q (hCc h) (hOperand h)) h 7 0 0 []))) ∧
    (Arrives e n 8 opened p s1 h pay → 288 ≤ ep → ep < 300 → leNat (pay.take 64) / 2 ^ 64 * 2 ^ 64 = x → ep - 288 = ps →
      glnRoom e ps (leNat (pay.take 64)) = true →
      (endpointShut s1 (partOfStack ps) = true → Gives (.gleanerCmd t n opened ses) s (Settled t s (nack s1 h 1))) ∧
      (endpointShut s1 (partOfStack ps) = false → glnAtOnce x = false → glnMalformed s1 x = none →
        (glnRefusal s1 (senderSes s1 n h ses) x = none → Gives (.gleanerCmd t n opened ses) s (Settled t s
          (glnPut s1 ps { body := x, src := .vc4 h, arrived := max s.now t, ses := senderSes s1 n h ses }))) ∧
        (glnRefusal s1 (senderSes s1 n h ses) x = some 3 → Gives (.gleanerCmd t n opened ses) s (Settled t s (nack s1 h 2))))) ∧
    (n < 213 → laneHead s n = some p → p.hdr = h → (∀ x, classify e (n / 3) h opened = some x → Completes (.malformedPacket t n opened) s fun u =>
      mget 0 u.fab.classes x = satAdd max32 (mget 0 s.fab.classes x) 1 ∧
      (linkOf u (n / 3)).port.violations = satAdd max16 (linkOf s (n / 3)).port.violations 1 ∧
      (laneOf u n).arrived = (laneOf s n).arrived.drop 1 ∧ u.mem = s.mem ∧
      u = { e with fab := u.fab, faults := u.faults, evt := u.evt, outbox := u.outbox })) ∧
    (n < 213 → laneHead s n = some p → p.hdr = h → hOp h = 0 → classify e (n / 3) h opened = none →
      Completes (.truncate t n opened) s fun u => (laneOf u n).arrived = (laneOf s n).arrived.drop 1 ∧
        (linkOf u (n / 3)).port.discards =
          (if p.pay = [] then (linkOf s (n / 3)).port.discards else satAdd max16 (linkOf s (n / 3)).port.discards 1) ∧
        u = { e with fab := u.fab, outbox := u.outbox }) ∧
    (Arrives e n 0x20 opened p s1 h pay →
      ((∃ p < 4, hJob h ∈ (partOf s p).jobs) → Gives (.abort t n opened) s (Settled t s (actOnAbort s1 (hJob h) 10
        { lpkg := bits (leNat pay) 64 6, part := bits (leNat pay) 70 2, valid := bit (leNat pay) 76, operator := bit (leNat pay) 77 }))) ∧
      ((∀ p < 4, hJob h ∉ (partOf s p).jobs) → Gives (.abort t n opened) s (Settled t s
        { s1 with faults := { s1.faults with strayAborts := s1.faults.strayAborts + 1, strayJob := hJob h } }))) ∧
    (Arrives e n 0x21 opened p s1 h pay → q < 4 → hJob h ∈ (partOf s q).jobs → s.tick.log.length < 64 →
      c = { noticeTick := bits (leNat pay) 64 64, job := hJob h, lpkg := hSrcEid h / 1024, part := bits (leNat pay) 132 2,
            lag := bits (leNat pay) 128 4, cause := bits (leNat pay) 134 2 } →
      Completes (.overrunNotice t n opened) s fun u => u.tick.log = s.tick.log ++ [c] ∧ ButEvents { s1 with tick := u.tick } u) ∧
    (Arrives e n 0x31 opened p s1 h pay → Gives (.scrubNotice t n opened) s (Settled t s s1)) ∧
    (Arrives e n 0x32 opened p s1 h pay → Gives (.linkmap t n opened) s (Settled t s
      { s1 with fab := { s1.fab with maps := mset s1.fab.maps (hSrcPos h) (bits (leNat pay) 0 72, max s.now t) } })) ∧
    (Arrives e n 0x33 opened p s1 h pay → (HayMsg.ofBytes pay).kind = 2 →
      (serving s = true → ∀ kb, bufOf s (HayMsg.ofBytes pay).session (HayMsg.ofBytes pay).handle = some kb →
        Gives (.haywardMsg t n opened b') s (Settled t s (freeBuf s1 kb.1 kb.2))) ∧
      (serving s = false → Gives (.haywardMsg t n opened b') s (Settled t s s1)))

/-- Answers and timeouts end requests (10 R243, R244, R264, R265; 04 R110, R111; 06 R149): an answer to an outstanding request
ends it, with its data, or its cause for a NACK; one whose SEQ is held is dropped and counted LATE_COMPLETION; a request not
answered within its limit times out, its SEQ held; a held SEQ is freed. -/
def Obligations.AnswersEndRequests : Prop :=
  ∀ (t n h ep q : Nat) (opened : Option (List Byte)) (s e s1 s2 : State) (p : Pkt) (pay : List Byte) (r : OutReq) (x : SeqHold),
    s.clock t = e → hDestEid h % 1024 = ep → hSeq h = q → applyEcho s1 h = s2 →
    (findReq s2 ep q = some r →
      (Arrives e n 3 opened p s1 h pay → r.kind = .read → Gives (.readResp t n opened) s
        (Settled t s (readDone (dropReq s2 r) r (fit r.bytes pay)))) ∧
      (Arrives e n 4 opened p s1 h pay → hLen h = 0 → r.kind = .write → Gives (.writeAck t n opened) s
        (Settled t s (ackDone (dropReq s2 r) r))) ∧
      (Arrives e n 7 opened p s1 h pay → r.kind = .sync → Gives (.syncAck t n opened) s (Settled t s (ackDone (dropReq s2 r) r))) ∧
      (Arrives e n 9 opened p s1 h pay → r.kind = .gleaner → (∀ c i, r.owner = .forward c i →
        Gives (.gleanerDone t n opened) s (Settled t s (tellForwarder (dropReq s2 r) c i (hStatus h))))) ∧
      (Arrives e n 10 opened p s1 h pay → Gives (.nack t n opened) s (Settled t s
        (reqFail (setPartRec (dropReq s2 r) r.part { partRec s2 r.part with nackRx := satAdd max16 (partRec s2 r.part).nackRx 1 }) r
          (if hStatus h = 1 then 5 else if hStatus h = 2 then 3 else if hStatus h = 3 then 2 else 1))))) ∧
    (findReq s2 ep q = none → s2.fab.holds.find? (fun x => x.ep == ep && x.seq == q) = some x →
      (Arrives e n 3 opened p s1 h pay → Gives (.readResp t n opened) s (Settled t s (lateCount s2 x.part))) ∧
      (Arrives e n 4 opened p s1 h pay → hLen h = 0 → Gives (.writeAck t n opened) s (Settled t s (lateCount s2 x.part))) ∧
      (Arrives e n 7 opened p s1 h pay → Gives (.syncAck t n opened) s (Settled t s (lateCount s2 x.part))) ∧
      (Arrives e n 9 opened p s1 h pay → Gives (.gleanerDone t n opened) s (Settled t s (lateCount s2 x.part))) ∧
      (Arrives e n 10 opened p s1 h pay → Gives (.nack t n opened) s (Settled t s (lateCount s2 x.part)))) ∧
    (findReq s ep q = some r → r.kind ≠ .gleaner → injected s r = true → r.at_ + r.limit ≤ max s.now t →
      (timeoutReq e r).fab.reqs = s.fab.reqs.erase r ∧
      (timeoutReq e r).fab.holds = s.fab.holds ++ [{ ep := r.ep, seq := r.seq, until_ := r.at_ + 3000000, part := r.part }] ∧
      Gives (.requestTimeout t ep q) s (Settled t s (reqFail (timeoutReq e r) r 4))) ∧
    Gives (.seqHoldEnd t ep q) s { e with fab := { e.fab with
      holds := s.fab.holds.filter (fun y => !(y.ep == ep && y.seq == q && decide (y.until_ ≤ max s.now t))) } }

/-- Collective channels and launches (11 R277 to R282, R285, R288, R289; Tables 11-2, 11-3, 11-6, 11-7): a channel fetches the
next entry of a ring whose doorbell is ahead, halts by its reason where the check fails, and hands it to its group or, of COUNT
0, completes it; at launch, of each KIND, slots are reserved, fallback chunks zeroed, and COLL_READY or COLL_ARRIVE sent, before
what may go is sent. -/
def Obligations.CollectivesLaunch : Prop :=
  ∀ (t ch p i d x kind job group part : Nat) (c : Chan) (g g1 : Group) (ins : Instr) (mi : MemIn) (si : SpadIn) (s e s1 s2 s4 s5 : State)
    (o0 o1 : OpenColl) (ds : List Nat),
    s.clock t = e →
    (collChan s ch = c → partOfColl ch = p → partLive e p = true →
      (mfind s.coll.heads ch = none → doorbellAhead e p c = true → i = c.head % c.ringEntries → ringReady e p c i = true →
        (ringRead e p 2 c i mi si = (s1, none) → c.halted = false → s1.coll = s.coll → Completes (.collChannelFetch t ch mi si) s fun u =>
          collChan u ch = { c with halted := true, errCause := 7, errReason := 0 }) ∧
        (ringRead e p 2 c i mi si = (s1, some d) → c.halted = false → s1.coll = s.coll → setCollChan s1 ch { c with head := (c.head + 1) % 2 ^ 32 } = s2 →
          (∀ y, collReason s2 p d = some y → Completes (.collChannelFetch t ch mi si) s fun u =>
            collChan u ch = { c with head := (c.head + 1) % 2 ^ 32, halted := true, errCause := 6, errReason := y }) ∧
          (collReason s2 p d = none → groupOfPart s (kJob d) (kGroup d) p = some g →
            (kKind d ≠ 7 → kCount d ≠ 0 → (collExtents s2 p d g.members.length g.rank).findSome? tgtCause = none) →
            (dWaitEn d = true → ccReached s2 p (dWaitCc d) (dWaitVal d) = true) →
            (kKind d = 7 ∨ kCount d ≠ 0 →
              (s.coll.opens.filter (fun o => o.job == g.job && o.group == g.group && o.part == p)).length + g.waiting.length < 4 →
              Completes (.collChannelFetch t ch mi si) s fun u =>
                collChan u ch = { c with head := (c.head + 1) % 2 ^ 32, done := (c.done + 1) % 2 ^ 32 } ∧
                u.coll.groups = s.coll.groups.map (fun y => if sameMember y g then { g with waiting := g.waiting ++ [d] } else y)) ∧
            (kKind d ≠ 7 → kCount d = 0 → Completes (.collChannelFetch t ch mi si) s fun u =>
              collChan u ch = { c with head := (c.head + 1) % 2 ^ 32, done := (c.done + 1) % 2 ^ 32 } ∧
              u.coll.groups = s.coll.groups ∧ u.fab = s1.fab ∧ ccGet u p (dSigCc d) =
                (if dSigEn d then (ccGet s1 p (dSigCc d) + 1) % 2 ^ 32 else ccGet s1 p (dSigCc d)))))) ∧
      (mfind s.coll.heads ch = some (d, x) → c.enable = true → c.halted = false →
        Gives (.collChannelFetch t ch mi si) s (Settled t s (handOver e ch d)))) ∧
    ((kind, ins) ∈ [(1, .collAllReduce t job group part mi si), (2, .collReduceScatter t job group part mi si),
        (3, .collAllGather t job group part mi si), (4, .collAllToAll t job group part mi si),
        (5, .collBroadcast t job group part mi si), (6, .collReduce t job group part mi si), (7, .collBarrier t job group part mi si)] →
      groupOfPart s job group part = some g → g.waiting = d :: ds → partLive e part = true → kKind d = kind →
      (∀ a, Tgt.mem a ∈ collExtents e part d g.members.length g.rank → lineReady e a = true) →
      o0 = { part := part, job := job, group := group, seq := kSeq d, desc := d, rank := g.rank, m := g.members.length,
             launchAt := max s.now t, waitFrom := max s.now t, timeoutNs := 1000 * g.timeoutUs, lagRank := some g.rank } →
      reserveAll e o0 = (s1, o1) → zeroFallback s1 o1 mi = s2 →
      g1 = { g with waiting := ds, granary := satAdd max32 g.granary o1.slots.length, gleaner := satAdd max16 g.gleaner o1.gleaner.length } →
      (readyTo d g1).foldl (fun s k => collSend s g1 (kSeq d) k 0x10 0 0 0 (signature d) []) (updGroup s2 g1) = s4 →
      (if kind = 7 then (otherRanks g1).foldl (fun s k => collSend s g1 (kSeq d) k 0x15 0 0 0 0 []) s4 else s4) = s5 →
      Gives ins s (Settled t s (collSettle ((({ st := { s5 with coll := { s5.coll with opens := s5.coll.opens ++ [o1] } }
                                                o := o1, g := g1 } : CollRun).pending).pump mi si) mi)) ∧
      (kind = 7 → mfind g.pend (kSeq d) = none → openOf s job group part (kSeq d) = none → Completes ins s fun u =>
        u.coll.opens = s.coll.opens ++ [o0] ∧ u.coll.groups = s.coll.groups.map (fun y => if sameMember y g1 then g1 else y) ∧
        u.fab = s5.fab ∧ u.mem = s.mem))

/-- Collective packets (11 R273, R281 to R284, R290 to R294, R300): one that names no group of this package counts COLL_UNKNOWN;
COLL_READY and COLL_ARRIVE of a collective not yet open are held; for an open one, READY releases data or, its signature
differing, ends it; EXP, AGREED, CONTRIB and RESULT do their steps, ARRIVE counts, and FAIL ends it with PEER_FAILED. -/
def Obligations.CollectivePacketsAct : Prop :=
  ∀ (t n h rk op l q : Nat) (ins : Instr) (opened : Option (List Byte)) (mi : MemIn) (si : SpadIn) (s e s1 : State) (p : Pkt) (pay : List Byte)
    (g : Group) (o : OpenColl) (r : CollRun),
    s.clock t = e → Arrives e n op opened p s1 h pay → collLaneReady e n rk = true →
    ((op, ins) ∈ [(0x10, .collReady t n opened rk mi si), (0x11, .collExp t n opened rk mi si), (0x12, .collAgreed t n opened rk mi si),
        (0x13, .collContrib t n opened rk mi), (0x14, .collResult t n opened rk mi), (0x15, .collArrive t n opened rk mi),
        (0x16, .collFail t n opened rk mi)] →
      groupOfRank s1 (hJob h) (hGroup h) rk = none → Gives ins s (Settled t s
        { s1 with coll := { s1.coll with unknown := satAdd max32 s1.coll.unknown 1 } })) ∧
    (groupOfRank s1 (hJob h) (hGroup h) rk = some g → g.members[hRank h]? = some (l, q) → l = hSrcEid h / 1024 → hRank h ≠ rk →
      refusing s1 g.part = false →
      (openOf s1 g.job g.group g.part (hSeq h) = none → closedNow s1 g (hSeq h) = false → mfind g.pend (hSeq h) = none →
        g.pend.length < 16 →
        (op = 0x10 → Gives (.collReady t n opened rk mi si) s (Settled t s (updGroup s1 { g with
          pend := mset g.pend (hSeq h) { ready := [(hRank h, hOperand h)] } }))) ∧
        (op = 0x15 → Gives (.collArrive t n opened rk mi) s (Settled t s (updGroup s1 { g with
          pend := mset g.pend (hSeq h) { arrive := [hRank h] } }))) ∧
        (op = 0x16 → Gives (.collFail t n opened rk mi) s (Settled t s (updGroup s1 { g with
          pend := mset g.pend (hSeq h) { fail := some (bits (hOperand h) 4 6) } })))) ∧
      (openOf s1 g.job g.group g.part (hSeq h) = none → closedNow s1 g (hSeq h) = false →
        (op = 0x11 → Gives (.collExp t n opened rk mi si) s (Settled t s (collUnknown s1))) ∧
        (op = 0x12 → Gives (.collAgreed t n opened rk mi si) s (Settled t s (collUnknown s1))) ∧
        (op = 0x13 → Gives (.collContrib t n opened rk mi) s (Settled t s (collUnknown s1))) ∧
        (op = 0x14 → Gives (.collResult t n opened rk mi) s (Settled t s (collUnknown s1)))) ∧
      (openOf s1 g.job g.group g.part (hSeq h) = some o → r = { st := s1, o := o, g := g } →
        (op = 0x10 → hOperand h = signature o.desc → hRank h ∉ o.ready → (readyNeeded o.desc g).contains (hRank h) = true →
          Gives (.collReady t n opened rk mi si) s (Settled t s (collSettle ({ r with o := { o with
            ready := o.ready ++ [hRank h], lagRank := some (hRank h), lagNs := max s.now t - o.launchAt
            waitFrom := max s.now t } }.pump mi si) mi))) ∧
        (op = 0x11 → bushelSum o.desc = true → hOff h / 16 < nStripes o.desc o.m o.rank → Gives (.collExp t n opened rk mi si) s
          (Settled t s (collSettle ({ r with o := { o with
            exps := mset o.exps (64 * (hOff h / 16) + hRank h) (expList pay (min 16 (hOperand h)))
            waitFrom := max s.now t } }.pump mi si) mi))) ∧
        (op = 0x12 → bushelSum o.desc = true → Gives (.collAgreed t n opened rk mi si) s
          (Settled t s (collSettle ({ r with o := { o with
            agreed := (expList pay (min 16 (hOperand h))).zipIdx.foldl (fun (m : SMap Nat) (x : Nat × Nat) =>
              mset m (2 ^ 32 * hRank h + hOff h + x.2) x.1) o.agreed
            waitFrom := max s.now t } }.pump mi si) mi))) ∧
        (op = 0x13 → reduces o.desc = true → (shardOf o.desc o.m o.rank).1 * inSize o.desc ≤ hOff h → hOff h % inSize o.desc = 0 →
          0 < inSize o.desc → hOff h < ((shardOf o.desc o.m o.rank).1 + (shardOf o.desc o.m o.rank).2) * inSize o.desc →
          hOff h + pay.length ≤ ((chunkOf o.desc o.m o.rank ((hOff h / inSize o.desc - (shardOf o.desc o.m o.rank).1) / chunkLen o.desc)).1 +
            (chunkOf o.desc o.m o.rank ((hOff h / inSize o.desc - (shardOf o.desc o.m o.rank).1) / chunkLen o.desc)).2) * inSize o.desc →
          Gives (.collContrib t n opened rk mi) s (Settled t s (collSettle
            ({ r with o := { o with waitFrom := max s.now t } }.contribute (hRank h) (hOff h) pay mi) mi))) ∧
        (op = 0x14 → hOff h + pay.length ≤ resultEnd o (hRank h) (hOff h) → Gives (.collResult t n opened rk mi) s (Settled t s
          (collSettle ({ r with o := { o with
            flags := o.flags ||| BitVec.ofNat 8 (hOperand h), waitFrom := max s.now t
            resultFrom := mset o.resultFrom (hRank h) (mget 0 o.resultFrom (hRank h) + pay.length) } }.write (hOff h) pay mi) mi))) ∧
        (op = 0x15 → kKind o.desc = 7 → hRank h ∉ o.arrived → Gives (.collArrive t n opened rk mi) s (Settled t s
          (updOpen (thresherProgress s1 o.group) { o with
            arrived := o.arrived ++ [hRank h], lagRank := some (hRank h), lagNs := max s.now t - o.launchAt
            waitFrom := max s.now t }))) ∧
        (op = 0x16 → Gives (.collFail t n opened rk mi) s (Settled t s
          (collFail (thresherProgress s1 o.group) o 8 (bits (hOperand h) 4 6) mi)))))

/-- The end of a collective, and stream-out (11 R287, R293 to R299, R301; 04 R112; 20 R465): a chunk whose contributions are all
counted is converted and sent; a complete collective signals, is recorded in its group and closes; one that waits too long, or
whose Thresher is restarted, fails with TIMEOUT; an eligible stream-out block leaves its tile. -/
def Obligations.CollectivesEnd : Prop :=
  ∀ (t job group part seq c n x : Nat) (mi : MemIn) (si : SpadIn) (s e s1 : State) (o : OpenColl) (g : Group) (os : List OpenColl) (j : Issued) (og : OpenColl × Group),
    s.clock t = e →
    (openOf s job group part seq = some o → groupOfPart s job group part = some g →
      (reduces o.desc = true → c < nChunks o.desc o.m o.rank → chunkFull o c = true → (mget {} o.chunks c : Chunk).out = none →
        Gives (.chunkComplete t job group part seq c mi si) s (Settled t s
          (collSettle ((({ st := e, o := o, g := g } : CollRun).convert c mi).pump mi si) mi))) ∧
      (collDone o g = true → kRecEn o.desc = false → Completes (.collComplete t job group part seq mi) s fun u =>
        openOf u job group part seq = none ∧ u.coll.slotsFree = s.coll.slotsFree + (o.slots.map (·.2)).sum ∧
        u.coll.groups = s.coll.groups.map (fun y => if sameMember y g then { g with
          lastSeq := o.seq, lastRank := o.lagRank.getD g.rank, lagNs := min o.lagNs max32, maxLag := max g.maxLag (min o.lagNs max32)
          completed := satAdd max32 g.completed 1
          lastCount := mset g.lastCount (o.lagRank.getD g.rank) (satAdd max16 (mget 0 g.lastCount (o.lagRank.getD g.rank)) 1) } else y) ∧
        ccGet u o.part (dSigCc o.desc) = (if dSigEn o.desc then (ccGet s o.part (dSigCc o.desc) + 1) % 2 ^ 32 else ccGet s o.part (dSigCc o.desc)) ∧
        u = { e with coll := u.coll, ccs := u.ccs }) ∧
      (o.waitFrom + o.timeoutNs ≤ max s.now t → (missingRanks o g).head? = some x → kRecEn o.desc = false → Completes (.collTimeout t job group part seq mi) s fun u =>
        openOf u job group part seq = none ∧ u.coll.slotsFree = s.coll.slotsFree + (o.slots.map (·.2)).sum ∧
        u.coll.groups = s.coll.groups.map (fun y => if sameMember y g then { g with
          failed := satAdd max16 g.failed 1, timeouts := satAdd max16 g.timeouts 1
          closed := (g.closed.filter (fun c => c.1 != seq)) ++ [(seq, max s.now t)], pend := mdel g.pend seq } else y) ∧
        u.mem = s.mem ∧ u.ccs = s.ccs ∧
        u = { e with coll := u.coll, fab := u.fab, evt := u.evt, outbox := u.outbox })) ∧
    (n < 8 → 16 ≤ mget 0 s.coll.idle n → serving s = true → s.coll.opens.filter (fun o => servedBy o n) = os →
      (os = [] → Gives (.thresherRestart t n mi) s (Settled t s
        (faultLog { e with coll := { e.coll with idle := mdel s.coll.idle n } } 0x13 4 [n, 0]))) ∧
      (os = [o] → groupOfPart s o.job o.group o.part = some g → Gives (.thresherRestart t n mi) s (Settled t s
        (let u := collFail e o 6 ((missingRanks o g).headD 0) mi
         faultLog { u with coll := { u.coll with idle := mdel u.coll.idle n } } 0x13 4 [n, 1])))) ∧
    (jobOf s c 5 n = some j → coreLive e c = true → j.fail = none → oBlock j.desc ≠ 0 → blockEligible e c j = true →
      eccCount e (tileOfCore c) si = s1 →
      (badIn si (oSrc j.desc + j.sent * oBlock j.desc) (oBlock j.desc) = true → Gives (.streamOutBlockSend t c n mi si) s (failJob s1 5 j 1)) ∧
      (badIn si (oSrc j.desc + j.sent * oBlock j.desc) (oBlock j.desc) = false → oTarget j.desc = 1 →
        (∀ y, putTgt e c j = .refused y → Gives (.streamOutBlockSend t c n mi si) s (failJob s1 5 j y)) ∧
        (∀ ep a, putTgt e c j = .spad ep a → seqRoom e (tileOfCore c) (oBlock j.desc / 256 + 1) = true →
          Gives (.streamOutBlockSend t c n mi si) s (Settled t s (setJob (landSpad s1 ep a
            (spadRead s1 (tileOfCore c) (oSrc j.desc + j.sent * oBlock j.desc) (oBlock j.desc))
            (if oDccEn j.desc then some (oDcc j.desc) else none)) 5 { j with sent := j.sent + 1 })))) ∧
      (badIn si (oSrc j.desc + j.sent * oBlock j.desc) (oBlock j.desc) = false → oTarget j.desc = 0 →
        streamColl e c j (oOffset j.desc + j.sent * oBlock j.desc) = some og →
        kCount og.1.desc * inSize og.1.desc ≥ oOffset j.desc + j.sent * oBlock j.desc + oBlock j.desc →
        Gives (.streamOutBlockSend t c n mi si) s (Settled t s (setJob (streamBlock s1 og.1 og.2 (oOffset j.desc + j.sent * oBlock j.desc)
          (spadRead s1 (tileOfCore c) (oSrc j.desc + j.sent * oBlock j.desc) (oBlock j.desc)) mi) 5 { j with sent := j.sent + 1 }))))

/-- BAR4 (12 R306, R309, R311, R312): a request is refused with Unsupported Request in D3hot, outside a stream whose association
it falls in (counted in IDE_VIOLATIONS) or where it touches a page no buffer of the partition holds, and with Completer Abort
while the partition refuses or after an IDE failure; a refused one moves no data, and any other is served by the memory's own
read or write. The host port's resets, link and mastering (12 R304, R308 to R311, Table 12-3): a PCIe reset puts the PCIe state
of all five functions back and an FLR that of its own, and neither touches a partition, its memory or a session; a configuration
write and the link decide whether a function can master the link; an unanswered Cellar read returns its sector poisoned and
counts, though no integrity failure; an IDE failure leaves Secure and raises the partition's event. -/
def Obligations.HostPortServesAndResets : Prop :=
  (∀ (t f off n c : Nat) (ins : Bool) (data : List Byte) (mi : MemIn) (s e : State), s.host.linkUp = true → 1 ≤ f → f ≤ 4 → 0 < n →
    (c = if (fnOf s f).d3 = true then 1
      else if pstate s (f - 1) ∈ [.fenced, .resetting, .winnowing, .dormant] ∨ (fenceOf s (f - 1)).isSome = true then 2
      else if ideOutside s f off ins = true then 1
      else if ideFailed s f = true then 2
      else if bar4Mapped s f off n = false then 1 else 0) →
    e = (if (fnOf s f).d3 = false ∧ pstate s (f - 1) ∉ [.fenced, .resetting, .winnowing, .dormant] ∧
          (fenceOf s (f - 1)).isSome = false ∧ ideOutside s f off ins = true
      then setPartRec (s.clock t) (f - 1) { partRec s (f - 1) with ideViol := satAdd max16 (partRec s (f - 1)).ideViol 1 }
      else s.clock t) →
    (c ≠ 0 → Gives (.bar4Read t f off n ins mi) s { e with outbox := .hostCpl f c [] :: s.outbox } ∧
      (data.length = n → Gives (.bar4Write t f off data ins mi) s e)) ∧
    (c = 0 → rangeReady (s.clock t) (274877906944 * (f - 1) + off) n = true →
      (Gives (.bar4Read t f off n ins mi) s (Settled t s
        (let x := maRead (s.clock t) 2 (274877906944 * (f - 1) + off) n mi
         x.1.emit (.hostCpl f (if x.2.2 = [] then 0 else 3) x.2.1)))) ∧
      (data.length = n → Gives (.bar4Write t f off data ins mi) s (Settled t s
        (maWrite (s.clock t) 2 (274877906944 * (f - 1) + off) data mi).1)))) ∧
  (∀ (t f g p i width : Nat) (bme d3 fmask : Bool) (s : State) (b : SectorBuf),
    (Completes (.pcieReset t) s fun u => u.host.linkUp = false ∧ u.host.width = 0 ∧ (∀ g < 5, fnOf u g = {} ∧ mget 0 u.host.sysErr g = 0 ∧
        (∀ i < 2, ideOf u g i = {}) ∧ (∀ n < 512, evtBit u g n = {}) ∧ mfind u.keys.spdm g = none ∧
        (boxOf u g).reqTail = (boxOf u g).reqHead ∧ (boxOf u g).rspTail = (boxOf u g).rspHead ∧ (boxOf u g).irqEn = true) ∧
      u = { s.clock t with host := u.host, evt := u.evt, mbx := u.mbx, keys := { s.keys with spdm := u.keys.spdm } }) ∧
    (s.host.linkUp = true → f < 5 → Completes (.flr t f) s fun u => fnOf u f = {} ∧ mget 0 u.host.sysErr f = 0 ∧
        (∀ i < 2, ideOf u f i = {}) ∧ (∀ n < 512, evtBit u f n = {}) ∧ mfind u.keys.spdm f = none ∧
        (boxOf u f).reqTail = (boxOf u f).reqHead ∧ (boxOf u f).rspTail = (boxOf u f).rspHead ∧ (boxOf u f).irqEn = true ∧
        (∀ g, g ≠ f → fnOf u g = fnOf s g ∧ boxOf u g = boxOf s g ∧ mget 0 u.host.sysErr g = mget 0 s.host.sysErr g) ∧
        u = { s.clock t with host := u.host, evt := u.evt, mbx := u.mbx, keys := { s.keys with spdm := u.keys.spdm } }) ∧
    (s.host.linkUp = true → f < 5 → Completes (.pcieConfigWrite t f bme d3 fmask) s fun u =>
      (fnOf u f).bme = bme ∧ (fnOf u f).d3 = d3 ∧ (fnOf u f).fmask = fmask ∧ canMaster u f = (bme && !d3) ∧
      (∀ g, g ≠ f → fnOf u g = fnOf s g) ∧ u.sess = s.sess ∧ u.mem.stk = s.mem.stk ∧ u.mbx = s.mbx ∧
      (bme = false ∨ d3 = true → mfind u.host.blockedSince f = some ((mfind s.host.blockedSince f).getD (max s.now t)))) ∧
    (width ∈ [1, 2, 4, 8, 16] → s.sess.pkg.isSome = true → Completes (.pcieLinkUp t width) s fun u =>
      u.host.linkUp = true ∧ u.host.width = width ∧ u.sess = s.sess ∧ u.mbx = s.mbx ∧
      (∀ g < 5, (fnOf u g).bme = (fnOf s g).bme ∧ (fnOf u g).d3 = (fnOf s g).d3)) ∧
    (s.host.linkUp = true → Completes (.pcieLinkDown t) s fun u => u.host.linkUp = false ∧
      (∀ g < 5, canMaster u g = false ∧ (mfind u.host.blockedSince g).isSome = true) ∧
      u = { s.clock t with host := { s.host with linkUp := false, width := 0, blockedSince := u.host.blockedSince } }) ∧
    (p < 4 → (cellarOf s p).lent = true → (mfind (cellarOf s p).table g).isSome = true →
      cellarBuf s p g = none ∨ cellarBuf s p g = some b ∧ b.pending = true →
      mfind s.host.blockedSince (p + 1) = none ∨ mfind s.host.blockedSince (p + 1) = some i ∧ i + 10000000 ≤ max s.now t →
      ((cellarOf s p).buf.filter (fun x => x.sector != g)).length < 64 →
      Gives (.deviceReadTimeout t p g) s
        (setPartRec (setCellar (s.clock t) p { cellarOf s p with buf := (cellarOf s p).buf.filter (fun x => x.sector != g) ++
          [{ sector := g, data := (mget {} (cellarOf s p).table g).data, poison := 2 ^ 32 - 1 }] }) p
          { partRec s p with cellarTo := satAdd max16 (partRec s p).cellarTo 1 })) ∧
    (1 ≤ f → f ≤ 4 → i < 2 → Completes (.ideIntegrityFail t f i) s fun u =>
      ButEvents { s.clock t with host := u.host } u ∧ (evtBit u f (128 + 96 * (f - 1) + 11)).pend = true ∧
      (evtBit u 0 (128 + 96 * (f - 1) + 11)).pend = true ∧
      ((ideOf s f i).secure = true → ideFailed u f = true ∧ (ideOf u f i).secure = false) ∧
      ((ideOf s f i).secure = false → ideOf u f i = ideOf s f i) ∧
      (∀ g j, j < 2 → g ≠ f → ideOf u g j = ideOf s g j) ∧ u.host.fns = s.host.fns))

/-- Registers (00 R11, R14, R15; 04 Table 4-8): a read of an RC field answers its value and leaves it 0 in the reader's copy,
and nothing else changes; an access that is not natural, or outside the defined blocks, reads 0, writes nothing and counts in
SYS_ERR; a write sets what it names: the pending interrupt enable, an event's vector, a word of the MSI-X table, the mailbox
window, a CSR. -/
def Obligations.RegistersAct : Prop :=
  ∀ (t f off n c v data : Nat) (wide rd ins : Bool) (bs : List Byte) (s : State),
    (barOpen s f off = true → rcOffset f off = true → off % 4 = 0 → Completes (.rcFieldRead t (.bar0 f off false)) s fun u =>
      u.outbox = .regRead f (barRead (s.clock t) f off) :: s.outbox ∧
      (off ≠ 0x230C → barRead u f off = 0) ∧ (∀ g, g ≠ f → barRead u g off = barRead (s.clock t) g off) ∧
      u = { s.clock t with
        host := { s.host with sysErr := u.host.sysErr }, mbx := { s.mbx with boxes := u.mbx.boxes },
        evt := { s.evt with pins := u.evt.pins }, tick := { s.tick with rc := u.tick.rc, overruns := u.tick.overruns },
        outbox := u.outbox }) ∧
    (barOpen s f off = true → rcOffset f off = true ∨ rcOffset f (off + 4) = true → off % 8 = 0 →
      Completes (.rcFieldRead t (.bar0 f off true)) s fun u =>
        u.outbox = .regRead f (barRead (s.clock t) f off + 4294967296 * barRead (s.clock t) f (off + 4)) :: s.outbox) ∧
    (coreReady s c = true → Gives (.rcFieldRead t (.spadEcc c)) s
      { setTile (s.clock t) (tileOfCore c) { tileOf s (tileOfCore c) with eccCorr := 0, eccUncorr := 0 } with
        outbox := .coreRead c (packBits [((tileOf s (tileOfCore c)).eccCorr, 32), ((tileOf s (tileOfCore c)).eccUncorr, 16)]) :: s.outbox }) ∧
    (barOpen s f off = true →
      (n ≠ 4 ∧ n ≠ 8) ∨ off % n ≠ 0 ∨ (8 ≤ off ∧ off < 0x1000) ∨ (0x5000 ≤ off ∧ off < 0x8000) ∨ (0x8400 ≤ off ∧ off < 0x9000) ∨ 0x9008 ≤ off →
      Gives (.bar0BadAccess t f off n rd) s { sysErrInc (s.clock t) f with
        outbox := if rd = true then .regRead f 0 :: s.outbox else s.outbox }) ∧
    (s.host.linkUp = true → f < 5 → barOpen s f off = false →
      Gives (.bar0BadAccess t f off n rd) s { s.clock t with outbox := .hostCpl f 2 [] :: s.outbox } ∧
      Gives (.rcFieldRead t (.bar0 f off wide)) s { s.clock t with outbox := .hostCpl f 2 [] :: s.outbox }) ∧
    (barOpen s f off = true → off % 4 = 0 →
      Gives (.registerWrite t (.bar0 f off data false)) s (Settled t s (barWrite (s.clock t) f off (data % 4294967296))) ∧
      (off % 8 = 0 → Gives (.registerWrite t (.bar0 f off data true)) s (Settled t s
        (barWrite (barWrite (s.clock t) f off (data % 4294967296)) f (off + 4) (data / 4294967296 % 4294967296)))) ∧
      (off = 0x1014 → bit data 0 = false → data < 4294967296 →
        Gives (.registerWrite t (.bar0 f off data false)) s (setBox (s.clock t) f { boxOf s f with irqEn := bit data 1 })) ∧
      (0x2100 ≤ off → off < 0x2300 → Completes (.registerWrite t (.bar0 f off data false)) s fun u =>
        u = { s.clock t with evt := { s.evt with bits := u.evt.bits } } ∧
        ∀ g src, src < 512 → evtBit u g src =
          if g = f ∧ src / 4 = (off - 0x2100) / 4 ∧ sees f src = true ∧ assigned src = true
          then { evtBit s f src with vec := bits data (8 * (src % 4)) 6 } else evtBit s g src) ∧
      (0x8000 ≤ off → off < 0x8400 → data < 4294967296 → Completes (.registerWrite t (.bar0 f off data false)) s fun u =>
        u = { s.clock t with host := { s.host with fns := u.host.fns }, outbox := u.outbox } ∧ barRead u f off =
          (if off % 16 = 12 then data % 2 else data) ∧ ∀ g, g ≠ f → fnOf u g = fnOf s g)) ∧
    (s.host.linkUp = true → f < 5 → off + bs.length ≤ 65536 → f = 0 ∨ ideOutside s f off ins = false →
      Completes (.registerWrite t (.bar2 f off bs ins)) s fun u => winRead u f off bs.length = bs ∧
        u = { s.clock t with mem := { s.mem with win := u.mem.win } }) ∧
    (s.host.linkUp = true → 1 ≤ f → f < 5 → off + bs.length ≤ 65536 → ideOutside s f off ins = true →
      Gives (.registerWrite t (.bar2 f off bs ins)) s
        (setPartRec (s.clock t) (f - 1) { partRec s (f - 1) with ideViol := satAdd max16 (partRec s (f - 1)).ideViol 1 })) ∧
    (coreReady s c = true →
      Gives (.registerWrite t (.csr c 0x7D1 v)) s (setCore (s.clock t) c { coreOf s c with wdog := v % 256 }) ∧
      Completes (.registerWrite t (.csr c 0x7D0 v)) s (fun u => (coreOf u c).park = bit v 0) ∧
      Gives (.registerWrite t (.csr c 0x7CA v)) s (setCore (s.clock t) c { coreOf s c with ccSel := v % 4096 }) ∧
      Gives (.registerWrite t (.csr c 0x7CE v)) s (setTile (s.clock t) (tileOfCore c)
        { tileOf s (tileOfCore c) with flags := (tileOf s (tileOfCore c)).flags &&& ~~~(BitVec.ofNat 8 v) }) ∧
      (0x7C0 ≤ off → off ≤ 0x7C6 → Gives (.registerWrite t (.csr c off v)) s
        (setCore (s.clock t) c { coreOf s c with stage := mset (coreOf s c).stage (off - 0x7C0) (v % 18446744073709551616) })))

/-- A QP at work (12 R316 to R319, R321): a ring fetches the next work request, halting by name where the fetch or the entry is
bad, and one that fails R317's check carries its failure; a SEND, WRITE or READ leaves as a frame and waits for its answer, one
of length 0 ends at once, one whose data cannot be read fails; a RECV is posted; the head of a ring that has ended completes
with DONE, signal and entry, and a failure puts the QP in error; an ACK timer expired sends again or fails the oldest; CNPs cut
the rate. -/
def Obligations.QpsAct : Prop :=
  ∀ (t q d n op : Nat) (rv : Bool) (mi : MemIn) (si : SpadIn) (s s1 : State) (v : Qp) (c : Chan) (w : QpWork) (l : List QpWork)
    (bs : List Byte) (bad : List Nat) (e : Nat × Nat × Nat) (x : Instr) (fs : List EthFrame),
    qpOf s q = some v →
    (c = (if rv = true then v.recv else v.send) → v.st ≠ .reset → refusing s v.part = false → doorbellAhead s v.part c = true →
      ringReady (s.clock t) v.part c (c.head % c.ringEntries) = true → s1.eth = s.eth →
      (ringRead (s.clock t) v.part 2 c (c.head % c.ringEntries) mi si = (s1, none) →
        Gives (.qpRingFetch t q rv mi si) s (Settled t s (setQp s1 q (if rv = true
          then { v with recv := { c with halted := true, errCause := 7, errReason := 0 } }
          else { v with send := { c with halted := true, errCause := 7, errReason := 0 } })))) ∧
      (ringRead (s.clock t) v.part 2 c (c.head % c.ringEntries) mi si = (s1, some d) → n = (c.head + 1) % 4294967296 →
        (∀ k, wrReason rv d = some k → Gives (.qpRingFetch t q rv mi si) s (Settled t s (setQp s1 q (if rv = true
          then { v with recv := { c with head := n, halted := true, errCause := 6, errReason := k } }
          else { v with send := { c with head := n, halted := true, errCause := 6, errReason := k } })))) ∧
        (wrReason rv d = none → w = { desc := d, index := c.head, ends := if v.st = .error then some (0x13, 0, 0)
            else (wrRefusal s1 v.part d).map (fun e => (e, 0, 0)) } →
          Gives (.qpRingFetch t q rv mi si) s (Settled t s (setQp s1 q (if rv = true
            then { v with recv := { c with head := n }, recvWork := v.recvWork ++ [w] }
            else { v with send := { c with head := n }, sendWork := v.sendWork ++ [w] })))))) ∧
    ((op, x) ∈ [(1, Instr.roceSend t q mi), (2, .roceSendImm t q mi), (3, .roceWrite t q mi), (4, .roceWriteImm t q mi),
        (5, .roceRead t q)] → nextSend v.sendWork = some w → rOp w.desc = op → v.st = .rts → wrWait s v.part w.desc = true →
      (rLen w.desc = 0 → Gives x s (setQp (s.clock t) q
        { v with sendWork := setWorkReq v.sendWork { w with ends := some (0, 0, 0) } })) ∧
      (rLen w.desc ≠ 0 → maySend (s.clock t) v = true →
        (op = 5 → Gives x s (Settled t s (sendFrame (setQp (s.clock t) q { v with
          sendWork := setWorkReq v.sendWork { w with sent := true, psn := v.sqPsn, packets := packetsOf v.pmtu (rLen w.desc) },
          sqPsn := (v.sqPsn + packetsOf v.pmtu (rLen w.desc)) % 2 ^ 24, timer := some (v.timer.getD (max s.now t)),
          nextAt := max s.now t + wireNs v.rate 0 }) v 21 q []))) ∧
        (op < 5 → rangeReady (s.clock t) (rLocal w.desc) (rLen w.desc) = true → s1.eth = s.eth → s1.now = max s.now t →
          maRead (s.clock t) 2 (rLocal w.desc) (rLen w.desc) mi = (s1, bs, bad) →
          (bad = [] → Gives x s (Settled t s (sendFrame (setQp s1 q { v with
            sendWork := setWorkReq v.sendWork { w with sent := true, psn := v.sqPsn, packets := packetsOf v.pmtu (rLen w.desc) },
            sqPsn := (v.sqPsn + packetsOf v.pmtu (rLen w.desc)) % 2 ^ 24, timer := some (v.timer.getD (max s.now t)),
            nextAt := max s.now t + wireNs v.rate (rLen w.desc) }) v (16 + op) q bs))) ∧
          (bad ≠ [] → Gives x s (Settled t s (setQp s1 q
            { v with sendWork := setWorkReq v.sendWork { w with ends := some (5, 0, 0) } })))))) ∧
    (v.recvWork.find? (fun w => w.ends.isNone && !w.sent) = some w → v.st ∉ [.reset, .error] → wrWait s v.part w.desc = true →
      Gives (.roceRecv t q) s (setQp (s.clock t) q { v with
        recvWork := setWorkReq v.recvWork
          (if rLen w.desc = 0 then { w with ends := some (0, 0, 0) } else { w with sent := true }) })) ∧
    ((if rv = true then v.recvWork else v.sendWork) = w :: l → w.ends = some e → Completes (.roceWrComplete t q rv mi) s fun u =>
      (e.1 = 0 → qpOf u q = some (if rv = true
        then { v with
                 recvWork := l, recv := { v.recv with done := (v.recv.done + 1) % 2 ^ 32 },
                 cq := if rCqe w.desc = true then v.cq ++ [cqEntry q v.recv.ringEntries w e] else v.cq }
        else { v with
                 sendWork := l, send := { v.send with done := (v.send.done + 1) % 2 ^ 32 },
                 cq := if rCqe w.desc = true then v.cq ++ [cqEntry q v.send.ringEntries w e] else v.cq }) ∧
        u = { s.clock t with eth := u.eth, ccs := u.ccs }) ∧
      (e.1 ≠ 0 → (qpOf u q).map (·.st) = some .error ∧
        ∀ y, qpOf u q = some y → ∀ z ∈ y.sendWork ++ y.recvWork, z.ends.isSome = true) ∧
      ccGet u v.part (dSigCc w.desc) = (if dSigEn w.desc = true ∧ (e.1 = 0 ∨ e.1 = 0x13)
        then (ccGet s v.part (dSigCc w.desc) + 1) % 2 ^ 32 else ccGet s v.part (dSigCc w.desc))) ∧
    (v.timer = some n → v.st = .rts → n + 4096 * 2 ^ v.ackN < max s.now t → v.sendWork.find? awaiting = some w →
      (v.tries < v.retry → Gives (.roceAckTimeout t q) s (setQp (s.clock t) q { resend v with tries := v.tries + 1 })) ∧
      (v.retry ≤ v.tries → Completes (.roceAckTimeout t q) s fun u => (qpOf u q).map (·.st) = some .error ∧
        (∀ y, qpOf u q = some y → ∀ z ∈ y.sendWork ++ y.recvWork, z.ends.isSome = true) ∧
        ButEvents { s.clock t with eth := u.eth } u ∧ (evtBit u 0 (128 + 96 * v.part + 12)).pend = (decide (v.part < 4) || (evtBit s 0 (128 + 96 * v.part + 12)).pend))) ∧
    ((portOf s v.port).rx = .roce q rv n d .cnp :: fs → Completes (.roceCnp t v.port) s fun u =>
      qpOf u q = some (if (match v.lastCut with | none => true | some c => decide (c + 50000 ≤ max s.now t)) = true
        then { v with rate := max 1 (v.rate / 2), lastCut := some (max s.now t), rateAt := max s.now t }
        else { v with rateAt := max s.now t }) ∧ (portOf u v.port).rx = fs) ∧
    (v.rateAt + 55000 ≤ max s.now t → Gives (.roceRateIncrease t q) s
      (setQp (s.clock t) q { v with rate := min 800 (v.rate + 5), rateAt := v.rateAt + 55000 }))

/-- The Ethernet ports (12 R313, R314, R317, R318, R320): a frame is answered, held in the receive buffer, or discarded and
counted; a pause holds its priority; a link comes up and goes down; and an inbound request is turned away where the QP is not
the port's, answered with the NAK its rule names, or lands or reads its data and is acknowledged, with no byte moved by one
refused. -/
def Obligations.EthernetPortsAct : Prop :=
  ∀ (t p a q psn n va key k : Nat) (ce : Bool) (m : RoceMsg) (imm : Option Nat) (bs : List Byte) (mi : MemIn) (s s1 : State) (v : EthPort)
    (y : Qp) (w : QpWork) (fs : List EthFrame) (bad : List Nat), p < 2 → portOf s p = v →
    (v.linkUp = true →
      (ownAddr s p a = true → Gives (.ethFrameReceive t p (.arp a)) s { s.clock t with outbox := .ethFrame p 0 a [] :: s.outbox } ∧
        Gives (.ethFrameReceive t p (.solicit a)) s { s.clock t with outbox := .ethFrame p 1 a [] :: s.outbox }) ∧
      (ownAddr s p a = false → Gives (.ethFrameReceive t p (.arp a)) s (portDiscard (s.clock t) p) ∧
        Gives (.ethFrameReceive t p (.solicit a)) s (portDiscard (s.clock t) p)) ∧
      Gives (.ethFrameReceive t p .other) s (portDiscard (s.clock t) p) ∧
      (8 * 2 ^ 20 < rxBytes v + n → Gives (.ethFrameReceive t p (.roce q ce psn n m)) s (portDiscard (s.clock t) p)) ∧
      (rxBytes v + n ≤ 8 * 2 ^ 20 → Completes (.ethFrameReceive t p (.roce q ce psn n m)) s fun u =>
        portOf u p = { v with
          rx := v.rx ++ [.roce q ce psn n m],
          xoff := if v.xoff = false ∧ 6 * 2 ^ 20 ≤ rxBytes v + n then true
                  else if v.xoff = true ∧ rxBytes v + n < 4 * 2 ^ 20 then false else v.xoff } ∧
        u = { s.clock t with eth := { s.eth with ports := u.eth.ports }, outbox := u.outbox }) ∧
      (k < 8 → Gives (.pfcPauseReceive t p k n) s (setPort (s.clock t) p { v with
        paused := if n = 0 then mdel v.paused k else mset v.paused k (max s.now t + n * 64 / 100) }))) ∧
    (s.sess.pkg.isSome = true → Gives (.ethLinkUp t p) s (setPort (s.clock t) p { v with linkUp := true })) ∧
    Gives (.ethLinkDown t p) s (setPort (s.clock t) p { v with linkUp := false, paused := [], xoff := false }) ∧
    (v.rx = .roce q ce psn n m :: fs → qpOf s q = none → Completes (.rdmaInbound t p mi) s fun u =>
      (portOf u p).discards = satAdd max16 v.discards 1 ∧ (portOf u p).rx = fs ∧ u.mem = s.mem ∧ u.stks = s.stks ∧ u.eth.qps = s.eth.qps) ∧
    (v.rx = .roce q false psn n m :: fs → qpOf s q = some y → y.port = p → isAnswer m = false → m ≠ .cnp →
      inboundReady (popFrame (s.clock t) p) y m = true → inboundReady (s.clock t) y m = true →
      (refusing s y.part = true → Gives (.rdmaInbound t p mi) s (Settled t s (nakOut (popFrame (s.clock t) p) q y 3 psn))) ∧
      (refusing s y.part = false → y.st = .rtr ∨ y.st = .rts →
        (m = .absent → Gives (.rdmaInbound t p mi) s (Settled t s (nakOut (popFrame (s.clock t) p) q y 1 psn))) ∧
        (psn = y.rqPsn → m = .write none va key bs → bs ≠ [] →
          (regionOk s y key va bs.length 1 = false →
            Gives (.rdmaInbound t p mi) s (Settled t s (nakOut (popFrame (s.clock t) p) q y 2 psn))) ∧
          (regionOk s y key va bs.length 1 = true → maWrite (popFrame (s.clock t) p) 2 va bs mi = (s1, bad) →
            Gives (.rdmaInbound t p mi) s (Settled t s (ackIn s1 q psn (packetsOf y.pmtu bs.length))))) ∧
        (psn = y.rqPsn → m = .read va key k → k ≠ 0 →
          (regionOk s y key va k 0 = false →
            Gives (.rdmaInbound t p mi) s (Settled t s (nakOut (popFrame (s.clock t) p) q y 2 psn))) ∧
          (regionOk s y key va k 0 = true → maRead (popFrame (s.clock t) p) 2 va k mi = (s1, bs, []) →
            Gives (.rdmaInbound t p mi) s (Settled t s
              (sendFrame (setQp s1 q { y with rqPsn := (psn + packetsOf y.pmtu k) % 2 ^ 24 }) y 5 q bs)))) ∧
        (psn = y.rqPsn → m = .send imm bs →
          (nextRecv y = none → Gives (.rdmaInbound t p mi) s (Settled t s (nakOut (popFrame (s.clock t) p) q y 4 psn))) ∧
          (nextRecv y = some w → rLen w.desc < bs.length → Gives (.rdmaInbound t p mi) s (Settled t s
            (nakOut (setQp (popFrame (s.clock t) p) q { y with
              recvWork := setWorkReq y.recvWork { w with ends := some (2, 0, imm.getD 0) } }) q y 1 psn))) ∧
          (nextRecv y = some w → bs.length ≤ rLen w.desc → memRefusal s y.part true (rLocal w.desc) bs.length = none →
            maWrite (popFrame (s.clock t) p) 2 (rLocal w.desc) bs mi = (s1, bad) →
            Gives (.rdmaInbound t p mi) s (Settled t s (ackIn (endRecv s1 q w
              (if bad = [] then 0 else 5, bs.length, imm.getD 0)) q psn (packetsOf y.pmtu bs.length)))))))

/-- The Ethernet set-up commands (12 R315, R317, R319; 15 Tables 15-7 and 15-8): accepted with each row's own conditions met,
they set the management address and a GID entry; create a QP in a free number of the partition's quota, move it through its
states and destroy it, its outstanding work requests flushed; and register and deregister a memory region. -/
def Obligations.EthernetCommandsAct : Prop :=
  ∀ (t q w : Nat) (a : MbxArgs) (s : State) (r : Req) (v : Qp) (b : Nat × Buf) (m : MemRegion),
    (r.f 0 8 ≤ 128 → Accepts (s.clock t) a { opcode := 0x0204, rights := 1, pkg := .uc, partUse := .pkg } {} r →
      Answers (.netConfig t a) s r 0 [] a.returnOk { s.clock t with mbx := { s.mbx with
        mgmtAddr := if r.f 0 8 = 0 then none else some (r.f 0 8, r.f 128 128) } } ∧
      Completes (.netConfig t a) s fun u => u.mbx.mgmtAddr = if r.f 0 8 = 0 then none else some (r.f 0 8, r.f 128 128)) ∧
    (r.f 8 3 ≤ 3 ∨ r.f 8 3 = 7 → (∀ e ∈ s.eth.qps, ¬(e.2.port = r.f 0 1 ∧ e.2.gid = r.f 4 4)) →
      Accepts (s.clock t) a { opcode := 0x0205, rights := 1, pkg := .uc, partUse := .pkg } {} r →
      Answers (.ethGidSet t a) s r 0 [] a.returnOk { s.clock t with eth := { s.eth with
        gids := mset s.eth.gids (16 * r.f 0 1 + r.f 4 4) { addr := r.f 128 128, owner := r.f 8 3 } } }) ∧
    (r.f 8 2 ≠ 3 → (gidOf s (r.f 0 1) (r.f 4 4)).owner = r.part →
      choose s 0 ((List.range 4096).filter (fun q => (qpOf s q).isNone)) = some q → (qpsOf s r.part).length < cfg s 0x68 r.part →
      Accepts (s.clock t) a
        { opcode := 0x0230, rights := 3, pkg := .c, partUse := .one, parts := some [.assigned, .running], resp := 4 } {} r →
      Answers (.qpCreate t a) s r 0 (leBytes 4 q) a.returnOk { s.clock t with
        freeCtr := s.freeCtr + 1, eth := { s.eth with
          qps := mset s.eth.qps q
            { part := r.part, port := r.f 0 1, gid := r.f 4 4, pmtu := 1024 * 2 ^ r.f 8 2, rateAt := max s.now t } } }) ∧
    (q = r.f 0 12 → w = leNat r.payload → qpOf s q = some v → v.part = r.part → qpMove v.st (bits w 200 3) = true → bits w 200 3 ≤ 4 →
      1 ≤ bits w 203 5 → bits w 214 2 = 0 → bits w 277 235 = 0 →
      Accepts (s.clock t) a { opcode := 0x0231, rights := 3, pkg := .c, partUse := .one, parts := some [.assigned, .running], lenOk := (· == 64) } {} r →
      (bits w 200 3 = 0 → Answers (.qpModify t a) s r 0 [] a.returnOk (setQp (s.clock t) q
        { part := v.part, port := v.port, gid := v.gid, pmtu := v.pmtu, send := v.send, recv := v.recv, cq := v.cq, rate := v.rate,
          lastCut := v.lastCut, rateAt := v.rateAt, lastCnpSent := v.lastCnpSent })) ∧
      (bits w 200 3 = 1 → Answers (.qpModify t a) s r 0 [] a.returnOk (setQp (s.clock t) q { v with st := .init })) ∧
      (bits w 200 3 = 2 → Answers (.qpModify t a) s r 0 [] a.returnOk (setQp (s.clock t) q { v with
        st := .rtr, destGid := bits w 0 128, destQpn := bits w 128 24, rqPsn := bits w 176 24,
        destMac := bits w 216 48, vlan := bits w 264 12, vlanEn := bit w 276 })) ∧
      (bits w 200 3 = 3 → Answers (.qpModify t a) s r 0 [] a.returnOk (setQp (s.clock t) q { v with
        st := .rts, sqPsn := bits w 152 24, ackN := bits w 203 5, retry := bits w 208 3, rnr := bits w 211 3 })) ∧
      (bits w 200 3 = 4 → Answers (.qpModify t a) s r 0 [] a.returnOk (setQp (s.clock t) q { v with
        st := .error, timer := none, sendWork := v.sendWork.map (·.close (0x13, 0, 0)),
        recvWork := v.recvWork.map (·.close (0x13, 0, 0)) }))) ∧
    (qpOf s (r.f 0 12) = some v → v.part = r.part →
      Accepts (s.clock t) a
        { opcode := 0x0232, rights := 3, pkg := .c, partUse := .one, parts := some [.assigned, .running, .fenced] } {} r →
      (v.sendWork = [] → v.recvWork = [] → Answers (.qpDestroy t a) s r 0 [] a.returnOk
        { s.clock t with eth := { s.eth with qps := mdel s.eth.qps (r.f 0 12) } }) ∧
      (v.sendWork ≠ [] ∨ v.recvWork ≠ [] → Completes (.qpDestroy t a) s fun u => Replied u r 0 [] a.returnOk ∧
        qpOf u (r.f 0 12) = none ∧ (∀ q, q ≠ r.f 0 12 → qpOf u q = qpOf s q) ∧
        ButMail { s.clock t with eth := u.eth, ccs := u.ccs } u)) ∧
    (r.f 32 2 ≠ 0 → bufOf s (sessionOf s r.part) (r.f 0 32) = some b → r.f 64 64 + r.f 128 64 ≤ b.2.size →
      Accepts (s.clock t) a
        { opcode := 0x0234, rights := 3, pkg := .c, partUse := .one, parts := some [.assigned, .running], resp := 4 } {} r →
      (r.f 128 64 = 0 → Answers (.mrReg t a) s r 0 (leBytes 4 0) a.returnOk (s.clock t)) ∧
      (r.f 128 64 ≠ 0 → s.eth.mrs.length < 16384 → Answers (.mrReg t a) s r 0 (leBytes 4 (newKey s)) a.returnOk { s.clock t with
        freeCtr := s.freeCtr + 1, eth := { s.eth with
          mrs := mset s.eth.mrs (newKey s)
            { part := r.part, session := sessionOf s r.part, buf := b.1, base := b.2.base + r.f 64 64, len := r.f 128 64,
              rights := r.f 32 2 } } })) ∧
    (mfind s.eth.mrs (r.f 0 32) = some m → m.session = sessionOf s r.part →
      Accepts (s.clock t) a
        { opcode := 0x0235, rights := 3, pkg := .c, partUse := .one, parts := some [.assigned, .running, .fenced] } {} r →
      Answers (.mrDereg t a) s r 0 [] a.returnOk { s.clock t with eth := { s.eth with mrs := mdel s.eth.mrs (r.f 0 32) } })

/-- UNKNOWN_OPCODE (13 R342, R343): a request whose opcode chapter 15 does not assign is taken, answered 0x10, and counted as a
violation of its mailbox; nothing outside the mailboxes and the events changes. The ring registers (13 R336, R337, R344): a
doorbell that is in order sets REQ_TAIL and nothing else; one more than 16 ahead of REQ_HEAD or behind REQ_TAIL keeps it, sets
OVERRUN and counts a violation; a write of RSP_HEAD sets it; a reset of the rings sets REQ_HEAD to REQ_TAIL and RSP_HEAD to
RSP_TAIL, clears OVERRUN and VIOL_COUNT, takes RSP_IRQ_EN as written, and discards the responses of the mailbox's commands in
flight. Ageing, throttling and progress (13 R332, R341, R343): a mailbox whose command has waited MBX_AGE is promoted; a
throttle ends when its time has come; a further IN_PROGRESS gives the command in flight a new estimate, and leaves every other
command in flight and everything outside the mailboxes as it was. The management port and I3C (13 R345, R346; 19 R439): a client
whose root key hashes to the ownership anchor, with the handshake's other checks passed and no session served, opens the
session; its close discards the responses of the mailbox's commands in flight and ends the session's credential; an I3C private
write of 64 bytes is taken in as the request, and a private read returns the response that waits. -/
def Obligations.MailboxesAct : Prop :=
  (∀ (t : Nat) (a : MbxArgs) (s : State) (r : Req), nextReq (s.clock t) a = some r → opcodes.contains r.opcode = false →
    Completes (.unknownOpcode t a) s fun u =>
      Replied u r 0x10 [] a.returnOk ∧ ButMail { s with now := max s.now t } u ∧
      (boxOf u a.mb).violCount = satAdd max32 (boxOf s a.mb).violCount 1) ∧
  (∀ (t f v : Nat) (irqEn : Bool) (s : State),
    (barOpen s f 0x1000 = true → (v % 2 ^ 32 + 2 ^ 32 - (boxOf s f).reqHead) % 2 ^ 32 ≤ 16 →
      reqHeld (boxOf s f) ≤ (v % 2 ^ 32 + 2 ^ 32 - (boxOf s f).reqHead) % 2 ^ 32 → Completes (.mbxDoorbell t f v) s fun u =>
        u = { s with now := max s.now t, mbx := { s.mbx with boxes := u.mbx.boxes } } ∧
        boxOf u f = { boxOf s f with reqTail := v % 2 ^ 32, waitSince := (boxOf u f).waitSince } ∧
        ∀ m, m ≠ f → boxOf u m = boxOf s m) ∧
    (barOpen s f 0x1000 = true → (16 < (v % 2 ^ 32 + 2 ^ 32 - (boxOf s f).reqHead) % 2 ^ 32 ∨
      (v % 2 ^ 32 + 2 ^ 32 - (boxOf s f).reqHead) % 2 ^ 32 < reqHeld (boxOf s f)) → Completes (.mbxDoorbell t f v) s fun u =>
        ButMail { s with now := max s.now t } u ∧ (boxOf u f).overrun = true ∧ (boxOf u f).reqTail = (boxOf s f).reqTail ∧
        (boxOf u f).violCount = satAdd max32 (boxOf s f).violCount 1 ∧ ∀ m, m ≠ f → boxOf u m = boxOf s m) ∧
    (barOpen s f 0x100C = true → Completes (.mbxRspHeadWrite t f v) s fun u =>
        ButMail { s with now := max s.now t } u ∧ (boxOf u f).rspHead = v % 2 ^ 32 ∧ ∀ m, m ≠ f → boxOf u m = boxOf s m) ∧
    (barOpen s f 0x1014 = true → Completes (.mbxReset t f irqEn) s fun u =>
        u = { s with now := max s.now t, mbx := { s.mbx with boxes := u.mbx.boxes, flight := u.mbx.flight } } ∧
        boxOf u f = { boxOf s f with
          reqHead := (boxOf s f).reqTail, rspHead := (boxOf s f).rspTail, rspWait := [], waitSince := none, promoted := false,
          overrun := false, violCount := 0, irqEn := irqEn } ∧
        u.mbx.flight = s.mbx.flight.map (fun x => if x.mb == f then { x with discarded := true } else x) ∧
        ∀ m, m ≠ f → boxOf u m = boxOf s m)) ∧
  (∀ (t m w e seq : Nat) (f : InFlight) (s : State),
    (m < 7 → (boxOf s m).promoted = false → (boxOf s m).waitSince = some w → w + 1000 * cfg s 0x31 4 ≤ max s.now t →
      Gives (.mbxAgePromote t m) s (setBox (s.clock t) m { boxOf s m with promoted := true })) ∧
    ((boxOf s m).throttledUntil = some e → e ≤ max s.now t →
      Gives (.mbxThrottleEnd t m) s (setBox (s.clock t) m { boxOf s m with throttledUntil := none })) ∧
    (s.mbx.flight.find? (fun f => f.mb == m && f.seq == seq) = some f → serving s = true →
      (∀ e, f.estEnd = some e → max s.now t ≤ e) → Completes (.mbxProgressUpdate t m seq) s fun u =>
        ButMail { s with now := max s.now t, freeCtr := s.freeCtr + 1 } u ∧
        u.mbx.flight = s.mbx.flight.map (fun h =>
          if h == f then { f with estEnd := some (max s.now t + 1000000 * estimateOf s f) } else h))) ∧
  (∀ (t h r : Nat) (data : List Byte) (s : State),
    (s.sess.pkg.isSome = true → s.mbx.mgmtLive = false → s.fuses.anchor = some h → Gives (.mgmtTlsConnect t h true) s
      { s with now := max s.now t, mbx := { s.mbx with mgmtLive := true }, outbox := .mgmtConn true :: s.outbox }) ∧
    (s.mbx.mgmtLive = true → Gives (.mgmtSessionClose t) s
      { s with
        now := max s.now t
        mbx := { s.mbx with
          mgmtLive := false
          flight := s.mbx.flight.map (fun x => if x.mb == 5 then { x with discarded := true } else x) }
        keys := { s.keys with spdm := mdel s.keys.spdm 5 } }) ∧
    (s.sess.pkg.isSome = true → s.mbx.i3cReq = none → s.mbx.i3cRsp = none → inFlight s 6 = 0 → data.length = 64 →
      Gives (.i3cPrivateWrite t data) s
        { s with now := max s.now t, mbx := { s.mbx with
            i3cReq := some (leNat data), boxes := mset s.mbx.boxes 6 { boxOf s 6 with waitSince := some (max s.now t) } } }) ∧
    (s.mbx.i3cRsp = some r → Gives (.i3cPrivateRead t) s
      { s with now := max s.now t, mbx := { s.mbx with i3cRsp := none }, outbox := .i3cRead r :: s.outbox }))

/-- A Hayward's failure (13 R326, R329, 20 R485): a failed check or an expired watchdog of the active Hayward leaves it FAILED
with its cause; where the standby's report is good and at most 1.1 s old the switch-over begins, else the package is headless,
its tick generator HALTED and GRANGER_FAIL_N low. A failed standby is FAILED and nothing else of the mailboxes changes.
Switch-over and restart (13 R328 to R330, R324): the standby that takes control is ACTIVE, with BUSY 0 and one more activation;
a failed Hayward's island restarts when its second has passed, and its self-test leaves it STANDBY where it passes; Hayward A's
return begins a switch-over from B at a quiet point; a report counts the seconds of unbroken passing self-test of a standby, and
its own number. -/
def Obligations.HaywardsFailAndReturn : Prop :=
  (∀ (t h code w : Nat) (s : State), haysOn s = true → s.mbx.busy = false →
    (h = s.mbx.activeId → h < 2 → (hayOf s h).state = .active → 1 ≤ code → code ≤ 2 →
      Completes (.haywardCheckFail t h code) s fun u =>
        (hayOf u h).state = .failed ∧ (hayOf u h).lastFail = code ∧
        (standbyGood (s.clock t) = true → u.mbx.busy = true ∧ u.mbx.headless = s.mbx.headless ∧ u.tick = s.tick) ∧
        (standbyGood (s.clock t) = false → u.mbx.headless = true ∧ u.tick = { s.tick with state := .halted } ∧
          u.boot.grangerFailN = false) ∧
        u.mem = s.mem ∧ u.sess = s.sess ∧ u.power = s.power ∧ u.mbx.activeId = s.mbx.activeId) ∧
    ((hayOf s s.mbx.activeId).state = .active → s.mbx.watchdogAt ≤ w → w + 1000000 ≤ max s.now t →
      Completes (.haywardWatchdogExpire t w) s fun u =>
        (hayOf u s.mbx.activeId).state = .failed ∧ (hayOf u s.mbx.activeId).lastFail = 7 ∧ u.mbx.watchdogAt = w ∧
        (standbyGood (s.clock t) = true → u.mbx.busy = true ∧ u.tick = s.tick) ∧
        (standbyGood (s.clock t) = false → u.mbx.headless = true ∧ u.tick.state = .halted) ∧
        u.mem = s.mem ∧ u.sess = s.sess ∧ u.power = s.power)) ∧
  (∀ (t h corr code r : Nat) (s : State),
    (haysOn s = true → s.mbx.busy = true → s.mbx.activeId < 2 → (hayOf s (1 - s.mbx.activeId)).state = .standby →
      Completes (.haywardTakeover t) s fun u =>
        u.mbx.activeId = 1 - s.mbx.activeId ∧ u.mbx.busy = false ∧ (hayOf u (1 - s.mbx.activeId)).state = .active ∧
        (hayOf u (1 - s.mbx.activeId)).activations = satAdd 65535 (hayOf s (1 - s.mbx.activeId)).activations 1 ∧
        u.tick = s.tick ∧ u.sess = s.sess ∧ u.power = s.power ∧ u.fab = s.fab) ∧
    (h < 2 → (hayOf s h).state = .failed → (hayOf s h).restartAt = some r → r ≤ max s.now t →
      Gives (.haywardIslandRestart t h) s (setHay (s.clock t) h
        { hayOf s h with state := .selftest, restartAt := none, restarts := satAdd 255 (hayOf s h).restarts 1, uptimeS := 0,
                         healthyS := 0 })) ∧
    (h < 2 → (hayOf s h).state = .selftest → Gives (.haywardSelftestEnd t h true code) s
      (setHay (s.clock t) h
        { hayOf s h with state := .standby, lastPass := true, fwVersion := s.fw.runningVersion })) ∧
    (haysOn s = true → boundaryDue (s.clock t) = true → s.mbx.busy = false → s.mbx.headless = false → s.mbx.activeId = 1 →
      (hayOf s 1).state = .active → (hayOf s 0).state = .standby → 60 ≤ (hayOf s 0).healthyS → cfg s 0x30 4 = 1 →
      s.mbx.flight = [] → s.mbx.quietSince + 10000000 ≤ max s.now t → Gives (.haywardRevert t) s
        { s with now := max s.now t, mbx := { s.mbx with
            busy := true, busySince := max s.now t
            hay := mset s.mbx.hay 1 { hayOf s 1 with state := .standby, healthyS := 0 } } }) ∧
    (haysOn s = true → h < 2 → (hayOf s h).state = .active ∨ (hayOf s h).state = .standby →
      (∀ r, (hayOf s h).reportAt = some r → r + 1000000000 ≤ max s.now t) →
      Gives (.haywardHealthPublish t h corr) s (setHay (s.clock t) h
        { hayOf s h with
          lastPass := true
          healthyS := if (hayOf s h).state = .standby then satAdd 65535 (hayOf s h).healthyS 1 else (hayOf s h).healthyS
          uptimeS := ((hayOf s h).uptimeS + 1) % 2 ^ 32, sramCorr := satAdd 65535 (hayOf s h).sramCorr corr
          reportSeq := ((hayOf s h).reportSeq + 1) % 2 ^ 32, reportAt := some (max s.now t) })))

/-- EVENT_DELIVER (14 R351): a deliverable source's delivered state becomes 1, and its message goes to the host, or into the
function's pending-bit array where Bus Master Enable, the function mask or the vector's mask holds it; nothing else changes.
EVT_PEND_WRITE and EVT_MASK_WRITE (14 R347, R349, R352, R353): each bit of the word written acts on its own source, where the
function sees it and it is assigned: a pending bit written 1 is set, one written 0 is cleared with its delivered state, and a
mask bit takes what is written; sources 0 to 5 keep their pending bits (R354). Every other source of every function, and
everything outside the Event Hub, is unchanged. EVT_PRIV_SET_WRITE and EVT_PRIV_CLR_WRITE (14 R354): a host's write to
EVT_PRIV_SET is discarded and counts in the function's SYS_ERR; the active Hayward's write sets the pending bits of the sources
it names in every function; a write to EVT_PRIV_CLR clears, for each 1, the pending bit and the delivered state in the writer's
copy, and nothing else. -/
def Obligations.EventHubActs : Prop :=
  (∀ (t f src : Nat) (s : State), deliverable s f src = true → src < 512 →
    Completes (.eventDeliver t f src) s fun u =>
      u = { s with now := max s.now t, evt := { s.evt with bits := u.evt.bits }, host := u.host, outbox := u.outbox } ∧
      evtBit u f src = { evtBit s f src with dlvd := true } ∧
      (∀ g n, n < 512 → (g, n) ≠ (f, src) → evtBit u g n = evtBit s g n) ∧
      (let v := (evtBit s f src).vec
       let free := canMaster s f && !(fnOf s f).fmask && !(mget {} (fnOf s f).vecs v : MsixVec).masked
       (free = true → u.host = s.host ∧ u.outbox = .msix f v :: s.outbox) ∧
       (free = false → u.outbox = s.outbox ∧ v ∈ (fnOf u f).pba ∧ ∀ g, g ≠ f → fnOf u g = fnOf s g))) ∧
  (∀ (t f n data : Nat) (wide : Bool) (s : State), regIndexOk n wide = true →
    (barOpen s f (0x2000 + 4 * n) = true → Completes (.evtPendWrite t f n data wide) s fun u =>
      u = { s with now := max s.now t, evt := { s.evt with bits := u.evt.bits } } ∧
      ∀ g src, src < 512 →
        evtBit u g src =
          if g = f ∧ 32 * n ≤ src ∧ src < 32 * n + (if wide then 64 else 32) ∧ sees f src = true ∧ assigned src = true ∧ 5 < src
          then (if bit data (src - 32 * n) then { evtBit s f src with pend := true }
                else { evtBit s f src with pend := false, dlvd := false })
          else evtBit s g src) ∧
    (barOpen s f (0x2040 + 4 * n) = true → Completes (.evtMaskWrite t f n data wide) s fun u =>
      u = { s with now := max s.now t, evt := { s.evt with bits := u.evt.bits } } ∧
      ∀ g src, src < 512 →
        evtBit u g src =
          if g = f ∧ 32 * n ≤ src ∧ src < 32 * n + (if wide then 64 else 32) ∧ sees f src = true ∧ assigned src = true
          then { evtBit s f src with mask := bit data (src - 32 * n) }
          else evtBit s g src)) ∧
  (∀ (t f data : Nat) (s : State),
    (barOpen s f 0x2300 = true → Gives (.evtPrivSetWrite t f data true) s
      { s with now := max s.now t, host := { s.host with
          sysErr := mset s.host.sysErr f (satAdd max32 (mget 0 s.host.sysErr f) 1) } }) ∧
    (s.mbx.headless = false → s.sess.pkg.isSome = true → Completes (.evtPrivSetWrite t f data false) s fun u =>
      ButEvents { s with now := max s.now t } u ∧
      ∀ i g, i < 6 → g < 5 → bit data i = true → (evtBit u g i).pend = true) ∧
    (barOpen s f 0x2304 = true → Completes (.evtPrivClrWrite t f data) s fun u =>
      u = { s with now := max s.now t, evt := { s.evt with bits := u.evt.bits } } ∧
      ∀ g src, src < 512 → evtBit u g src =
        if g = f ∧ src < 6 ∧ bit data src = true then { evtBit s f src with pend := false, dlvd := false } else evtBit s g src))

/-- The identity and status commands (15 Table 15-3, 13 R325, 18 R427, R431): accepted, each answers OK with its record as it
stands when the command is taken, and changes nothing but, for the operator, the RC fields of a health report. SNAPSHOT_READ (15
R375): a snapshot that is held is returned as its reader receives it, and nothing changes. -/
def Obligations.IdentityCommandsAnswer : Prop :=
  (∀ (t : Nat) (a : MbxArgs) (s : State) (r : Req) (p : StageReport),
    (Accepts (s.clock t) a { opcode := 0x0100, rights := 7, pkg := .any, partUse := .pkg, resp := 32 } {} r →
      Answers (.identity t a) s r 0 (leBytes 32 (identityRecord s)) a.returnOk (s.clock t)) ∧
    (Accepts (s.clock t) a { opcode := 0x0101, rights := 7, pkg := .any, partUse := .pkg, resp := 32 } {} r →
      Completes (.haywardHealth t a) s fun u =>
        Replied u r 0 (leBytes 32 (healthReport s (r.f 0 1))) a.returnOk ∧ ButMail (s.clock t) u ∧
        (r.op = true → (hayOf u (r.f 0 1)).sramCorr = 0 ∧ (hayOf u (r.f 0 1)).failCount = 0) ∧
        (r.op = false → u.mbx.hay = s.mbx.hay)) ∧
    (Accepts (s.clock t) a { opcode := 0x0103, rights := 1, pkg := .any, partUse := .pkg, resp := 156 } {} r →
      s.boot.mapBuilt = true → Answers (.tileMap t a) s r 0
        ((List.range 156).map (fun i => BitVec.ofNat 8 (tileMapByte s (r.f 0 1) (i / 13) (i % 13)))) a.returnOk (s.clock t)) ∧
    (Accepts (s.clock t) a { opcode := 0x0104, rights := 1, pkg := .any, partUse := .pkg, resp := 128 } {} r → r.f 0 4 ≤ 8 →
      mfind s.boot.reports (r.f 0 4) = some p →
      Answers (.stageReport t a) s r 0 (reportBytes (r.f 0 4) p) a.returnOk (s.clock t)) ∧
    (Accepts (s.clock t) a { opcode := 0x0102, rights := 7, pkg := .any, partUse := .pkg, resp := 32 } {} r →
      Completes (.pkgStatus t a) s fun u =>
        Replied u r 0 (leBytes 32 (pkgRecord (take (s.clock t) a.mb) r.tenantPart)) a.returnOk ∧ ButMail (s.clock t) u)) ∧
  (∀ (t : Nat) (a : MbxArgs) (s : State) (r : Req) (m : Snapshot), findSnapshot s (r.f 0 64) = some m →
    Accepts (s.clock t) a { opcode := 0x0B00, rights := 3, pkg := .uc, partUse := .pkg }
      { resp := some (snapBytes s m r.tenantPart).length } r →
    Answers (.snapshotRead t a) s r 0 (snapBytes s m r.tenantPart) a.returnOk (s.clock t))

/-- CONFIG_SET (15 R368, R365): accepted, with items that apply at once, it sets each item at each scope it names and answers
COMMIT_TICK 0; with items that commit at a step, and fewer than 64 commands staged, it holds one staged change with its tick and
answers COMMIT_TICK, and no item changes; a staged tick period shows in TICK_PERIOD. CONFIG_GET, CONFIG_DONE and WATCH_LIST_SET
(15 Table 15-7, R366; 14 R358): accepted with the row's own conditions met, they answer the item's values in force and staged,
make the package CONFIGURED, and replace the watch list. -/
def Obligations.ConfigurationCommandsAct : Prop :=
  (∀ (t : Nat) (a : MbxArgs) (s : State) (r : Req), configChk r s = {} →
    Accepts (s.clock t) a { opcode := 0x0200, rights := 3, pkg := .uc, partUse := .free, resp := 8 } {} r →
    (configAtStep r = false → Answers (.configSet t a) s r 0 (leBytes 8 0) a.returnOk
      ((r.slots.flatMap (fun e => slotSets s r.part e.1 e.2)).foldl applyItem (s.clock t))) ∧
    (configAtStep r = true → s.sess.staged.length < 64 → Completes (.configSet t a) s fun u =>
      Replied u r 0 (leBytes 8 (commitTick (s.clock t) (r.f 0 64))) a.returnOk ∧
      ButMail { s.clock t with sess := u.sess, tick := u.tick } u ∧
      u.sess = { s.sess with staged := s.sess.staged ++
        [⟨if r.f 0 64 = 0 then none else some (r.f 0 64), max s.now t,
          .config (r.slots.flatMap (fun e => slotSets s r.part e.1 e.2))⟩] } ∧
      (∀ e, r.slots.find? (fun e => e.1 == 0x01) = some e → u.tick = { s.tick with
        nextUs := e.2, nextValid := true, periodAt := BitVec.ofNat 64 (commitTick (s.clock t) (r.f 0 64)) }) ∧
      (r.slots.find? (fun e => e.1 == 0x01) = none → u.tick = s.tick)) ∧
    (configAtStep r = true → 64 ≤ s.sess.staged.length →
      Answers (.configSet t a) s r 0x31 [] a.returnOk (s.clock t))) ∧
  (∀ (t : Nat) (a : MbxArgs) (s : State) (r : Req) (i : Item),
    (itemOf (r.f 0 16) = some i → i.scope ≠ .stack → scopeBad r i = false → (r.tenant = true → i.tenant = true) →
      Accepts (s.clock t) a { opcode := 0x0201, rights := 3, pkg := .uc, partUse := .free, resp := 24 } {} r →
      Answers (.configGet t a) s r 0
        (configAnswer s (r.f 0 16) (if i.scope = .package then 4 else r.part)) a.returnOk (s.clock t)) ∧
    (s.fab.lpt ≠ [] → Accepts (s.clock t) a { opcode := 0x0202, rights := 1, pkg := .u, partUse := .pkg } {} r →
      Answers (.configDone t a) s r 0 [] a.returnOk { s.clock t with sess := { s.sess with pkg := some .configured } }) ∧
    ((∀ x ∈ u16s 32 r.payload, x ≠ 0xFFFF → assigned x = true) →
      ((u16s 32 r.payload).filter (· != 0xFFFF)).Nodup →
      Accepts (s.clock t) a { opcode := 0x0203, rights := 1, pkg := .uc, partUse := .pkg, lenOk := (· == 64) } {} r →
      Answers (.watchListSet t a) s r 0 [] a.returnOk
        { s.clock t with evt := { s.evt with watch := u16s 32 r.payload } }))

/-- CHANNEL_SET, CHANNEL_GET and CHANNEL_RESUME (15 Table 15-7, 05 R122, R123, R133): accepted with the named context there and
the row's conditions met, they write the RW fields of the context, HEAD taking the doorbell counter's value where ENABLE rises,
answer the context, and clear HALTED. LPT_WRITE and LPT_READ (15 Table 15-11, 10 R247): accepted with no valid entry's position
above 71 or named twice, and with fewer than 64 commands staged, a table is held staged and COMMIT_TICK is answered; a read
answers the table in force, or the latest staged one. -/
def Obligations.ChannelAndLptCommandsAct : Prop :=
  (∀ (t : Nat) (a : MbxArgs) (s : State) (r : Req) (c : Chan), namedChan s r = some c →
    (channelSetChk r s = {} → Accepts (s.clock t) a
        { opcode := 0x0220, rights := 3, pkg := .c, partUse := .one, parts := some [.assigned, .running], lenOk := (· == 32) } {} r →
      Answers (.channelSet t a) s r 0 [] a.returnOk (setNamed (s.clock t) r
        (let n := chanFields c (leNat r.payload)
         if n.enable && !c.enable then { n with head := ccGet s r.part n.dbCc } else n))) ∧
    (Accepts (s.clock t) a
        { opcode := 0x0221, rights := 3, pkg := .c, partUse := .one, parts := some [.assigned, .running, .fenced], resp := 32 } {} r →
      Answers (.channelGet t a) s r 0 (leBytes 32 (chanWord c)) a.returnOk (s.clock t)) ∧
    (c.halted = true → Accepts (s.clock t) a
        { opcode := 0x0222, rights := 3, pkg := .c, partUse := .one, parts := some [.assigned, .running] } {} r →
      Answers (.channelResume t a) s r 0 [] a.returnOk (setNamed (s.clock t) r { c with halted := false }))) ∧
  (∀ (t : Nat) (a : MbxArgs) (s : State) (r : Req) (l : List Nat),
    (tickBad s (r.f 0 64) = false → tickWrong s (r.f 0 64) = false → (∀ p ∈ validPos (u16s 64 r.payload), p ≤ 71) →
      (validPos (u16s 64 r.payload)).Nodup → s.sess.staged.length < 64 →
      Accepts (s.clock t) a
        { opcode := 0x0400, rights := 1, pkg := .uc, partUse := .pkg, lenOk := (· == 128), resp := 8 } {} r →
      Answers (.lptWrite t a) s r 0 (leBytes 8 (commitTick (s.clock t) (r.f 0 64))) a.returnOk
        { s.clock t with sess := { s.sess with staged := s.sess.staged ++
          [⟨if r.f 0 64 = 0 then none else some (r.f 0 64), max s.now t, .lpt ((u16s 64 r.payload).map (· % 256))⟩] } }) ∧
    (r.f 0 1 = 0 → Accepts (s.clock t) a { opcode := 0x0401, rights := 3, pkg := .uc, partUse := .pkg, resp := 128 } {} r →
      Answers (.lptRead t a) s r 0 (fit 128 (s.fab.lpt.flatMap (leBytes 2))) a.returnOk (s.clock t)) ∧
    (r.f 0 1 = 1 → stagedLpt s = some l →
      Accepts (s.clock t) a { opcode := 0x0401, rights := 3, pkg := .uc, partUse := .pkg, resp := 128 } {} r →
      Answers (.lptRead t a) s r 0 (fit 128 (l.flatMap (leBytes 2))) a.returnOk (s.clock t)))

/-- The job domain and group commands (15 Table 15-14, 11 R271 to R274, R297, R303): accepted with each row's own conditions
met, they join and leave a domain, create, delete and set the local records of a group, and answer the records of a group and of
the package, whose RC fields clear for the operator. -/
def Obligations.GroupCommandsAct : Prop :=
  ∀ (t : Nat) (a : MbxArgs) (s : State) (r : Req) (g : Group),
    (r.f 0 16 ≠ 0 → r.f 0 16 ∉ (partOf s r.part).jobs → (partOf s r.part).jobs.length < 16 →
      Accepts (s.clock t) a
        { opcode := 0x0700, rights := 1, pkg := .c, partUse := .one, parts := some [.assigned, .running] } {} r →
      Answers (.jobJoin t a) s r 0 [] a.returnOk (setJobs (s.clock t) r.part ((partOf s r.part).jobs ++ [r.f 0 16])
        (if r.f 16 1 = 1 then r.f 0 16 else (partOf s r.part).defaultJob))) ∧
    ((∀ g ∈ s.coll.groups, ¬(g.part = r.part ∧ g.job = r.f 0 16)) →
      Accepts (s.clock t) a { opcode := 0x0701, rights := 1, pkg := .c, partUse := .one, parts := some notFree } {} r →
      Answers (.jobLeave t a) s r 0 [] a.returnOk (setJobs (s.clock t) r.part
        ((partOf s r.part).jobs.filter (· != r.f 0 16))
        (if (partOf s r.part).defaultJob = r.f 0 16 then 0 else (partOf s r.part).defaultJob))) ∧
    (groupBad s r = false → r.f 32 7 = r.len → s.coll.groups.length + (localMembers s r.members).length ≤ 512 →
      (∀ e ∈ localMembers s r.members, (s.coll.groups.filter (fun g => g.part == e.2)).length < 128) →
      Accepts (s.clock t) a
        { opcode := 0x0702, rights := 3, pkg := .c, partUse := .one, parts := some [.assigned, .running], lenOk := fun n => 1 ≤ n && n ≤ 64 } {} r →
      Answers (.groupCreate t a) s r 0 [] a.returnOk { s.clock t with coll := { s.coll with
        groups := s.coll.groups ++ (localMembers s r.members).map (fun e => ({
          job := r.f 0 16, group := r.f 16 12, part := e.2, rank := e.1, members := r.members, timeoutUs := timeoutOf r } : Group)) } }) ∧
    (localGroups s (r.f 0 16) (r.f 16 12) ≠ [] →
      (r.tenant = true → ∀ g ∈ localGroups s (r.f 0 16) (r.f 16 12), g.part ∈ sessionParts s r.part) →
      (∀ o ∈ s.coll.opens, ¬(o.job = r.f 0 16 ∧ o.group = r.f 16 12)) →
      Accepts (s.clock t) a { opcode := 0x0703, rights := 3, pkg := .c, partUse := .one, parts := some notFree } {} r →
      Answers (.groupDelete t a) s r 0 [] a.returnOk { s.clock t with coll := { s.coll with
        groups := s.coll.groups.filter (fun g => !(g.job == r.f 0 16 && g.group == r.f 16 12)) } }) ∧
    (timeoutBad r = false → groupOfPart s (r.f 0 16) (r.f 16 12) r.part = some g →
      Accepts (s.clock t) a
        { opcode := 0x0704, rights := 3, pkg := .c, partUse := .one, parts := some [.assigned, .running] } {} r →
      Answers (.groupConfig t a) s r 0 [] a.returnOk (updGroup (s.clock t) { g with timeoutUs := timeoutOf r })) ∧
    (groupOfPart s (r.f 0 16) (r.f 16 12) r.part = some g →
      Accepts (s.clock t) a
        { opcode := 0x0705, rights := 3, pkg := .c, partUse := .one, parts := some notFree, resp := 192 } {} r →
      Answers (.groupStatus t a) s r 0 (leBytes 192 (groupRecord s g)) a.returnOk
        (if r.op then updGroup (s.clock t) { g with
          maxLag := 0, completed := 0, failed := 0, timeouts := 0, granary := 0, gleaner := 0, lastCount := [] } else s.clock t)) ∧
    (Accepts (s.clock t) a { opcode := 0x0706, rights := 1, pkg := .any, partUse := .pkg, resp := 16 } {} r →
      Answers (.collStatus t a) s r 0 (leBytes 16 (collPackageRecord s)) a.returnOk
        { s.clock t with coll := { s.coll with unknown := 0, readyDrops := 0, overfill := 0, slotsMin := s.coll.slotsFree } })

/-- The partition commands (15 Table 15-9, R365, R369; 01 R20; 02 R32, R50): accepted with each row's own conditions met,
SESSION_CREATE makes every partition of its mask ASSIGNED under its session and leaves the others; PART_START and PART_STOP are
held staged and answer COMMIT_TICK; PART_STATUS answers the partition's record and changes nothing. PART_FENCE, PART_RESET and
SESSION_END (20 R466, R478; 19 R458; 13 R341): accepted with nothing of the partition under way, each is in flight with
IN_PROGRESS, and the fence (cause 5, cause 6), the reset of a FENCED partition, or the Winnow of every partition of the session
has begun. What a fence's start leaves (20 R466, R464, 02 R51): the partition is in the state asked for, the fence is recorded
with its cause, detectors, hung unit and instant, no release of the partition is out, and the partition's endpoints refuse. -/
def Obligations.PartitionCommandsAct : Prop :=
  (∀ (t : Nat) (a : MbxArgs) (s : State) (r : Req),
    (r.f 0 32 ≠ 0 → r.f 32 4 ∈ [1, 2, 4, 8, 3, 12, 15] → partsWith s (r.f 0 32) = [] →
      (∀ p ∈ maskParts (r.f 32 4), pstate s p = .free) →
      Accepts (s.clock t) a { opcode := 0x0300, rights := 1, pkg := .c, partUse := .pkg } {} r →
      Completes (.sessionCreate t a) s fun u =>
        Replied u r 0 [] a.returnOk ∧ ButMail { s.clock t with sess := { s.sess with parts := u.sess.parts } } u ∧
        ∀ p, partOf u p = if p ∈ maskParts (r.f 32 4)
          then { partOf s p with st := .assigned, session := r.f 0 32, stateTick := s.tick.count.toNat } else partOf s p) ∧
    (tickBad s (r.f 0 64) = false → tickWrong s (r.f 0 64) = false → s.sess.staged.length < 64 →
      Accepts (s.clock t) a
        { opcode := 0x0301, rights := 3, pkg := .c, partUse := .one, parts := some [.assigned], resp := 8 } {} r →
      Answers (.partStart t a) s r 0 (leBytes 8 (commitTick (s.clock t) (r.f 0 64))) a.returnOk
        { s.clock t with sess := { s.sess with staged := s.sess.staged ++
          [⟨if r.f 0 64 = 0 then none else some (r.f 0 64), max s.now t, .partStart r.part⟩] } }) ∧
    (tickBad s (r.f 0 64) = false → tickWrong s (r.f 0 64) = false → s.sess.staged.length < 64 →
      Accepts (s.clock t) a
        { opcode := 0x0302, rights := 3, pkg := .c, partUse := .one, parts := some [.running], resp := 8 } {} r →
      Answers (.partStop t a) s r 0 (leBytes 8 (commitTick (s.clock t) (r.f 0 64))) a.returnOk
        { s.clock t with sess := { s.sess with staged := s.sess.staged ++
          [⟨if r.f 0 64 = 0 then none else some (r.f 0 64), max s.now t, .partStop r.part⟩] } }) ∧
    (Accepts (s.clock t) a { opcode := 0x0306, rights := 3, pkg := .any, partUse := .one, resp := 32 } {} r →
      Answers (.partStatus t a) s r 0 (leBytes 32 (statusRecord s r.part)) a.returnOk (s.clock t))) ∧
  (∀ (t : Nat) (a : MbxArgs) (s : State) (r : Req),
    (Accepts (s.clock t) a
        { opcode := 0x0303, rights := 3, pkg := .c, partUse := .one, parts := some [.assigned, .running] } {} r →
      Starts (.partFence t a) s r .partFence (Settled t s
        (beginFence (take (s.clock t) a.mb) r.part .fenced { cause := 5, origin := ownOrigin s r.part }))) ∧
    (pstate s r.part = .assigned ∨ pstate s r.part = .running →
      Accepts (s.clock t) a
        { opcode := 0x0304, rights := 3, pkg := .c, partUse := .one, parts := some [.assigned, .running, .fenced] } {} r →
      Starts (.partReset t a) s r .partReset (Settled t s (beginFence
        { take (s.clock t) a.mb with faults := { s.faults with resets := mset s.faults.resets r.part (max s.now t) } }
        r.part .fenced { cause := 6, origin := ownOrigin s r.part }))) ∧
    (pstate s r.part = .fenced → replaying s r.part = false → (∀ f, fenceOf s r.part = some f → f.complete = true) →
      Accepts (s.clock t) a
        { opcode := 0x0304, rights := 3, pkg := .c, partUse := .one, parts := some [.assigned, .running, .fenced] } {} r →
      Starts (.partReset t a) s r .partReset (Settled t s (resetPartition (setPState (dropFence
        { take (s.clock t) a.mb with faults := { s.faults with resets := mset s.faults.resets r.part (max s.now t) } }
        r.part) r.part .resetting) r.part))) ∧
    (sessionOf s r.part ≠ 0 → sessionBusy s (sessionParts s r.part) = false →
      Accepts (s.clock t) a { opcode := 0x0305, rights := 3, pkg := .c, partUse := .one, parts := some notFree } {} r →
      Starts (.sessionEnd t a) s r (.sessionEnd (sessionParts s r.part))
        (Settled t s ((sessionParts s r.part).foldl beginWinnow (take (s.clock t) a.mb))))) ∧
  (∀ (s : State) (p : Nat) (w : Why), p < 4 →
    let u := beginFence s p .fenced w
    pstate u p = .fenced ∧ refusing u p = true ∧ (mget {} u.tick.rel p).out = false ∧
    ∃ f, fenceOf u p = some f ∧ f.cause = w.cause ∧ f.detectors = w.detectors ∧ f.start = s.now ∧ f.tick = s.tick.count.toNat ∧
      f.hungKind = w.hungKind ∧ f.hungIndex = w.hungIndex ∧ f.drainEnd = none ∧ f.complete = false)

/-- PART_RESET_COMPLETE (20 R480): the reset under way ends FAILED where a stack of the partition is failed, a column of it has
two defects or the limit has passed, and ASSIGNED otherwise; the fault log takes its entry. WINNOW_COMPLETE (19 R458, Table
19-9; 15 R369): the Winnow of a partition under way ends; nothing of the tenant is left: every byte of its scratchpads and of
its working stacks reads 0, its queues, buffers, QPs, regions, groups and samples are gone, and it holds no session; the others
keep theirs. -/
def Obligations.PartitionResetAndWinnowEnd : Prop :=
  (∀ (t p : Nat) (lanes : List LaneTrain) (degraded : List (Nat × Nat)) (links tiles : List Nat) (s : State) (start : Nat),
    p < 4 → pstate s p = .resetting → serving (s.clock t) = true → mfind s.faults.resets p = some start →
    Completes (.partResetComplete t p lanes degraded links tiles) s fun u =>
      mfind u.faults.resets p = none ∧
      pstate u p = (if (stacksOf p).any (fun k => (stackOf u k).failed) = true ∨
          u.boot.failedCols.any (fun c => partOfColumn c == p) = true ∨ start + 4000000000 < max s.now t
        then .failed else .assigned) ∧
      (∃ e ∈ u.faults.buffer, e.type = 0x03 ∧ e.part = p) ∧ u.mem = { s.mem with win := u.mem.win } ∧ u.cellars = s.cellars) ∧
  (∀ (t p start : Nat) (reduced : Bool) (s : State), p < 4 → pstate s p = .winnowing → serving (s.clock t) = true →
    fenceOf s p = none → mfind s.keys.winnow p = some (start, reduced) → start + winnowNs s reduced 1 ≤ max s.now t →
    (∀ k ∈ stacksOf p, (stackOf s k).selfRefresh = false) →
    Completes (.winnowComplete t p 1) s fun u =>
      (∀ i ∈ tilesOf p, ∀ o < spadBytes, spadByte u (spadBytes * i + o) = 0) ∧
      (∀ k ∈ stacksOf p, (stackOf s k).failed = false → ∀ x < 2 ^ 36, memByte u.mem.stk (stkKey k x) = 0) ∧
      (∀ c, partOfCore c = p → c < 1152 → coreOf u c = {}) ∧ (∀ i ∈ tilesOf p, tileOf u i = {}) ∧
      (∀ e ∈ u.place.bufs, e.2.owner ≠ p) ∧ (∀ e ∈ u.eth.qps, e.2.part ≠ p) ∧ (∀ e ∈ u.eth.mrs, e.2.part ≠ p) ∧
      (∀ g ∈ u.coll.groups, g.part ≠ p) ∧ mfind u.faults.samples p = none ∧
      sessionOf u p = 0 ∧ (partOf u p).jobs = [] ∧ (pstate u p = .free ∨ pstate u p = .failed) ∧
      (∀ q, q ≠ p → partOf u q = partOf s q))

/-- The power commands (15 Table 15-12, 16 R372, R379, R386, R394, R395, R397 to R400, 17 R414): accepted with each row's own
conditions met, a grant, a cap and a mode are held staged with COMMIT_TICK; Active begins the exit of every die in Fallow, Idle
waits for step 8, Fallow makes the dies' partitions DORMANT with their states recorded, Off turns the package off; and the
records are answered as they stand. -/
def Obligations.PowerCommandsAct : Prop :=
  ∀ (t : Nat) (a : MbxArgs) (s : State) (r : Req) (k : Option Nat),
    (tickBad s (r.f 0 64) = false → tickWrong s (r.f 0 64) = false → s.sess.staged.length < 64 →
      k = (if r.f 0 64 = 0 then none else some (r.f 0 64)) →
      (Accepts (s.clock t) a { opcode := 0x0500, rights := 1, pkg := .uc, partUse := .free, resp := 8 } {} r →
        (r.part = 4 → 600 ≤ r.f 64 16 → r.f 64 16 ≤ 2400 → r.f 80 16 = 0 ∨ r.f 64 16 ≤ r.f 80 16 ∧ r.f 80 16 ≤ 2400 →
          wattsOk (r.f 96 16) = true → wattsOk (r.f 112 16) = true → r.f 128 32 = 0 ∨ 100 ≤ r.f 128 32 ∧ r.f 128 32 ≤ 600000 →
          Answers (.grantSet t a) s r 0 (leBytes 8 (commitTick (s.clock t) (r.f 0 64))) a.returnOk { s.clock t with
            sess := { s.sess with staged := s.sess.staged ++
              [⟨k, max s.now t, .grant (r.f 64 16) (r.f 80 16) (r.f 96 16) (r.f 112 16) (r.f 128 32)⟩] } }) ∧
        (r.part ≠ 4 → r.f 64 16 = 0 ∨ 100 ≤ r.f 64 16 ∧ r.f 64 16 ≤ 600 →
          Answers (.grantSet t a) s r 0 (leBytes 8 (commitTick (s.clock t) (r.f 0 64))) a.returnOk { s.clock t with
            sess := { s.sess with staged := s.sess.staged ++ [⟨k, max s.now t, .partCap r.part (r.f 64 16)⟩] } })) ∧
      (r.f 64 2 ≠ 3 → Accepts (s.clock t) a { opcode := 0x0501, rights := 1, pkg := .uc, partUse := .pkg, resp := 8 } {} r →
        Answers (.modeSet t a) s r 0 (leBytes 8 (commitTick (s.clock t) (r.f 0 64))) a.returnOk { s.clock t with
          sess := { s.sess with staged := s.sess.staged ++ [⟨k, max s.now t, .mode (r.f 64 2)⟩] } })) ∧
    (powerBusy s = false → Accepts (s.clock t) a { opcode := 0x0502, rights := 1, pkg := .c, partUse := .pkg } {} r →
      (r.f 0 2 = 0 → s.heat.stopped = false → s.heat.flowState ≠ 3 → Starts (.powerStateActive t a) s r .powerState (Settled t s
        (beginExit { s.clock t with power := { s.power with
          idleNext := some false, exitAfter := !s.power.entering.isEmpty } }))) ∧
      (r.f 0 2 = 1 → Starts (.powerStateIdle t a) s r .powerState
        { s.clock t with power := { s.power with idleNext := some true } }) ∧
      (r.f 0 2 = 2 → r.f 2 2 ≠ 0 →
        (∀ d ∈ diesOf (r.f 2 2), ∀ p ∈ partsOfDie d, pstate s p ∉ [.running, .resetting, .winnowing]) →
        (∀ d ∈ diesOf (r.f 2 2), d ∉ s.power.fallow ∧ mfind s.power.entering d = none) →
        Completes (.powerStateFallow t a) s fun u => (∃ f ∈ u.mbx.flight, f.mb = r.mb ∧ f.seq = r.seq ∧ f.kind = .powerState) ∧
          (∀ d ∈ diesOf (r.f 2 2), mfind u.power.entering d = some (max s.now t) ∧ ∀ p ∈ partsOfDie d,
            (pstate s p ∈ [.free, .assigned, .fenced] → pstate u p = .dormant ∧ (partOf u p).recorded = pstate s p) ∧
            (pstate s p = .failed → pstate u p = .failed)) ∧
          (∀ p < 4, p / 2 ∉ diesOf (r.f 2 2) → partOf u p = partOf s p) ∧ u.tiles = s.tiles ∧ u.tick = s.tick) ∧
      (r.f 0 2 = 3 → (∀ p < 4, pstate s p = .free) → Completes (.powerStateOff t a) s fun u =>
        u.boot.poweredOff = true ∧ u.tick.state = .halted ∧ u.stks = [] ∧ u.mem = {} ∧ u.tiles = [] ∧ u.fab.links = [] ∧
        u.host.linkUp = false ∧ u.faults.buffer = s.faults.buffer ∧ u.fw.slotA = s.fw.slotA ∧ u.fw.slotB = s.fw.slotB)) ∧
    (Accepts (s.clock t) a { opcode := 0x0503, rights := 3, pkg := .any, partUse := .pkg, resp := 32 } {} r →
      Completes (.powerStatus t a) s fun u => Replied u r 0 (leBytes 32 (powerRecord (s.clock t) r.tenantPart)) a.returnOk ∧
        ButMail (s.clock t) u) ∧
    (r.op = true → Accepts (s.clock t) a { opcode := 0x0504, rights := 3, pkg := .any, partUse := .pkg } { resp := some 72 } r →
      Answers (.tallyRead t a) s r 0 ((List.range 9).flatMap (fun k => leBytes 8 (natOf (mget 0 s.power.tally k)))) a.returnOk
        (s.clock t)) ∧
    (r.op = false → Accepts (s.clock t) a { opcode := 0x0504, rights := 3, pkg := .any, partUse := .pkg } { resp := some 16 } r →
      Answers (.tallyRead t a) s r 0 (leBytes 8 (natOf (mget 0 s.power.tally r.part)) ++
        leBytes 8 (natOf (mget 0 s.power.tally (5 + r.part)))) a.returnOk (s.clock t)) ∧
    (Accepts (s.clock t) a { opcode := 0x0505, rights := 5, pkg := .uc, partUse := .pkg, resp := 32 } {} r →
      Answers (.forecastRead t a) s r 0 (leBytes 32 (forecastRecord s)) a.returnOk (s.clock t)) ∧
    (Accepts (s.clock t) a { opcode := 0x0506, rights := 5, pkg := .uc, partUse := .pkg, resp := 32 } {} r →
      Answers (.minuteReport t a) s r 0 (leBytes 32 s.power.report) a.returnOk (s.clock t))

/-- Fallow and the leases (16 R384, R394 to R396, R399): an entry completed leaves the die in Fallow, its stacks in self-refresh
and its rails off; an exit completed gives its DORMANT partitions their recorded states; a wake begins the exit of every die; an
expired lease lets the grant fall from here on and fires source 24; a minute that is due is reported; a quadrant gates its clock
and ungates it. -/
def Obligations.PowerStatesChange : Prop :=
  ∀ (t d q : Nat) (s : State),
    ((mfind s.power.entering d).isSome = true → d < 2 →
      s.power.exitAfter = false ∨ s.power.entering.any (fun e => e.1 != d) = true →
      Completes (.fallowEntryComplete t d) s fun u =>
        d ∈ u.power.fallow ∧ mfind u.power.entering d = none ∧ u.evt.held = true ∧
        (∀ e ∈ s.power.fallow, e < 2 → e ∈ u.power.fallow) ∧
        (∀ k < 6, (stackOf u (6 * d + k)).selfRefresh = true) ∧
        (∀ c < 4, (partOfCore (288 * c)) / 2 = d → (mfind u.cores (288 * c)) = none) ∧
        (∀ q < 4, Output.avsSet (4 * d + q) 0 ∈ u.outbox) ∧ u.mem.stk = s.mem.stk ∧ u.sess = s.sess) ∧
    ((mfind s.power.exiting d).isSome = true → Completes (.fallowExitComplete t d) s fun u =>
      d ∉ u.power.fallow ∧ mfind u.power.exiting d = none ∧ (∀ k < 6, (stackOf u (6 * d + k)).selfRefresh = false) ∧
      (∀ p ∈ partsOfDie d, pstate u p = (if pstate s p = .dormant then (partOf s p).recorded else pstate s p)) ∧
      (∀ p, p ∉ partsOfDie d → partOf u p = partOf s p) ∧ u.mem.stk = s.mem.stk ∧ u.place = s.place) ∧
    (s.evt.wakeReq = true → s.evt.wakePriv = false → s.power.fallow ≠ [] → s.power.entering = [] → s.power.byFlow = false →
      heatCondition s = false → hayOn s = true → Completes (.fallowWake t) s fun u => u.evt.wakeReq = false ∧
        (∀ d ∈ s.power.fallow, (mfind u.power.exiting d).isSome = true ∧
          (mfind s.power.exiting d = none → ∀ q < 4, (quadOf u (4 * d + q)).clkMHz = 1200)) ∧
        u = { s.clock t with evt := u.evt, power := u.power, boot := u.boot, outbox := u.outbox }) ∧
    (∀ e, s.power.leaseEnd = some e → e ≤ max s.now t → s.mbx.headless = false → grantDue s e = false →
      Completes (.leaseExpire t) s fun u => (evtBit u 0 24).pend = true ∧ ButEvents { s.clock t with
        power := { s.power with
          leaseEnd := none, leaseExpired := true, ramp := some (max s.now t, s.power.sustained),
          minute := { s.power.minute with leaseExpired := true } } } u) ∧
    (boundaryDue (s.clock t) = true → minuteDue (s.clock t) = true → Gives (.minuteEnd t) s (endMinute (s.clock t)) ∧
      Completes (.minuteEnd t) s fun u => bits u.power.report 0 32 = (s.power.minute.number + 1) % 4294967296 ∧
        u.power.minute = { startNs := max s.now t, number := s.power.minute.number + 1 } ∧
        u = { s.clock t with power := { s.power with minute := u.power.minute, report := u.power.report } }) ∧
    (quadOn s q = true →
      ((quadOf s q).gated = false → quadIdle s q = true →
        Gives (.quadrantGate t q) s (setQuad (s.clock t) q { quadOf s q with gated := true })) ∧
      ((quadOf s q).gated = true → s.power.idle = false →
        Gives (.quadrantUngate t q) s (setQuad (s.clock t) q { quadOf s q with gated := false })))

/-- Rails, governor, clocks and droop (16 R376 to R378, R380, R382, R385, R388 to R392, R397): a bus reads its rails in turn;
the limiter's estimates pass through the fit, and a rail over its limits is throttled; the allowance follows the window, and
below the floor issue stops; a ceiling sets quadrants' targets; a change takes one step of 5 mV or 25 MHz in the order of R389
and not while stretched; trim, stretch and threshold change as their rules say; and 1 us of draw enters the counts. -/
def Obligations.RailsAndClocksAct : Prop :=
  ∀ (t bus mA q cy mv pm fits i : Nat) (raw shares db fb eff rs : List Nat) (s : State) (v : Quad) (rail : Rail), quadOf s q = v →
    (bus < 4 → hayOn s = true → rs = busRails bus → i = rs.getD (mget 0 s.power.avsNext bus % rs.length) 0 → railOf s i = rail →
      Completes (.avsCurrentRead t bus mA) s fun u =>
        railOf u i = { rail with reading := mA, sum := rail.sum + mA, n := rail.n + 1 } ∧
        mget 0 u.power.avsNext bus = (mget 0 s.power.avsNext bus + 1) % rs.length ∧ (∀ j, j ≠ i → railOf u j = railOf s j) ∧
        u = { s.clock t with power := { s.power with rails := u.power.rails, avsNext := u.power.avsNext } }) ∧
    (raw.length = 19 → s.boot.poweredOff = false → s.boot.stage.isSome = true → i < 19 → railOf s i = rail →
      Completes (.railLimiterUpdate t raw) s fun u =>
        (railOf u i).est = ((rail.g * (((raw.getD i 0 : Nat) : Rat) / 1000) + rail.o) :: rail.est).take 10000 ∧
        (limitedRail i = false → (railOf u i).pace = 16) ∧
        (i < 8 → ((quadOf u i).issueD < 16 ↔ (railLimits i).2 < ((railOf u i).est.take 100).sum / 100 ∨
          (railLimits i).1 < (railOf u i).est.sum / 10000)) ∧
        (∀ j, (quadOf u j).clkMHz = (quadOf s j).clkMHz) ∧ u = { s.clock t with power := u.power, freeCtr := u.freeCtr }) ∧
    (s.power.govAt + 10000 ≤ max s.now t → s.boot.poweredOff = false → s.boot.stage.isSome = true →
      Completes (.governorUpdate t) s fun u => u.power.allowance = allowanceOf s.power s.power.sustained ∧
        u.power.govAt = max s.now t ∧ ((lowest u).1 < floorW s → u.power.govD = 0 ∧ u.power.minute.belowFloor = true) ∧
        (floorW s ≤ (lowest u).1 → draw1us s ≤ (lowest u).1 → u.power.govD = 16) ∧
        (floorW s ≤ (lowest u).1 → (lowest u).1 < draw1us s → 1 ≤ u.power.govD ∧ u.power.govD ≤ 15)) ∧
    (s.power.ceilAt + 100000 ≤ max s.now t → hayOn s = true → i = wantedClock s q fits (eff.getD q 1500) →
      (Completes (.clockCeilingUpdate t fits eff) s fun u => u.power.ceilingMHz = max 600 (min 2100 (fits / 25 * 25)) ∧
        u.power.ceilAt = max s.now t ∧ (quadOn s q = false → quadOf u q = v)) ∧
      (quadOn s q = true → v.halved = false → v.stopped = false →
        (i < v.tgtMHz ∨ s.power.mode = 0 ∧ v.tgtMHz < i → Completes (.clockCeilingUpdate t fits eff) s fun u =>
          quadOf u q = { v with tgtMHz := i, tgtMV := quadSetpoint s q i, wantMHz := none }) ∧
        (s.power.mode ≠ 0 → v.tgtMHz < i → Completes (.clockCeilingUpdate t fits eff) s fun u =>
          quadOf u q = { v with wantMHz := some i }))) ∧
    (quadOn s q = true → hayOn s = true → v.stretched = false → v.stopped = false →
      v.frozenUntil = none ∨ v.frozenUntil = some i ∧ i ≤ max s.now t →
      (spaced v.lastVStep 2000 (max s.now t) = true →
        (v.clkMHz ≤ v.tgtMHz → v.mV < v.tgtMV → Gives (.vfStep t q) s ((setQuad (s.clock t) q
          { v with mV := min v.tgtMV (v.mV + 5), lastVStep := some (max s.now t) }).emit (.avsSet q (min v.tgtMV (v.mV + 5))))) ∧
        (v.clkMHz = v.tgtMHz → v.tgtMV < v.mV → Gives (.vfStep t q) s ((setQuad (s.clock t) q
          { v with mV := max v.tgtMV (v.mV - 5), lastVStep := some (max s.now t) }).emit (.avsSet q (max v.tgtMV (v.mV - 5)))))) ∧
      (spaced v.lastFStep 1000 (max s.now t) = true →
        (v.clkMHz < v.tgtMHz → v.tgtMV ≤ v.mV → Gives (.vfStep t q) s (setQuad (s.clock t) q
          { v with clkMHz := min v.tgtMHz (v.clkMHz + 25), lastFStep := some (max s.now t) })) ∧
        (v.tgtMHz < v.clkMHz → Gives (.vfStep t q) s (setQuad (s.clock t) q
          { v with clkMHz := max v.tgtMHz (v.clkMHz - 25), lastFStep := some (max s.now t) })))) ∧
    (quadOn s q = true → v.stretched = true → Gives (.vfStep t q) s (s.clock t)) ∧
    (boundaryDue (s.clock t) = true → trimDue (s.clock t) q = true → hayOn s = true → Completes (.ageingTrimUpdate t q) s fun u =>
      (quadOf u q).trim = (if v.leastSlack.isSome = true ∧ v.leastSlack.getD 0 < 60 then (if v.trim < 40 then v.trim + 5 else v.trim)
        else if v.leastSlack.isSome = true ∧ 100 < v.leastSlack.getD 0 ∧ v.easyPeriods = 9 then v.trim - 5 else v.trim) ∧
      (quadOf u q).maxMHz = (if v.leastSlack.isSome = true ∧ v.leastSlack.getD 0 < 60 ∧ 40 ≤ v.trim then max 600 (v.maxMHz - 25)
        else v.maxMHz) ∧ (quadOf u q).trimAt = max s.now t ∧ (quadOf u q).leastSlack = none ∧
      (∀ j, j ≠ q → quadOf u j = quadOf s j) ∧
      u = { s.clock t with power := { s.power with quads := u.power.quads } }) ∧
    (quadOn s q = true →
      (v.stretched = false → Completes (.droopDetect t q) s fun u =>
        quadOf u q = { v with stretched := true, stretches := v.stretches + 1, quietCycles := 0 } ∧
        u.power.minute = { s.power.minute with droops := s.power.minute.droops + 1 } ∧
        u = { s.clock t with power := { s.power with quads := u.power.quads, minute := u.power.minute } }) ∧
      (v.stretched = true → 32 ≤ cy → Gives (.droopRecover t q cy) s (setQuad (s.clock t) q
        { v with stretched := false, quietCycles := cy, frozenUntil := some (max s.now t + 1000) })) ∧
      (v.stretched = true → cy < 32 → Gives (.droopRecover t q cy) s (setQuad (s.clock t) q { v with quietCycles := cy })) ∧
      (v.droopAt + 1000000 ≤ max s.now t → Gives (.droopThresholdUpdate t q mv pm) s (setQuad (s.clock t) q { v with
        droopAt := max s.now t, droopMV := max 15 (min 50 (mv - 10)),
        leastSlack := if v.stretched = true then v.leastSlack
          else some (min (v.leastSlack.getD pm) pm) }))) ∧
    (s.power.tallyAt + 1000 ≤ max s.now t → s.boot.poweredOff = false → s.boot.stage.isSome = true →
      Completes (.tallyIntegrate t shares db fb) s fun u =>
        u.power.draws = (((List.range 19).map (railW s)).sum :: s.power.draws).take 1000 ∧
        mget 0 u.power.tally 4 = mget 0 s.power.tally 4 +
          (railW s 8 + railW s 9 + railW s 10 + railW s 12 + railW s 17 + railW s 18) / 1000 ∧
        u.power.minute.energyMJ = s.power.minute.energyMJ + ((List.range 19).map (railW s)).sum / 1000 ∧
        u.power.minute.shedNs = (if s.power.shedOn = true then s.power.minute.shedNs + 1000 else s.power.minute.shedNs) ∧
        u.power.tallyAt = max s.now t ∧ u = { s.clock t with power := u.power, freeCtr := u.freeCtr })

/-- Heat and coolant (17 R402 to R412, R415, Tables 17-2 to 17-5): a report is judged by its effective flow, its state and its
staged limit, and a missing one counts; a sample of every sensor is judged, each region answers its reading, and a spot at its
trip takes the response; 1 s below 0.50 enters Fallow, FLOW_OK low for more than 200 us stops the package, and the stop ends as
R409 says. -/
def Obligations.HeatAndFlowAct : Prop :=
  ∀ (t b : Nat) (temps : List Int) (a : MbxArgs) (s : State) (r : Req) (rep : FlowRep) (h : Heat), s.heat = h →
    (rep = { ml := r.f 0 16, inlet := sx 16 (r.f 16 16), at_ := max s.now t } →
      (28000 ≤ 10 * (rep.ml : Int) - 175 * max 0 (rep.inlet - 400) → judgeFlow rep = (0, none)) ∧
      (17500 ≤ 10 * (rep.ml : Int) - 175 * max 0 (rep.inlet - 400) → 10 * (rep.ml : Int) - 175 * max 0 (rep.inlet - 400) < 28000 →
        (judgeFlow rep).1 = 1 ∧ 960 ≤ (judgeFlow rep).2.getD 0 ∧ (judgeFlow rep).2.getD 0 < 2400) ∧
      (10 * (rep.ml : Int) - 175 * max 0 (rep.inlet - 400) < 17500 → judgeFlow rep = (2, some 960)) ∧
      (Accepts (s.clock t) a { opcode := 0x0507, rights := 4, pkg := .any, partUse := .pkg } {} r →
        (r.f 32 1 = 1 → Completes (.flowReport t a) s fun u => Replied u r 0 [] a.returnOk ∧
          u.heat = { h with
            lastReport := max s.now t, report := some rep, missRun := 0,
            belowSince := if flowHalf rep = true then none else some (h.belowSince.getD (max s.now t)),
            stagedLimit := if h.flowState = 3 ∨ h.flowState = 5 then h.stagedLimit else some (max s.now t, (judgeFlow rep).2),
            flowState := if h.flowState = 3 ∨ h.flowState = 5 then h.flowState else (judgeFlow rep).1 } ∧
          (h.flowState ∉ [3, 5, (judgeFlow rep).1] → (judgeFlow rep).1 ≠ 0 → (evtBit u 0 23).pend = true) ∧
          ButMail { s.clock t with heat := u.heat } u) ∧
        (r.f 32 1 = 0 → Completes (.flowReport t a) s fun u => Replied u r 0 [] a.returnOk ∧ u.heat.missRun = h.missRun + 1 ∧
          u.heat.lastReport = max s.now t ∧ u.heat.report = h.report ∧
          (4 ≤ h.missRun → h.flowState < 3 → u.heat.flowState = 4 ∧ u.heat.stagedLimit = some (max s.now t, some 960)) ∧
          (h.missRun < 4 ∨ 3 ≤ h.flowState ∧ h.flowState ≤ 5 → u.heat.flowState = h.flowState ∧ u.heat.stagedLimit = h.stagedLimit) ∧
          ButMail { s.clock t with heat := u.heat } u))) ∧
    (Accepts (s.clock t) a { opcode := 0x0508, rights := 5, pkg := .any, partUse := .pkg, resp := 32 } {} r →
      Answers (.thermalStatus t a) s r 0 (leBytes 32 (thermalRecord s)) a.returnOk (s.clock t)) ∧
    (hayOn s = true → h.lastReport + 150000000 ≤ max s.now t → Completes (.flowReportMissing t) s fun u =>
      u.heat.missRun = h.missRun + 1 ∧ u.heat.lastReport = h.lastReport + 150000000 ∧
      (4 ≤ h.missRun → h.flowState < 3 → u.heat.flowState = 4 ∧ u.heat.stagedLimit = some (max s.now t, some 960) ∧
        (evtBit u 0 23).pend = true) ∧ ButEvents { s.clock t with heat := u.heat } u) ∧
    (temps.length = 116 → h.sampledAt + 100000 ≤ max s.now t → s.boot.vrEn.getLsbD 2 = true → s.boot.poweredOff = false →
      Completes (.sensorSample t temps) s fun u =>
        (∀ k < 104, (mget {} u.heat.sensors k).hist = (temps.getD k 0 :: (mget {} h.sensors k).hist).take 11 ∧
          (implausible s (mget {} h.sensors k) (temps.getD k 0) = true → (mget {} u.heat.sensors k).quarantined = true)) ∧
        (∀ k < 12, (mget {} u.heat.sensors (104 + 2 * k)).hist =
          (temps.getD (104 + k) 0 :: (mget {} h.sensors (104 + 2 * k)).hist).take 11) ∧
        (∀ k < 21, mget {} u.heat.regions k = respond (max s.now t) k (regionReading u k) (regionHeld u k) (mget {} h.regions k)) ∧
        (∀ k < 8, (heatLimits k).1 ≤ (regionReading u k).getD 0 →
          (mget {} u.heat.regions k : Region).off = min 1500 ((mget {} h.regions k : Region).off + 25)) ∧
        (tripSpot u = none → u.heat.tripped = h.tripped ∧ u.heat.flowState = h.flowState ∧
          ButEvents { s.clock t with heat := u.heat, power := { s.power with minute := u.power.minute } } u) ∧
        ((tripSpot u).isSome = true → u.heat.tripped = true ∧ (h.tripped = false → u.heat.stopped = true ∧ u.boot.thermTripN = false ∧
          (evtBit u 0 1).pend = true ∧ ∀ k < 12, (stackOf u k).selfRefresh = true ∨ h.stopped = true))) ∧
    (h.belowSince = some b → b + 1000000000 ≤ max s.now t → hayOn s = true → s.boot.stage = some 8 → h.flowState ∉ [3, 5] →
      s.power.entering = [] → Completes (.flowFallow t) s fun u => u.heat.flowState = 3 ∧ u.power.byFlow = true ∧
        (∀ d < 2, d ∈ s.power.fallow ∨ mfind u.power.entering d = some (max s.now t)) ∧
        (∀ p < 4, p / 2 ∉ s.power.fallow → pstate s p ∈ [.running, .assigned, .fenced, .resetting] →
          pstate u p = .dormant ∧ (partOf u p).recorded = .fenced) ∧
        (∀ p < 4, p / 2 ∉ s.power.fallow → pstate s p = .failed → pstate u p = .failed) ∧ u.mem.spad = s.mem.spad) ∧
    (h.flowLowSince = some b → flowPin s = false → b + 200000 < max s.now t → s.boot.vrEn.getLsbD 0 = true → h.flowState ≠ 5 →
      s.faults.replays = [] → Completes (.flowStop t) s fun u => u.heat.flowState = 5 ∧
        u.heat.flowStops = satAdd max16 h.flowStops 1 ∧ (evtBit u 0 0).pend = true ∧ u.boot.pkgAlertN = false ∧
        (h.stopped = false → u.heat.stopped = true ∧ u.power.fallow = [0, 1] ∧ (∀ k < 12, (stackOf u k).selfRefresh = true) ∧
          u.boot.vrEn = s.boot.vrEn &&& 12 ∧ (∀ k < 71, (linkOf u k).state ∈ [.down, .disabled]) ∧
          (∀ p < 2, (portOf u p).linkUp = false) ∧ (∀ p < 4, pstate u p ∈ [.dormant, .failed, .winnowing]))) ∧
    (h.stopped = true → h.flowState = 5 → h.tripped = false → flowBack (s.clock t) = true → s.boot.stopped ≠ some 0x80 →
      Completes (.flowStopEnd t) s fun u => u.heat = { h with
          stopped := false, flowState := 3, stagedLimit := some (max s.now t, some 960) } ∧ u.power = s.power ∧ u.sess = s.sess ∧
        (evtBit u 0 23).pend = true) ∧
    (h.stopped = true → h.flowState = 5 → h.tripped = false → flowBack (s.clock t) = true → s.boot.stopped = some 0x80 →
      Completes (.flowStopEnd t) s fun u => u.heat.stopped = false ∧ u.heat.flowState = 0 ∧ u.boot.stage = some 3 ∧
        u.boot.testFull = true ∧ u.boot.stopped = none ∧ u.power.fallow = [] ∧ u.mem = s.mem)

/-- Power-up, resets, pins and stages S0 to S2 (14 R350; 18 R416 to R424, Tables 18-1 to 18-4; 22 R512): a power-up leaves the
reset state but for the stores and the fuses; COLD_RST_N low and a lost rail reset everything but the AON island and drop every
VR_EN; a pin's level passes its filter or counts as a glitch; each stage stores its report and starts the next, or stops
bring-up by its cause; and one past its limit stops with 0x8F. -/
def Obligations.BringUpBegins : Prop :=
  ∀ (t cy pin strap dv mv fa fb rail n k : Nat) (lv fuseOk pa pb : Bool) (f1 f2 : Option Nat) (s : State) (b : Boot), s.boot = b →
    Gives (.powerUp t) s { State.reset with
      now := max s.now t, powerUpAt := max s.now t, pending := s.pending, freeCtr := s.freeCtr, outbox := s.outbox, fuses := s.fuses,
      power := { minute := { startNs := max s.now t } },
      faults := { store := s.faults.store, nextSeq := s.faults.nextSeq, boot := s.faults.boot },
      fw := { slotA := s.fw.slotA, slotB := s.fw.slotB, recordSeq := s.fw.recordSeq } } ∧
    (100 ≤ cy → b.coldRstN = true → Completes (.coldReset t false cy) s fun u => u.boot.coldRstN = false ∧ u.boot.vrEn = 0 ∧
      u.boot.stage = none ∧ u.boot.bootStage = 0 ∧ u.boot.reports = b.reports ∧ u.boot.fullPassAt = b.fullPassAt ∧ u.sess = {} ∧
      u.mem = {} ∧ u.fab = {} ∧ u.host = {} ∧ u.tick = {} ∧ u.fuses = s.fuses ∧ u.faults.store = s.faults.store) ∧
    (100 ≤ cy → b.coldRstN = false → Completes (.coldReset t true cy) s fun u => u.boot.coldRstN = true ∧
      ((mget {} s.evt.pins 2).level = true → b.stage = none → b.stopped = none → b.pgLost = false →
        u.boot.stage = some 0 ∧ u.boot.bootStage = 0 ∧ u.boot.resetKind = b.nextKind ∧ u.boot.reports = [] ∧
        u.boot.stageStart = max s.now t) ∧
      ((mget {} s.evt.pins 2).level = false → u.boot = { b with coldRstN := true })) ∧
    (cy < 100 → Gives (.coldReset t lv cy) s (s.clock t)) ∧
    (pin < 3 → (mget {} s.evt.pins pin).level = !lv →
      (cy < cfg s (56 + pin) 4 → Gives (.pinFilterChange t pin lv cy) s { s.clock t with evt := { s.evt with
        pins := mset s.evt.pins pin { mget {} s.evt.pins pin with
          glitches := satAdd 1023 (mget {} s.evt.pins pin).glitches 1 } } }) ∧
      (cfg s (56 + pin) 4 ≤ cy →
        (Completes (.pinFilterChange t pin lv cy) s fun u => (mget {} u.evt.pins pin).level = lv ∧
          (b.poweredOff = false ∨ pin ≠ 2 ∨ lv = true → (evtBit u 0 (6 + pin)).pend = true)) ∧
        (pin = 1 → lv = false → Completes (.pinFilterChange t pin lv cy) s fun u => u.power.shedOn = true ∧
          (evtBit u 0 2).pend = true ∧ ∀ q < 8, quadOn s q = true → (quadOf u q).halved = true) ∧
        (pin = 1 → lv = true → s.power.shedOn = true → Completes (.pinFilterChange t pin lv cy) s fun u =>
          u.power.shedOn = true ∧ u.power.shedEnding = true) ∧
        (pin = 0 → lv = false → Completes (.pinFilterChange t pin lv cy) s fun u => u.heat.flowLowSince = some (max s.now t) ∧
          ButEvents { s.clock t with heat := u.heat } u) ∧
        (pin = 2 → lv = false → b.poweredOff = false → Completes (.pinFilterChange t pin lv cy) s fun u =>
          u.boot.vrEn = 0 ∧ u.sess = {} ∧ u.mem = {}))) ∧
    (inStage (s.clock t) 0 = true → mayRaise (s.clock t) = true → strap < 128 →
      Completes (.bringupS0 t strap fuseOk dv mv) s fun u => u.boot.posId = strap ∧ u.boot.holdupMv = mv ∧
        u.boot.holdupValid = (decide (1000 ≤ dv) && decide (dv ≤ 200000)) ∧
        (1000 ≤ dv → dv ≤ 200000 → u.boot.holdupUf = 100000000 / dv) ∧
        (strap < 72 → fuseOk = true → u.boot.stage = some 1 ∧ u.boot.bootStage = 1 ∧ u.boot.vrEn = 4 ∧
          (mfind u.boot.reports 0).map (fun r => (r.result, r.cause)) =
            some (if 1000 ≤ dv ∧ dv ≤ 200000 then (0, 0) else (1, 3))) ∧
        (72 ≤ strap ∨ fuseOk = false → u.boot.stopped = some (if 72 ≤ strap then 1 else 2) ∧ u.boot.bootStage = 15 ∧
          u.boot.pkgAlertN = false ∧ u.boot.vrEn = b.vrEn)) ∧
    (inStage (s.clock t) 1 = true → s.fw.fallback = false → s.fw.trial = none →
      (confirmedSlots s = [k] → slotFault s k [f1, f2] = none → Completes (.bringupS1 t f1 f2) s fun u =>
        u.fw.running = k ∧ u.fw.runningVersion = (slotOf s k).version ∧ u.boot.stage = some 2 ∧ u.sess = s.sess) ∧
      (confirmedSlots s = [k] → slotFault s k [f1, f2] = some n → Completes (.bringupS1 t f1 f2) s fun u =>
        u.boot.stopped = some 16 ∧ u.fw.toReject = [k] ∧ u.boot.bootStage = 15)) ∧
    (inStage (s.clock t) 2 = true →
      (pa = true ∨ pb = true → Completes (.bringupS2 t pa fa pb fb mv) s fun u => u.sess.pkg = some .bringup ∧
        u.tick.state = .acquiring ∧ u.tick.running = true ∧ u.heat.flowState = 4 ∧ u.boot.stage = some 3 ∧
        u.mbx.activeId = (if pa = true then 0 else 1) ∧ (hayOf u u.mbx.activeId).state = .active ∧
        (hayOf u (1 - u.mbx.activeId)).state = (if pa = true ∧ pb = true then .standby else .failed)) ∧
      (pa = false → pb = false → Completes (.bringupS2 t pa fa pb fb mv) s fun u => u.boot.stopped = some 32 ∧
        u.boot.grangerFailN = false ∧ u.sess.pkg = s.sess.pkg)) ∧
    (b.stage = some n → n ≤ 6 → b.stopped = none → s.mbx.headless = false → n ≠ 3 ∨ flowPin s = true →
      limitFrom s n + stageLimit n b.testFull < max s.now t → Completes (.stageLimitExpire t) s fun u =>
        u.boot.stopped = some 143 ∧ u.boot.bootStage = 15 ∧ u.boot.pkgAlertN = false ∧
        (mfind u.boot.reports n).map (fun r => (r.result, r.cause)) = some (2, 143)) ∧
    (railEnable rail = some n → b.vrEn.getLsbD n = true → 8 ≤ rail ∨ rail / 4 ∉ s.power.fallow → Completes (.railPgLoss t rail) s fun u =>
      u.boot.vrEn = 0 ∧ u.boot.pgLost = true ∧ u.boot.stage = none ∧ u.boot.bootStage = 15 ∧ u.boot.pkgAlertN = false ∧
      u.mem = {} ∧ u.sess = {})

/-- Stages S3 to S8 (18 R425 to R431, R435; 07 R181 to R183): each takes its inputs, degrades what failed, stores its report and
starts the next; the memory test's steps run at their times and end with every line 0; S8 enters UNCONFIGURED. -/
def Obligations.BringUpEnds : Prop :=
  ∀ (t d2d stk retries at_ : Nat) (bist trims tiles glns words peaks : List Nat) (frames degraded : List (Nat × Nat))
    (lanes : List LaneTrain) (margins : List Int) (other : Bool) (s : State) (m : MemTest),
    (inStage (s.clock t) 3 = true → flowPin s = true → mayRaise (s.clock t) = true → Completes (.bringupS3 t d2d stk) s fun u =>
      u.boot.vrEn = 15 ∧ u.boot.stage = some 4 ∧
      (∀ k < 12, (stackOf u k).linkUp = (bit stk k && bit d2d (k / 6)) ∧
        ((stackOf s k).failed = true ∨ bit stk k = false ∨ bit d2d (k / 6) = false → (stackOf u k).failed = true)) ∧
      (∀ p < 4, bit d2d (p / 2) = false ∨ (∃ k ∈ stacksOf p, bit stk k = false) → pstate u p = .failed) ∧
      (∀ q < 8, (quadOf u q).clkMHz = 1200)) ∧
    (inStage (s.clock t) 4 = true → Completes (.bringupS4 t bist trims) s fun u => u.boot.stage = some 5 ∧ u.boot.mapBuilt = true ∧
      (∀ k ∈ fuseTiles s, k ∈ u.boot.defective) ∧ (∀ k ∈ bist, k < 312 → k ∈ u.boot.defective) ∧
      (∀ k ∈ u.boot.defective, k ∈ fuseTiles s ∨ k ∈ bist) ∧
      (∀ q < 8, (quadOf u q).trim = min 40 (trims.getD q 0) ∧ (quadOf u q).clkMHz = (quadOf s q).clkMHz)) ∧
    (inStage (s.clock t) 5 = true →
      (other = false → Completes (.bringupS5 t retries tiles glns other) s fun u => u.boot.stage = some 6 ∧ u.tiles = [] ∧ u.cores = [] ∧
        (∀ k ∈ glns, k < 12 → (stackOf u k).failed = true) ∧ (∀ k ∈ tiles, k < 312 → k ∈ u.boot.defective)) ∧
      (other = true → Completes (.bringupS5 t retries tiles glns other) s fun u => u.boot.stopped = some 81 ∧ u.boot.bootStage = 15)) ∧
    (inStage (s.clock t) 6 = true →
      (s.memTest = none → s.boot.stageStart + 4000000000 ≤ max s.now t → Completes (.memoryTestStep t frames words) s fun u =>
        u.memTest = some { full := s.boot.testFull, start := max s.now t, step := 0 } ∧
        (∀ k < 12, (stackOf u k).retired = [] ∧ (stackOf u k).testMismatch = 0)) ∧
      (s.memTest = some m → (testStarts s.boot.testFull)[m.step + 1]? = some at_ → m.start + 1000000 * at_ ≤ max s.now t →
        Completes (.memoryTestStep t frames words) s fun u => u.memTest = some { m with step := m.step + 1 } ∧
          (∀ k < 12, (stackOf u k).testMismatch = satAdd max16 (stackOf s k).testMismatch (words.getD k 0) ∧
            (∀ e ∈ frames, e.1 = k → e.2 < framesPerStack s → e.2 ∈ (stackOf u k).retired)) ∧
          (m.step + 2 = (testStarts s.boot.testFull).length → u.mem.stk = [] ∧
            ∀ k < 12, (stackOf u k).bad = [] ∧ (stackOf u k).poisoned = []) ∧
          (m.step + 2 ≠ (testStarts s.boot.testFull).length → u.mem = s.mem)) ∧
      (s.memTest = some m → m.step + 1 = (testStarts s.boot.testFull).length → Completes (.bringupS6 t lanes degraded peaks) s fun u =>
        u.boot.stage = some 7 ∧ u.memTest = none ∧ u.boot.s6Unfinished = false ∧
        (∀ k < 12, (stackOf s k).failed = true ∨ 64 < (stackOf s k).retired.length ∨ (degraded.any (fun e => e.1 == k)) = true →
          (stackOf u k).failed = true) ∧
        (∀ k < 12, (stackOf s k).failed = false → (stackOf s k).retired.length ≤ 64 → (degraded.any (fun e => e.1 == k)) = false →
          (stackOf u k).failed = false ∧ (stackOf u k).trained = true) ∧
        (∀ k < 12, (stackOf u k).patrolPos = 0 ∧ (stackOf u k).patrolLevel = 0) ∧ u.mem = s.mem)) ∧
    (inStage (s.clock t) 7 = true → s.heat.stopped = false →
      (∀ k < 71, (linkOf s k).state ∈ [.up, .degraded, .miswired]) ∨ s.boot.stageStart + 12000000000 ≤ max s.now t →
      Completes (.bringupS7 t margins) s fun u => u.boot.stage = some 8 ∧ u.boot.bootStage = 8 ∧
        (mfind u.boot.reports 7).map (·.cause) = some (if (List.range 71).any (fun k => !(linkIs s .up k || linkIs s .degraded k)) = true then 112
          else if (margins.take 3).any (fun x => decide (x < 30)) = true then 113 else 0) ∧
        ((margins.take 3).any (fun x => decide (x < 30)) = true → (evtBit u 0 14).pend = true) ∧ u.fab.links = s.fab.links) ∧
    (s.boot.stage = some 8 → s.sess.pkg = some .bringup → s.boot.stopped = none → s.mbx.headless = false →
      Completes (.bringupS8 t) s fun u => u.sess = { s.sess with pkg := some .unconfigured } ∧
        u = { s.clock t with sess := u.sess, boot := { s.boot with reports := u.boot.reports } } ∧
        (mfind u.boot.reports 8).map (fun r => (r.result, r.cause)) = some (0, 0))

/-- Link keys (19 R453 to R455, R457): the initiator's HELLO and FINISH and the responder's REPLY go out in turn; a message
whole and in turn moves the agreement on, a refused peer fires the Hasp alarm and is tried again 1 s later, and the last message
fills epoch 0 at link UP and the free epoch at a rotation; a rotation, the encryption mode, and the old epoch's end follow their
rules. -/
def Obligations.LinkKeysAct : Prop :=
  ∀ (t n k flip o : Nat) (accept : Bool) (a : MbxArgs) (s s1 : State) (r : Req) (p : Pkt) (h : Nat) (pay : List Byte) (y : LinkKey),
    (keysReady s n = true → (linkOf s n).key = y →
      (y.retryAt = none → y.msg = 0 →
        (y.current = none ∧ lowerEnd s n = true) ∨ (y.rotation = true ∧ y.init = true ∧ y.both = false) →
        Gives (.keyXchgHello t false n accept flip) s (Settled t s
          (sendKeyMsg (setKey (s.clock t) n { y with msg := 1, init := true }) n 1))) ∧
      (y.init = false → y.msg = 1 → Gives (.keyXchgReply t false n accept) s (Settled t s
        (sendKeyMsg (setKey (s.clock t) n { y with msg := 2 }) n 2))) ∧
      (y.init = true → y.msg = 2 → Gives (.keyXchgFinish t false n accept) s (Settled t s
        (fillKeys (sendKeyMsg (s.clock t) n 3) n)))) ∧
    (Arrives (s.clock t) n 0x30 none p s1 h pay → n < 213 → k = n / 3 → o = hOperand h → (linkOf s1 k).key = y → bits o 4 8 = y.frags →
      (bit o 12 = false → bits o 0 4 = 1 → Gives (.keyXchgHello t true n accept flip) s (Settled t s
        (setKey s1 k { y with frags := y.frags + 1 }))) ∧
      (bit o 12 = true → bits o 0 4 = 1 →
        (if bit o 13 = true then y.current ≠ none ∧ y.both = false ∧ ¬(y.rotation = true ∧ y.init = true ∧ 1 ≤ y.msg ∧ lowerEnd s k = true)
          else lowerEnd s k = false ∧ y.current = none) →
        (accept = true → Gives (.keyXchgHello t true n accept flip) s (Settled t s (setKey s1 k { y with
          frags := 0, msg := 1, init := false, rotation := bit o 13, flipTick := if bit o 13 = true then flip else 0 }))) ∧
        (accept = false → Completes (.keyXchgHello t true n accept flip) s fun u => (evtBit u 0 5).pend = true ∧
          u.keys.alarms = satAdd max32 s.keys.alarms 1 ∧
          (linkOf u k).key = { y with
            frags := 0, msg := 0, retryAt := some (max s.now t + 1000000000), rotation := y.rotation && y.init })) ∧
      (bit o 12 = true → bits o 0 4 = 2 → y.init = true → y.msg = 1 → accept = true →
        Gives (.keyXchgReply t true n accept) s (Settled t s (setKey s1 k { y with frags := 0, msg := 2 }))) ∧
      (bit o 12 = true → bits o 0 4 = 3 → y.init = false → y.msg = 2 → accept = true →
        Completes (.keyXchgFinish t true n accept) s fun u => u.freeCtr = s1.freeCtr + 1 ∧
          (y.current = none → (linkOf u k).key = { y with
            frags := 0, msg := 0, init := false, retryAt := none, k0 := some s1.freeCtr, k1 := none, cur := 0, rotation := false }) ∧
          (y.current ≠ none → (linkOf u k).key = { y with
            frags := 0, msg := 0, init := false, retryAt := none, readyAt := some (max s.now t),
            k0 := if y.cur = 0 then y.k0 else some s1.freeCtr, k1 := if y.cur = 0 then some s1.freeCtr else y.k1 }))) ∧
    ((linkOf s k).key = y → y.retryAt = some o → o ≤ max s.now t →
      Gives (.keyXchgRetry t k) s (setKey (s.clock t) k { y with retryAt := none })) ∧
    ((linkOf s k).key = y → boundaryDue (s.clock t) = true → k < 71 → y.destroyIn = some 1 →
      Gives (.linkOldKeyDestroy t k) s (setKey (s.clock t) k { y with
        k0 := if y.cur = 0 then y.k0 else none, k1 := if y.cur = 0 then none else y.k1, destroyIn := none })) ∧
    (boundaryDue (s.clock t) = true → s.keys.graceTicks = 1 →
      Gives (.encGraceEnd t) s { s.clock t with keys := { s.keys with graceTicks := 0 } }) ∧
    (tickBad s (r.f 0 64) = false → tickWrong s (r.f 0 64) = false → s.sess.staged.length < 64 →
      (Accepts (s.clock t) a { opcode := 0x0804, rights := 1, pkg := .uc, partUse := .pkg, resp := 8 } {} r →
        Answers (.linkEncSet t a) s r 0 (leBytes 8 (commitTick (s.clock t) (r.f 0 64))) a.returnOk { s.clock t with
          sess := { s.sess with staged := s.sess.staged ++
            [⟨if r.f 0 64 = 0 then none else some (r.f 0 64), max s.now t, .linkEnc (r.f 64 1 == 1)⟩] } }) ∧
      (r.f 64 2 = 1 → r.part = 4 → r.tenant = false → s.keys.drbgFailed = false →
        (∀ k < 71, (linkOf s k).key.both = false ∧ (linkOf s k).key.rotation = false) →
        Accepts (s.clock t) a (rotateCmd none) {} r →
        Completes (.linkKeyRotate t a) s fun u => Replied u r 0 (leBytes 8 (commitTick (s.clock t) (r.f 0 64))) a.returnOk ∧
          (∀ k < 71, (linkOf u k).key = if live s k = true ∧ (linkOf s k).key.current ≠ none
            then { (linkOf s k).key with rotation := true, init := true, flipTick := r.f 0 64, msg := 0, frags := 0 }
            else (linkOf s k).key) ∧
          u.sess.staged = s.sess.staged ++ [⟨if r.f 0 64 = 0 then none else some (r.f 0 64), max s.now t, .linkKey⟩]) ∧
      (r.f 64 2 = 0 → r.part < 4 → (cellarOf s r.part).lent = true → (cellarOf s r.part).both = false → s.keys.drbgFailed = false →
        Accepts (s.clock t) a (rotateCmd (some [.assigned, .running])) {} r →
        Answers (.cellarKeyRotate t a) s r 0 (leBytes 8 (commitTick (s.clock t) (r.f 0 64))) a.returnOk { s.clock t with
          sess := { s.sess with staged := s.sess.staged ++
            [⟨if r.f 0 64 = 0 then none else some (r.f 0 64), max s.now t, .cellarKey r.part⟩] } }))

/-- The SPDM responder (12 R309; 19 R437, R440 to R444, R457): on a served function each request of the subset is answered by
its own response; an offer is good for one KEY_EXCHANGE, which a held session makes Busy; FINISH makes the credential live where
it is the path's own, and fires the Hasp alarm where it is not; a signed answer with every block attests a live session; a key
update keeps it; and END_SESSION ends it all. -/
def Obligations.SpdmAnswers : Prop :=
  ∀ (t f slot dig cred ek i : Nat) (index : Option Nat) (signed ins sigOk : Bool) (assoc : List (Nat × Nat)) (s : State) (v : Spdm),
    s.host.linkUp = true → f < 5 → spdmOf s f = v →
    Gives (.spdmGetVersion t f) s ((s.clock t).emit (.spdm f .version)) ∧
    Gives (.spdmGetCapabilities t f) s ((s.clock t).emit (.spdm f .capabilities)) ∧
    Gives (.spdmNegotiateAlgorithms t f) s ((s.clock t).emit (.spdm f .algorithms)) ∧
    Gives (.spdmGetDigests t f) s ((s.clock t).emit (.spdm f .digests)) ∧
    (slot = 0 → Gives (.spdmGetCertificate t f slot) s ((s.clock t).emit (.spdm f .certificate)) ∧
      Gives (.spdmChallenge t f slot) s ((s.clock t).emit (.spdm f .challengeAuth))) ∧
    (slot ≠ 0 → Gives (.spdmGetCertificate t f slot) s ((s.clock t).emit (.spdm f (.error .other))) ∧
      Gives (.spdmChallenge t f slot) s ((s.clock t).emit (.spdm f (.error .other)))) ∧
    (ins = false ∨ v.held = true → index = some i → Gives (.spdmGetMeasurements t f index signed ins) s
      ((s.clock t).emit (.spdm f (.measurements ((measureBlocks s f).filter (fun e => e.1 == i)) signed)))) ∧
    (ins = false ∨ v.held = true → index = none → Completes (.spdmGetMeasurements t f index signed ins) s fun u =>
      u = { s.clock t with keys := u.keys, freeCtr := s.freeCtr + 1, outbox := u.outbox } ∧
      (signed = false → u.outbox = .spdm f (.measurements (measureBlocks s f) false) :: s.outbox) ∧
      (signed = true → u.outbox = .spdm f (.measurements (measureBlocks s f ++ [(0xF0, [Config.choice s.freeCtr 0xF0])]) true) :: s.outbox) ∧
      ((spdmOf u f).attested = (v.attested || (signed && ins && v.live))) ∧ (∀ g, g ≠ f → spdmOf u g = spdmOf s g)) ∧
    (s.keys.drbgFailed = false → Completes (.spdmKemOffer t f ek) s fun u => (spdmOf u f).offer.isSome = true ∧
      spdmOf u f = { v with offer := (spdmOf u f).offer } ∧
      u = { s.clock t with keys := u.keys, freeCtr := s.freeCtr + 1, outbox := u.outbox }) ∧
    (v.held = true ∨ 1 ≤ f ∧ pstate s (f - 1) = .winnowing → Gives (.spdmKeyExchange t f dig) s
      ((setSpdm (s.clock t) f { v with offer := none }).emit (.spdm f (.error .busy)))) ∧
    (v.held = false → f = 0 ∨ pstate s (f - 1) ≠ .winnowing →
      (v.offer ≠ some dig → Gives (.spdmKeyExchange t f dig) s
        ((setSpdm (s.clock t) f { v with offer := none }).emit (.spdm f (.error .invalidRequest)))) ∧
      (v.offer = some dig → s.keys.drbgFailed = false → Gives (.spdmKeyExchange t f dig) s
        ((setSpdm (s.clock t) f { held := true }).emit (.spdm f .keyExchangeRsp)))) ∧
    (v.held = true → v.live = false →
      (sigOk = true → (if f = 0 then s.fuses.anchor else (partOf s (f - 1)).bind) = some cred →
        Gives (.spdmFinish t f cred sigOk) s ((setSpdm (s.clock t) f { v with live := true }).emit (.spdm f .finishRsp))) ∧
      (sigOk = false ∨ (if f = 0 then s.fuses.anchor else (partOf s (f - 1)).bind) ≠ some cred →
        Completes (.spdmFinish t f cred sigOk) s fun u => spdmOf u f = {} ∧ u.keys.alarms = satAdd max32 s.keys.alarms 1 ∧
          (evtBit u 0 5).pend = true ∧ ButEvents { s.clock t with keys := u.keys } u)) ∧
    (v.live = true →
      Gives (.spdmKeyUpdate t f) s ((setSpdm (s.clock t) f { v with epoch := v.epoch + 1 }).emit (.spdm f .keyUpdateAck)) ∧
      Gives (.spdmHeartbeat t f) s ((s.clock t).emit (.spdm f .heartbeatAck)) ∧
      (1 ≤ f → slot < 2 → assoc.length ≤ 2 → Gives (.ideKmKeyProg t f slot assoc) s
        ((setIde (s.clock t) f slot { secure := true, keySet := true, failed := false, assoc := assoc }).emit (.spdm f .keyProgAck)))) ∧
    (f = 0 → Gives (.ideKmKeyProg t f slot assoc) s ((s.clock t).emit (.spdm f (.error .unsupportedRequest)))) ∧
    (v.held = true → Completes (.spdmEndSession t f) s fun u => spdmOf u f = {} ∧ u.outbox = .spdm f .endSessionAck :: s.outbox ∧
      (∀ g, g ≠ f → spdmOf u g = spdmOf s g) ∧ u = { s.clock t with keys := { s.keys with spdm := u.keys.spdm }, outbox := u.outbox })

/-- Credentials, model keys, bales, the Cellar's rotation, the key record and the Hasp's tests (19 R438, R446 to R452, R456,
R457): accepted with each row's own conditions met, a claim burns the anchor, a binding holds for every partition of the
session, a key is released only to an attested session whose policy allows it, a bale is in flight and ends with its plaintext
or with zeros; the walk rekeys a sector or poisons it; and the Hasp's alarms count. -/
def Obligations.KeysAndBalesAct : Prop :=
  ∀ (t key g p m seq dst len : Nat) (tagOk good on rok : Bool) (bs : List Byte) (mi : MemIn) (a : MbxArgs) (s : State) (r : Req)
    (b : Nat × Buf) (c : Cellar) (e : Nat × Sector) (f : InFlight),
    (r.mb = 0 → s.fuses.anchor = none →
      Accepts (s.clock t) a { opcode := 0x0800, rights := 1, pkg := .u, partUse := .pkg, lenOk := (· == 48) } {} r →
      Completes (.ownerClaim t a) s fun u => Replied u r 0 [] a.returnOk ∧ u.fuses = { s.fuses with anchor := some (leNat r.payload) } ∧
        .fuseBurn 0 (leNat r.payload) ∈ u.outbox ∧ ButMail { s.clock t with fuses := u.fuses } u) ∧
    ((partOf s r.part).bind = none → Accepts (s.clock t) a
        { opcode := 0x0801, rights := 1, pkg := .uc, partUse := .one, parts := some [.assigned], lenOk := (· == 48) } {} r →
      Completes (.tenantBind t a) s fun u => Replied u r 0 [] a.returnOk ∧
        (∀ q, partOf u q = if q ∈ sessionParts s r.part then { partOf s q with bind := some (leNat r.payload) } else partOf s q) ∧
        ButMail { s.clock t with sess := { s.sess with parts := u.sess.parts } } u) ∧
    (leNat (r.payload.take 4) ≠ 0 → Accepts (s.clock t) a { opcode := 0x0802, rights := 2, pkg := .c, partUse := .one, parts := some [.assigned, .running], lenOk := fun n => 64 ≤ n && n ≤ 4096 && (n - 64) % 48 == 0 } {} r →
      ((spdmOf s (r.part + 1)).live = false ∨ (spdmOf s (r.part + 1)).attested = false ∨ tagOk = false ∨
          policyOk s r.payload = false → Answers (.modelKeyRelease t a key tagOk) s r 0x60 [] a.returnOk (s.clock t)) ∧
      ((spdmOf s (r.part + 1)).live = true → (spdmOf s (r.part + 1)).attested = true → tagOk = true → policyOk s r.payload = true →
        (slotFor s r.part (leNat (r.payload.take 4)) = none →
          Answers (.modelKeyRelease t a key tagOk) s r 0x31 [] a.returnOk (s.clock t)) ∧
        (slotFor s r.part (leNat (r.payload.take 4)) = some g → Answers (.modelKeyRelease t a key tagOk) s r 0 [] a.returnOk
          { s.clock t with keys := { s.keys with
            model := mset s.keys.model g (leNat (r.payload.take 4), key % 2 ^ 256) } }))) ∧
    (g = leNat (r.payload.take 64) → bufOf s (sessionOf s r.part) (r.f 0 32) = some b → r.ploc = 2 → 64 ≤ r.len → bits g 32 32 ≠ 0 →
      1 ≤ bits g 64 32 → bits g 64 32 ≤ 65536 → bits g 160 64 = 65536 * (bits g 32 32 - 1) + bits g 64 32 →
      r.len = 64 + bits g 160 64 + 16 * bits g 32 32 → r.f 64 64 + bits g 160 64 ≤ b.2.size →
      (slotOfKey s r.part (bits g 0 32)).isSome = true →
      Accepts (s.clock t) a { opcode := 0x0803, rights := 2, pkg := .c, partUse := .one, parts := some [.assigned, .running], lenOk := fun _ => true } {} r →
      Starts (.baleLoad t a) s r (.baleLoad (b.2.base + r.f 64 64) (bits g 160 64)) (s.clock t)) ∧
    (s.mbx.flight.find? (fun f => f.mb == m && f.seq == seq) = some f → f.kind = .baleLoad dst len → serving s = true →
      rangeReady (s.clock t) dst len = true →
      (bs.length = len → Completes (.baleLoadComplete t m seq (some bs) mi rok) s fun u =>
        u.mbx.flight = s.mbx.flight.erase f ∧
        ButMail (Settled t s (maWrite (s.clock t) 2 dst bs mi).1) u) ∧
      Completes (.baleLoadComplete t m seq none mi rok) s fun u =>
        u.mbx.flight = s.mbx.flight.erase f ∧
        ButMail (Settled t s (maWrite (s.clock t) 2 dst (List.replicate len 0) mi).1) u) ∧
    (p < 4 → cellarOf s p = c → c.walk = some m → c.both = true → canMaster s (p + 1) = true →
      (c.table.find? (fun e => decide (m ≤ e.1) && underOld c e && !c.buf.any (fun b => b.sector == e.1 && b.dirty)) = some e →
        (good = true → Completes (.cellarRekeyWalk t p good) s fun u =>
          cellarOf u p = { c with
            walk := some (e.1 + 1), table := mset c.table e.1 { e.2 with epoch := c.cur, count := 0 } } ∧
          u = { s.clock t with cellars := u.cellars, outbox := u.outbox }) ∧
        (good = false → Completes (.cellarRekeyWalk t p good) s fun u =>
          cellarOf u p = { c with walk := some (e.1 + 1), table := mset c.table e.1 { e.2 with poisoned := true } } ∧
          u = { s.clock t with cellars := u.cellars, outbox := u.outbox })) ∧
      (oldSectors c = 0 → Gives (.cellarRekeyWalk t p good) s
        (setCellar (s.clock t) p { c with walk := none, destroyIn := some 2 }))) ∧
    (p < 4 → cellarOf s p = c → boundaryDue (s.clock t) = true → c.destroyIn = some 1 → Gives (.cellarOldKeyDestroy t p) s
      (setCellar (s.clock t) p { c with
        k0 := if c.cur = 0 then c.k0 else none, k1 := if c.cur = 0 then none else c.k1, destroyIn := none })) ∧
    (Accepts (s.clock t) a { opcode := 0x0806, rights := 3, pkg := .any, partUse := .pkg, resp := 32 } {} r →
      Answers (.keyStatus t a) s r 0 (leBytes 32 (keyRecord s r)) a.returnOk (s.clock t)) ∧
    (Completes (.drbgHealthFail t) s fun u => (evtBit u 0 5).pend = true ∧ ButEvents { s.clock t with
      keys := { s.keys with drbgFailed := true, alarms := satAdd max32 s.keys.alarms 1 } } u) ∧
    (on = false → Gives (.tapExtest t on) s { s.clock t with boot := { s.boot with extest := false } }) ∧
    (on = true → (∀ p < 4, pstate s p = .free) → Gives (.tapExtest t on) s { s.clock t with boot := { s.boot with extest := true } }) ∧
    (on = true → p < 4 → pstate s p ≠ .free → Completes (.tapExtest t on) s fun u => u.boot.extest = false ∧
      u.keys.alarms = satAdd max32 s.keys.alarms 1 ∧ (evtBit u 0 5).pend = true)

/-- Hang detection (20 R463, R464; 02 R51; 04 R94; 05 R134): at a boundary that is due, a detector that fires for a RUNNING or
ASSIGNED partition fences it, with the lowest code among the detectors that fired as the cause and the first hung unit of Table
20-2's order recorded; for a partition in any other state nothing happens. The end of a fence (20 R466, R471, R474; 19 R458): at
the drain's end a Winnow's fence is gone and its keys destroyed, one for flow Fallow is gone, one that can take no sample is
complete, and any other waits for its sample; FLIGHT_SAMPLE_STORE stores the sample of the fence, completes the fence and logs
it. -/
def Obligations.FencesBeginAndEnd : Prop :=
  (∀ (t p c u i ch : Nat) (s : State) (x : Instr), boundaryDue (s.clock t) = true → p < 4 →
    (x = .sheafHung t p ∧ sheafHung s p = true ∨
      x = .sequencerWatchdog t c ∧ c < 1152 ∧ partOfCore c = p ∧ queueHung (coreOf s c) = true ∨
      x = .engineStall t u i ∧ u ∈ [1, 2, 3, 5, 6] ∧ i < 288 ∧ partOfTile i = p ∧ unitHung (s.clock t) i u = true ∨
      x = .engineStall t 7 i ∧ i < 12 ∧ partOfStack i = p ∧ glnHung s i = true ∨
      x = .wainStall t ch ∧ ch < 1024 ∧ partOfChan ch = p ∧ chanHung s ch = true) →
    (pstate s p ≠ .running → pstate s p ≠ .assigned → Gives x s (s.clock t)) ∧
    (pstate s p = .running ∨ pstate s p = .assigned → Completes x s fun v => pstate v p = .fenced ∧
      ∃ f, fenceOf v p = some f ∧ f.start = max s.now t ∧
        f.cause = (if hungQueues (s.clock t) p ≠ [] then 1
          else if hungUnits (s.clock t) p ≠ [] ∨ hungGlns (s.clock t) p ≠ [] then 2
          else if hungChans (s.clock t) p ≠ [] then 3 else 4) ∧
        (f.hungKind, f.hungIndex) = hungUnit (s.clock t) p)) ∧
  (∀ (t p : Nat) (s : State) (f : Fence), p < 4 → fenceOf s p = some f →
    (f.drainEnd = none → f.start + 100000 ≤ max s.now t → (cellarOf s p).buf.any (·.dirty) = false →
      (f.cause = 8 → Completes (.fenceDrainEnd t p) s fun u =>
        fenceOf u p = none ∧ cellarOf u p = {} ∧ (∀ e ∈ u.keys.model, e.1 / 4 ≠ p) ∧ u.mem.stk = s.mem.stk) ∧
      (f.cause = 9 → Completes (.fenceDrainEnd t p) s fun u => fenceOf u p = none ∧ u.mem.stk = s.mem.stk) ∧
      (f.cause ≠ 8 → f.cause ≠ 9 → s.mbx.headless = false → workingStack s p ≠ none →
        Completes (.fenceDrainEnd t p) s fun u =>
          fenceOf u p = some { f with drainEnd := some (max s.now t) } ∧ pstate u p = pstate s p) ∧
      (f.cause ≠ 8 → f.cause ≠ 9 → s.mbx.headless = true ∨ workingStack s p = none →
        (∀ x ∈ s.mbx.flight, x.kind ≠ .partReset) → Completes (.fenceDrainEnd t p) s fun u =>
          fenceOf u p = some { f with drainEnd := some (max s.now t), complete := true })) ∧
    (f.drainEnd ≠ none → f.complete = false → serving s = true → (∀ x ∈ s.mbx.flight, x.kind ≠ .partReset) →
      Completes (.flightSampleStore t p) s fun u =>
        mfind u.faults.samples p = some (buildSample s p f) ∧ fenceOf u p = some { f with complete := true } ∧
        (∃ e ∈ u.faults.buffer, e.type = 0x02 ∧ e.part = p) ∧ u.mem.stk = s.mem.stk ∧ u.tiles = s.tiles))

/-- Suspect replay (20 R475 to R477): REPLAY of a FENCED partition with a sample is in flight with its first suspect pushed; a
suspect that has hung again or ended gives way to the next; the end posts the result, logs it, and removes the replay. The
diagnostic commands (15 Table 15-20; 20 R468, R471, R489; 10 R267): accepted, they answer the log's image, the sample's bytes
and the captures with the class counts, which clear; JOB_ABORT acts on the domain and sends its ABORTs; a flush writes the
buffered entries to the store once the energy check passes, and holds them where it fails. -/
def Obligations.ReplayAndDiagnosticsAct : Prop :=
  (∀ (t p : Nat) (a : MbxArgs) (s : State) (r : Req) (m : Sample) (v : Replay) (e : Nat × Nat),
    (1 ≤ r.f 0 16 → r.f 0 16 ≤ 10000 → mfind s.faults.samples r.part = some m →
      (fenceOf s r.part).map (·.complete) = some true → replaying s r.part = false →
      Accepts (s.clock t) a
        { opcode := 0x0902, rights := 3, pkg := .uc, partUse := .one, parts := some [.fenced], resp := 8 } {} r →
      v = { suspects := suspectsOf r.part m, ms := r.f 0 16, startedAt := max s.now t } →
      Starts (.replay t a) s r .replay (Settled t s (nextSuspect
        (setReplay (resetUnits (take (s.clock t) a.mb) r.part) r.part v) r.part v v.suspects))) ∧
    (mfind s.faults.replays p = some v → v.suspects[v.next]? = some e →
      (suspectEnded (s.clock t) p e = true → Gives (.replaySuspectTimeout t p) s (Settled t s
        (nextSuspect (resetUnits (s.clock t) p) p { v with next := v.next + 1 } (v.suspects.drop (v.next + 1))))) ∧
      (suspectEnded (s.clock t) p e = false → v.startedAt + 1000000 * v.ms ≤ max s.now t →
        Gives (.replaySuspectTimeout t p) s (Settled t s (nextSuspect (resetUnits (s.clock t) p) p
          { v with next := v.next + 1, hung := v.hung ++ [v.next] } (v.suspects.drop (v.next + 1)))))) ∧
    (mfind s.faults.replays p = some v → v.suspects.length ≤ v.next → Completes (.replayComplete t p) s fun u =>
      replaying u p = false ∧ (∃ x ∈ u.faults.buffer, x.type = 0x04 ∧ x.part = p ∧ x.data = [replayResult v]) ∧
      ButMail { Settled t s (resetUnits s p) with faults := u.faults } u)) ∧
  (∀ (t mv : Nat) (a : MbxArgs) (s : State) (r : Req) (m : Sample) (n : Nat),
    (n = min (min r.respMax (if r.ploc = 0 ∧ r.mb ≠ 5 then 32 else if r.ploc = 1 then 4096 else 2 ^ 28 - 1))
        (64 + 64 * s.faults.store.length - r.f 0 32) →
      Accepts (s.clock t) a { opcode := 0x0900, rights := 1, pkg := .any, partUse := .pkg } { resp := some n } r →
      Answers (.faultLogRead t a) s r 0 (logImage s (r.f 0 32) n) a.returnOk (s.clock t)) ∧
    (mfind s.faults.samples r.part = some m →
      n = min (min r.respMax (if r.ploc = 0 ∧ r.mb ≠ 5 then 32 else if r.ploc = 1 then 4096 else 2 ^ 28 - 1))
        ((sampleOffsets m).2.2.2 - r.f 0 32) →
      Accepts (s.clock t) a { opcode := 0x0901, rights := 3, pkg := .uc, partUse := .one, parts := some [.assigned, .running, .fenced, .failed, .dormant] } { resp := some n } r →
      Answers (.flightSampleRead t a) s r 0 ((span (r.f 0 32) n).map (sampleByte r.part m)) a.returnOk (s.clock t)) ∧
    (Accepts (s.clock t) a { opcode := 0x0903, rights := 1, pkg := .any, partUse := .pkg, resp := 12352 } {} r →
      Answers (.violationRead t a) s r 0 (fit 12352 (fit 64 ((List.range 9).flatMap (fun c => leBytes 4 (mget 0 s.fab.classes (c + 1)))) ++
        s.fab.captures.flatMap (fun c => leBytes 32 c.hdr ++ leBytes 4 c.link ++ leBytes 4 c.cls ++ leBytes 8 c.tick))) a.returnOk
        { s.clock t with fab := { s.fab with classes := [] } }) ∧
    (r.f 0 16 ≠ 0 → (r.tenant = true → r.f 0 16 ∈ (partOf s r.part).jobs) →
      Accepts (s.clock t) a { opcode := 0x0904, rights := 3, pkg := .c, partUse := .free } {} r →
      Answers (.jobAbort t a) s r 0 [] a.returnOk (Settled t s
        (let o : Origin := { ownOrigin s (if r.op then 0 else r.part) with operator := r.op }
         actOnAbort (sendAbort (take (s.clock t) a.mb) (r.f 0 16) 7 o) (r.f 0 16) 7 o))) ∧
    (serving s = true → s.faults.buffer ≠ [] → s.fw.heldOp = none →
      s.faults.store.length + s.faults.buffer.length ≤ 262144 →
      (energyOk s mv programMJ = true → Gives (.faultLogFlush t mv) s { s.clock t with faults := { s.faults with
        store := s.faults.store ++ s.faults.buffer, buffer := [] } }) ∧
      (energyOk s mv programMJ = false → Completes (.faultLogFlush t mv) s fun u => u.faults.store = s.faults.store ∧
        u.fw = { s.fw with heldOp := some (2, max s.now t, max s.now t) } ∧ ∃ e ∈ u.faults.buffer, e.type = 0x67)))

/-- Staging a bundle (21 R494 to R496, R502, R503; 15 Table 15-17): an accepted FW_STAGE of an older bundle is ROLLBACK_REFUSED,
and any other is in flight with UPDATE_STATE 1 and its first operation begun, the slot EMPTY, or held where the energy check
fails; each operation's end begins the next; a complete bundle that reads back is STAGED, a failed fetch or read-back leaves the
slot EMPTY; and a held operation is checked again every 100 ms, begins once it passes, and after 10 s fails by its writer's
rule. -/
def Obligations.FirmwareStages : Prop :=
  ∀ (t mv n h k what since last : Nat) (burnOk : Bool) (a : MbxArgs) (s : State) (r : Req),
    h = leNat (r.payload.take 512) → k = 1 - s.fw.running →
    (r.ploc = 2 ∨ r.mb = 5 → headerBad h r.len = false → r.len ≤ 50331648 →
      s.fw.updateState ≠ 1 → s.fw.updateState ≠ 3 → s.fw.updateState ≠ 4 →
      Accepts (s.clock t) a { opcode := 0x0A00, rights := 1, pkg := .uc, partUse := .pkg, lenOk := fun _ => true } {} r →
      (bits h 40 8 < s.fuses.secCounter ∨ bits h 64 32 < s.fw.runningVersion →
        Answers (.fwStage t a mv) s r 0x61 [] a.returnOk (s.clock t)) ∧
      (s.fuses.secCounter ≤ bits h 40 8 → s.fw.runningVersion ≤ bits h 64 32 →
        (energyOk s mv 4000 = true → Completes (.fwStage t a mv) s fun u => (slotOf u k).state = .empty ∧
          slotOf u (1 - k) = slotOf s (1 - k) ∧ u.fw.updateState = 1 ∧ u.fw.norOp = decide (0 < r.len)) ∧
        Starts (.fwStage t a mv) s r .fwStage (stageOp { s.clock t with
          fw := { s.fw with
            updateState := 1, stagedSec := bits h 40 8, stagedVersion := bits h 64 32, stagedBytes := 0, stagedLen := r.len } } mv 4000))) ∧
    (s.fw.norOp = true → serving s = true → n ≤ 256 →
      (s.fw.stagedLen ≤ s.fw.stagedBytes + n → Gives (.norOpComplete t n mv) s
        { s.clock t with fw := { s.fw with stagedBytes := s.fw.stagedLen, norOp := false } }) ∧
      (s.fw.stagedBytes + n < s.fw.stagedLen → (slotOf s k).state = .empty →
        (energyOk s mv (if s.fw.stagedBytes + n = 0 then 4000 else 12) = true → Gives (.norOpComplete t n mv) s
          { s.clock t with fw := { s.fw with stagedBytes := s.fw.stagedBytes + n, heldOp := none } }) ∧
        (energyOk s mv (if s.fw.stagedBytes + n = 0 then 4000 else 12) = false → s.fw.heldOp = none →
          Completes (.norOpComplete t n mv) s fun u =>
            u.fw = { s.fw with stagedBytes := s.fw.stagedBytes + n, norOp := false, heldOp := some (0, max s.now t, max s.now t) } ∧
            (evtBit u 0 3).pend = true ∧ ∃ e ∈ u.faults.buffer, e.type = 0x67 ∧ e.part = 4))) ∧
    (serving s = true → s.fw.updateState = 1 → (∃ f ∈ s.mbx.flight, f.kind = .fwStage) →
      (Completes (.fwStageComplete t 1 mv burnOk) s fun u => (slotOf u k).state = .empty ∧ slotOf u (1 - k) = slotOf s (1 - k) ∧
        u.fw.updateState = 0 ∧ ∃ e ∈ u.faults.buffer, e.type = 0x61 ∧ e.part = 4 ∧ e.data = [k, 0x40, s.fw.stagedBytes]) ∧
      (s.fw.stagedLen ≤ s.fw.stagedBytes → s.fw.heldOp = none →
        (Completes (.fwStageComplete t 2 mv burnOk) s fun u => (slotOf u k).state = .empty ∧ slotOf u (1 - k) = slotOf s (1 - k) ∧
          u.fw.updateState = 0 ∧ ∃ e ∈ u.faults.buffer, e.type = 0x61 ∧ e.part = 4 ∧ e.data = [k, 0x50, s.fw.stagedBytes]) ∧
        (energyOk s mv 4000 = true → Completes (.fwStageComplete t 0 mv burnOk) s fun u =>
          slotOf u k = { state := .staged, version := s.fw.stagedVersion, secVersion := s.fw.stagedSec } ∧
          slotOf u (1 - k) = slotOf s (1 - k) ∧ u.fw.updateState = 2 ∧ u.fw.recordSeq = s.fw.recordSeq + 1 ∧
          (∃ e ∈ u.faults.buffer, e.type = 0x60 ∧ e.part = 4 ∧ e.data = [s.fw.stagedVersion, s.fw.stagedSec, k]) ∧
          ButMail { s.clock t with fw := u.fw, faults := u.faults } u))) ∧
    (s.fw.heldOp = some (what, since, last) → last + 100000000 ≤ max s.now t → serving s = true →
      (energyOk s mv (heldNeed s what) = true → Gives (.holdupEnergyRecheck t mv burnOk) s
        (Settled t s (heldStarts (s.clock t) what mv burnOk))) ∧
      (energyOk s mv (heldNeed s what) = false → max s.now t < since + 10000000000 →
        Completes (.holdupEnergyRecheck t mv burnOk) s fun u => u.fw = { s.fw with heldOp := some (what, since, max s.now t) } ∧
          (evtBit u 0 3).pend = true ∧ (∃ e ∈ u.faults.buffer, e.type = 0x67) ∧
          ButEvents { s.clock t with fw := u.fw, faults := u.faults } u) ∧
      (energyOk s mv (heldNeed s what) = false → since + 10000000000 ≤ max s.now t →
        Completes (.holdupEnergyRecheck t mv burnOk) s fun u => u.fw.heldOp = none ∧ (evtBit u 0 3).pend = true ∧
          (what = 0 → (slotOf u k).state = .empty ∧ u.fw.updateState = 0) ∧ (what ≠ 0 → u.fw = { s.fw with heldOp := none })))

/-- Activation, confirmation and fallback (21 R497 to R503; 15 Tables 15-17, 15-18): FW_ACTIVATE stages the switch and
UPDATE_STATE becomes 3; FW_CANCEL takes it back; the activation holds the target and the window in the AON island and resets
every other block; CONFIRM_HEALTH writes CONFIRMED, closes the window and raises the counter; a window that closes sets the
fallback flag and resets; and FW_STATUS reports. -/
def Obligations.FirmwareSwitches : Prop :=
  ∀ (t mv k : Nat) (burnOk : Bool) (a : MbxArgs) (s : State) (r : Req), k = 1 - s.fw.running →
    (s.fw.updateState = 2 → tickBad (s.clock t) (r.f 0 64) = false → tickWrong (s.clock t) (r.f 0 64) = false →
      s.sess.staged.length < 64 →
      Accepts (s.clock t) a { opcode := 0x0A01, rights := 1, pkg := .c, partUse := .pkg, resp := 8 } {} r →
      Answers (.fwActivate t a) s r 0 (leBytes 8 (commitTick (s.clock t) (r.f 0 64))) a.returnOk { s.clock t with
        fw := { s.fw with updateState := 3, activateTick := r.f 0 64 },
        sess := { s.sess with staged := s.sess.staged ++ [⟨if r.f 0 64 = 0 then none else some (r.f 0 64), max s.now t, .fwActivate⟩] } }) ∧
    (s.fw.updateState = 3 →
      (activationNear (s.clock t) = false → Accepts (s.clock t) a { opcode := 0x0A02, rights := 1, pkg := .uc, partUse := .pkg } {} r →
        Completes (.fwCancel t a) s fun u => Replied u r 0 [] a.returnOk ∧
          u.fw = { s.fw with updateState := 2, activateTick := 0 } ∧ (∀ c ∈ u.sess.staged, c.change ≠ .fwActivate) ∧
          (∀ c ∈ s.sess.staged, c.change ≠ .fwActivate → c ∈ u.sess.staged) ∧
          (∃ e ∈ u.faults.buffer, e.type = 0x68 ∧ e.part = 4 ∧ e.data = [s.fw.activateTick]) ∧
          ButMail { s.clock t with fw := u.fw, faults := u.faults, sess := { s.sess with staged := u.sess.staged } } u) ∧
      (activationNear (s.clock t) = true → Accepts (s.clock t) a { opcode := 0x0A02, rights := 1, pkg := .uc, partUse := .pkg } {} r →
        Answers (.fwCancel t a) s r 0x21 [] a.returnOk (s.clock t))) ∧
    ((activate s).fw.trial = some k ∧ (activate s).fw.windowEnd = some (s.now + 60000000000 * cfg s 0x70 4) ∧
      (activate s).fw.slotA = s.fw.slotA ∧ (activate s).fw.slotB = s.fw.slotB ∧ (activate s).boot.vrEn = 0 ∧
      (activate s).sess = {} ∧ (activate s).mem = {} ∧ (activate s).fab = {} ∧ (activate s).place = {} ∧
      (∃ e ∈ (activate s).faults.buffer, e.type = 0x62 ∧ e.data = [s.tick.count.toNat, k, cfg s 0x70 4]) ∧
      ((mget {} s.evt.pins 2).level = true → s.boot.coldRstN = true → s.boot.pgLost = false →
        (activate s).boot.stage = some 0 ∧ (activate s).boot.resetKind = 2)) ∧
    (s.fw.trial ≠ none → s.fw.updateState = 4 → (∀ f ∈ s.mbx.flight, f.kind ≠ .storeWait) →
      Accepts (s.clock t) a { opcode := 0x0A03, rights := 1, pkg := .uc, partUse := .pkg } {} r →
      (energyOk s mv 4000 = true → burnOk = true ∨ (slotOf s s.fw.running).secVersion ≤ s.fuses.secCounter →
        Completes (.confirmHealth t a mv burnOk) s fun u => Replied u r 0 [] a.returnOk ∧
          slotOf u s.fw.running = { slotOf s s.fw.running with state := .confirmed } ∧ slotOf u k = slotOf s k ∧
          u.fw.trial = none ∧ u.fw.windowEnd = none ∧ u.fw.updateState = 0 ∧
          u.fuses.secCounter = max s.fuses.secCounter (slotOf s s.fw.running).secVersion ∧
          (∃ e ∈ u.faults.buffer, e.type = 0x64 ∧ e.data = [s.fw.running, (slotOf s s.fw.running).version]) ∧
          ButMail { s.clock t with fw := u.fw, faults := u.faults, fuses := u.fuses } u) ∧
      (energyOk s mv 4000 = true → burnOk = false → s.fuses.secCounter < (slotOf s s.fw.running).secVersion →
        Completes (.confirmHealth t a mv burnOk) s fun u => Replied u r 0x50 [] a.returnOk ∧
          slotOf u s.fw.running = { slotOf s s.fw.running with state := .confirmed } ∧ u.fuses = s.fuses) ∧
      (energyOk s mv 4000 = false → s.fw.heldOp = none → Completes (.confirmHealth t a mv burnOk) s fun u =>
        u.fw = { s.fw with heldOp := some (1, max s.now t, max s.now t) } ∧ (∃ f ∈ u.mbx.flight, f.kind = .storeWait))) ∧
    (∀ e, s.fw.windowEnd = some e → s.fw.trial ≠ none → e ≤ max s.now t →
      (Completes (.confirmWindowExpire t) s fun u => u.fw.fallback = true ∧ u.fw.trial = none ∧ u.fw.windowEnd = none ∧
        u.fw.slotA = s.fw.slotA ∧ u.fw.slotB = s.fw.slotB ∧ u.boot.vrEn = 0 ∧ u.sess = {} ∧ u.mem = {} ∧ u.fab = {} ∧
        u.fuses = s.fuses ∧ u.faults.store = s.faults.store) ∧
      ((mget {} s.evt.pins 2).level = true → s.boot.coldRstN = true → s.boot.pgLost = false →
        Completes (.confirmWindowExpire t) s fun u => u.boot.stage = some 0 ∧ u.boot.resetKind = 2)) ∧
    (Accepts (s.clock t) a { opcode := 0x0A04, rights := 5, pkg := .any, partUse := .pkg, resp := 32 } {} r →
      Answers (.fwStatus t a) s r 0 (leBytes 32 (packBits [(s.fw.running, 1), (s.fw.updateState, 3), (0, 28),
        (s.fw.runningVersion, 32), (if (slotOf s k).state = .empty then 0 else (slotOf s k).version, 32), (s.fuses.secCounter, 8),
        (confirmLeft (s.clock t), 8), (0, 16), (s.fw.activateTick, 64), (50331648, 32)])) a.returnOk (s.clock t))

/-- The PART_STATE outputs (22 R520, R521; 19 R460): 0b11 until the start of S8, whatever the partitions' states; from S8 onward
the code of the partition's state, but 0b11 in Off. -/
def Obligations.PartStatePinsFollow : Prop :=
  ∀ (s : State) (p : Nat), p < 4 →
    (s.boot.stage ≠ some 8 → partStatePin s p = 0b11) ∧
    (s.boot.stage = some 8 → s.boot.poweredOff = false →
      (pstate s p = .free → partStatePin s p = 0b00) ∧
      (pstate s p = .assigned ∨ pstate s p = .running → partStatePin s p = 0b01) ∧
      (pstate s p = .winnowing → partStatePin s p = 0b10) ∧
      (pstate s p ∈ [.fenced, .resetting, .failed, .dormant] → partStatePin s p = 0b11)) ∧
    (s.boot.poweredOff = true → partStatePin s p = 0b11)
end

