-- ==== Sys2Proof/Laws/Maps.lean ====
section
/-!
SUPPORT. Laws/Maps.lean: the laws of the sparse maps and of the byte memories: read after write, other entries, and the
canonical form that every update keeps.
-/
namespace Sys2Proof.Machine

/-! ## Sparse maps -/

@[simp] theorem mfind_mset {α : Type} (m : SMap α) (i j : Nat) (v : α) :
    mfind (mset m i v) j = if i = j then some v else mfind m j := by
  induction m with
  | nil => simp [mset, mfind]
  | cons e r ih =>
    obtain ⟨k, w⟩ := e
    simp only [mset]
    split
    · subst_vars; by_cases h : k = j <;> simp [mfind, h]
    · split
      · by_cases h : i = j <;> simp [mfind, h]
      · simp only [mfind, ih]
        by_cases h : k = j
        · subst h
          have : ¬ i = k := by assumption
          simp [this]
        · simp [h]

@[simp] theorem mget_mset {α : Type} (d : α) (m : SMap α) (i j : Nat) (v : α) :
    mget d (mset m i v) j = if i = j then v else mget d m j := by
  simp only [mget, mfind_mset]; split <;> rfl

theorem mget_mset_self {α : Type} (d : α) (m : SMap α) (i : Nat) (v : α) : mget d (mset m i v) i = v := by simp

theorem mget_mset_ne {α : Type} (d : α) (m : SMap α) {i j : Nat} (v : α) (h : i ≠ j) :
    mget d (mset m i v) j = mget d m j := by simp [h]

@[simp] theorem mget_mupd {α : Type} (d : α) (m : SMap α) (i j : Nat) (f : α → α) :
    mget d (mupd d m i f) j = if i = j then f (mget d m i) else mget d m j := by simp [mupd]

@[simp] theorem mfind_mdel {α : Type} (m : SMap α) (i j : Nat) :
    mfind (mdel m i) j = if i = j then none else mfind m j := by
  induction m with
  | nil => simp [mdel, mfind]
  | cons e r ih =>
    obtain ⟨k, w⟩ := e
    simp only [mdel] at ih ⊢
    by_cases hk : k = i
    · subst hk
      simp only [List.filter, bne_self_eq_false, ih, mfind]
      by_cases h : k = j <;> simp [h]
    · have : (k != i) = true := by simp [hk]
      simp only [List.filter, this, mfind, ih]
      by_cases h : i = j
      · subst h; simp [hk]
      · by_cases h2 : k = j <;> simp [h, h2]

/-! ## The canonical form -/

/-- Keys strictly rising. -/
abbrev Rising {α : Type} (m : SMap α) : Prop := m.Pairwise (fun a b => a.1 < b.1)

theorem mem_mset {α : Type} (m : SMap α) (i : Nat) (v : α) (e : Nat × α) (h : e ∈ mset m i v) : e = (i, v) ∨ e ∈ m := by
  induction m with
  | nil => simp [mset] at h; exact .inl h
  | cons x r ih =>
    obtain ⟨k, w⟩ := x
    simp only [mset] at h
    split at h
    · rcases List.mem_cons.1 h with h | h
      · exact .inl h
      · exact .inr (List.mem_cons_of_mem _ h)
    · split at h
      · rcases List.mem_cons.1 h with h | h
        · exact .inl h
        · exact .inr h
      · rcases List.mem_cons.1 h with h | h
        · exact .inr (h ▸ List.mem_cons_self)
        · rcases ih h with h | h
          · exact .inl h
          · exact .inr (List.mem_cons_of_mem _ h)

theorem rising_mset {α : Type} (m : SMap α) (i : Nat) (v : α) (h : Rising m) : Rising (mset m i v) := by
  induction m with
  | nil => simp [mset, Rising]
  | cons x r ih =>
    obtain ⟨k, w⟩ := x
    have h' := List.pairwise_cons.1 h
    simp only [mset]
    split
    · subst_vars; exact List.pairwise_cons.2 ⟨h'.1, h'.2⟩
    · split
      · rename_i hik
        refine List.pairwise_cons.2 ⟨fun e he => ?_, h⟩
        rcases List.mem_cons.1 he with he | he
        · subst he; exact hik
        · exact Nat.lt_trans hik (h'.1 e he)
      · refine List.pairwise_cons.2 ⟨fun e he => ?_, ih h'.2⟩
        rcases mem_mset r i v e he with he | he
        · subst he; show k < i; omega
        · exact h'.1 e he

theorem rising_filter {α : Type} (m : SMap α) (p : Nat × α → Bool) (h : Rising m) : Rising (m.filter p) :=
  List.Pairwise.filter p h

theorem rising_mdel {α : Type} (m : SMap α) (i : Nat) (h : Rising m) : Rising (mdel m i) := rising_filter _ _ h

/-! ## Byte memories whose unlisted addresses read 0 -/

/-- The canonical form of such a memory (log 5): keys strictly rising, no listed 0. -/
abbrev Canonical (m : List Host.Cell) : Prop := Rising m ∧ ∀ e ∈ m, e.2 ≠ 0

theorem canonical_nil : Canonical [] := ⟨List.Pairwise.nil, fun _ h => by cases h⟩

theorem canonical_filter (m : List Host.Cell) (p : Host.Cell → Bool) (h : Canonical m) : Canonical (m.filter p) :=
  ⟨rising_filter m p h.1, fun e he => h.2 e (List.mem_filter.1 he).1⟩

theorem canonical_memPut (m : List Host.Cell) (a : Nat) (b : Byte) (h : Canonical m) : Canonical (memPut m a b) := by
  simp only [memPut]
  split
  · exact canonical_filter _ _ h
  · rename_i hb
    refine ⟨rising_mset _ _ _ h.1, fun e he => ?_⟩
    rcases mem_mset m a b e he with he | he
    · subst he; exact hb
    · exact h.2 e he

theorem canonical_memPuts (m : List Host.Cell) (a : Nat) (bs : List Byte) (h : Canonical m) :
    Canonical (memPuts m a bs) := by
  induction bs generalizing m a with
  | nil => exact h
  | cons b r ih => exact ih _ _ (canonical_memPut m a b h)

theorem canonical_memZero (m : List Host.Cell) (a n : Nat) (h : Canonical m) : Canonical (memZero m a n) :=
  canonical_filter _ _ h

@[simp] theorem memByte_memPut (m : List Host.Cell) (a x : Nat) (b : Byte) :
    memByte (memPut m a b) x = if a = x then b else memByte m x := by
  simp only [memPut, memByte, mget]
  by_cases hb : b = 0
  · simp only [hb, if_true, mfind_mdel]; split <;> rfl
  · simp only [hb, if_false, mfind_mset]; split <;> rfl

/-- A byte below the bytes written is not changed; nor is one above them. -/
theorem memByte_memPuts_out (m : List Host.Cell) (a x : Nat) (bs : List Byte) (h : x < a ∨ a + bs.length ≤ x) :
    memByte (memPuts m a bs) x = memByte m x := by
  induction bs generalizing m a with
  | nil => rfl
  | cons b r ih =>
    simp only [List.length_cons] at h
    rw [memPuts, ih _ _ (by omega), memByte_memPut, if_neg (by omega)]

/-- Each byte written reads back. -/
theorem memByte_memPuts_in (m : List Host.Cell) (a i : Nat) (bs : List Byte) (h : i < bs.length) :
    memByte (memPuts m a bs) (a + i) = bs[i] := by
  induction bs generalizing m a i with
  | nil => simp at h
  | cons b r ih =>
    rw [memPuts]
    cases i with
    | zero => 
      show memByte (memPuts (memPut m a b) (a + 1) r) a = b
      rw [memByte_memPuts_out _ _ _ _ (.inl (Nat.lt_succ_self a))]; simp
    | succ j =>
      have hj : j < r.length := by simpa using h
      have := ih (memPut m a b) (a + 1) j hj
      rw [show a + (j + 1) = a + 1 + j by omega, this]; simp

theorem memBytes_memPuts_out (m : List Host.Cell) (a x n : Nat) (bs : List Byte) (h : x + n ≤ a ∨ a + bs.length ≤ x) :
    memBytes (memPuts m a bs) x n = memBytes m x n := by
  induction n generalizing x with
  | zero => rfl
  | succ n ih => rw [memBytes, memBytes, ih (x + 1) (by omega), memByte_memPuts_out _ _ _ _ (by omega)]

/-- What is written reads back. -/
theorem memBytes_memPuts_self (m : List Host.Cell) (a : Nat) (bs : List Byte) :
    memBytes (memPuts m a bs) a bs.length = bs := by
  induction bs generalizing m a with
  | nil => rfl
  | cons b r ih =>
    rw [List.length_cons, memBytes, memPuts, ih, memByte_memPuts_out _ _ _ _ (.inl (Nat.lt_succ_self a))]; simp

theorem mfind_memZero (m : List Host.Cell) (a n x : Nat) :
    mfind (memZero m a n) x = if a ≤ x ∧ x < a + n then none else mfind m x := by
  induction m with
  | nil => simp [memZero, mfind]
  | cons e r ih =>
    obtain ⟨k, w⟩ := e
    simp only [memZero, List.filter_cons] at ih ⊢
    by_cases hk : k < a ∨ a + n ≤ k
    · have : (decide (k < a) || decide (a + n ≤ k)) = true := by simpa using hk
      simp only [this, if_true, mfind, ih]
      by_cases hx : k = x
      · subst hx; simp only [if_true]; rw [if_neg (by omega)]
      · simp [hx]
    · have : (decide (k < a) || decide (a + n ≤ k)) = false := by simp only [Bool.or_eq_false_iff, decide_eq_false_iff_not]; omega
      simp only [this, mfind]
      by_cases hx : k = x
      · subst hx
        have h2 : a ≤ k ∧ k < a + n := by omega
        simpa [h2] using ih
      · simpa [hx] using ih

/-- Zeroed bytes read 0 and the others are kept. -/
@[simp] theorem memByte_memZero (m : List Host.Cell) (a n x : Nat) :
    memByte (memZero m a n) x = if a ≤ x ∧ x < a + n then 0 else memByte m x := by
  simp only [memByte, mget, mfind_memZero]; split <;> rfl

@[simp] theorem length_memBytes (m : List Host.Cell) (a n : Nat) : (memBytes m a n).length = n := by
  induction n generalizing a with
  | zero => rfl
  | succ n ih => simp [memBytes, ih]

/-! ## Bytes and numbers -/

@[simp] theorem length_leBytes (n v : Nat) : (leBytes n v).length = n := by
  induction n generalizing v with
  | zero => rfl
  | succ n ih => simp [leBytes, ih]

theorem leNat_leBytes (n v : Nat) : leNat (leBytes n v) = v % 256 ^ n := by
  induction n generalizing v with
  | zero => simp [leBytes, leNat, Nat.mod_one]
  | succ n ih =>
    have h : (BitVec.ofNat 8 v).toNat = v % 256 := BitVec.toNat_ofNat v 8
    rw [leBytes, leNat, ih, h, Nat.pow_succ, Nat.mul_comm (256 ^ n) 256, Nat.mod_mul]

theorem leBytes_leNat (bs : List Byte) : leBytes bs.length (leNat bs) = bs := by
  induction bs with
  | nil => rfl
  | cons b r ih =>
    have hb : b.toNat < 256 := b.isLt
    have h1 : BitVec.ofNat 8 (b.toNat + 256 * leNat r) = b := by
      apply BitVec.eq_of_toNat_eq
      rw [BitVec.toNat_ofNat]
      show (b.toNat + 256 * leNat r) % 256 = b.toNat
      omega
    have h2 : (b.toNat + 256 * leNat r) / 256 = leNat r := by omega
    rw [List.length_cons, leNat, leBytes, h1, h2, ih]

theorem leNat_lt (bs : List Byte) : leNat bs < 256 ^ bs.length := by
  induction bs with
  | nil => simp [leNat]
  | cons b r ih =>
    have hb : b.toNat < 256 := b.isLt
    rw [leNat, List.length_cons, Nat.pow_succ]; omega

end Sys2Proof.Machine
end

