-- ==== Sys2Proof/Laws/State.lean ====
section
/-!
SUPPORT. Laws/State.lean: what each plain update of Machine/Ops.lean leaves of every field of State, one lemma per field,
each true by computation, and what it sets.
-/
namespace Sys2Proof.Machine

/-! ## clock -/

@[simp] theorem clock_powerUpAt (s : State) (t : Nat) : (s.clock t).powerUpAt = s.powerUpAt := rfl
@[simp] theorem clock_pending (s : State) (t : Nat) : (s.clock t).pending = s.pending := rfl
@[simp] theorem clock_freeCtr (s : State) (t : Nat) : (s.clock t).freeCtr = s.freeCtr := rfl
@[simp] theorem clock_outbox (s : State) (t : Nat) : (s.clock t).outbox = s.outbox := rfl
@[simp] theorem clock_fuses (s : State) (t : Nat) : (s.clock t).fuses = s.fuses := rfl
@[simp] theorem clock_boot (s : State) (t : Nat) : (s.clock t).boot = s.boot := rfl
@[simp] theorem clock_tick (s : State) (t : Nat) : (s.clock t).tick = s.tick := rfl
@[simp] theorem clock_evt (s : State) (t : Nat) : (s.clock t).evt = s.evt := rfl
@[simp] theorem clock_host (s : State) (t : Nat) : (s.clock t).host = s.host := rfl
@[simp] theorem clock_eth (s : State) (t : Nat) : (s.clock t).eth = s.eth := rfl
@[simp] theorem clock_mbx (s : State) (t : Nat) : (s.clock t).mbx = s.mbx := rfl
@[simp] theorem clock_sess (s : State) (t : Nat) : (s.clock t).sess = s.sess := rfl
@[simp] theorem clock_tiles (s : State) (t : Nat) : (s.clock t).tiles = s.tiles := rfl
@[simp] theorem clock_cores (s : State) (t : Nat) : (s.clock t).cores = s.cores := rfl
@[simp] theorem clock_ccs (s : State) (t : Nat) : (s.clock t).ccs = s.ccs := rfl
@[simp] theorem clock_mem (s : State) (t : Nat) : (s.clock t).mem = s.mem := rfl
@[simp] theorem clock_wain (s : State) (t : Nat) : (s.clock t).wain = s.wain := rfl
@[simp] theorem clock_glns (s : State) (t : Nat) : (s.clock t).glns = s.glns := rfl
@[simp] theorem clock_stks (s : State) (t : Nat) : (s.clock t).stks = s.stks := rfl
@[simp] theorem clock_cellars (s : State) (t : Nat) : (s.clock t).cellars = s.cellars := rfl
@[simp] theorem clock_memTest (s : State) (t : Nat) : (s.clock t).memTest = s.memTest := rfl
@[simp] theorem clock_place (s : State) (t : Nat) : (s.clock t).place = s.place := rfl
@[simp] theorem clock_fab (s : State) (t : Nat) : (s.clock t).fab = s.fab := rfl
@[simp] theorem clock_coll (s : State) (t : Nat) : (s.clock t).coll = s.coll := rfl
@[simp] theorem clock_power (s : State) (t : Nat) : (s.clock t).power = s.power := rfl
@[simp] theorem clock_heat (s : State) (t : Nat) : (s.clock t).heat = s.heat := rfl
@[simp] theorem clock_keys (s : State) (t : Nat) : (s.clock t).keys = s.keys := rfl
@[simp] theorem clock_faults (s : State) (t : Nat) : (s.clock t).faults = s.faults := rfl
@[simp] theorem clock_fw (s : State) (t : Nat) : (s.clock t).fw = s.fw := rfl

/-! ## emit -/

@[simp] theorem emit_now (s : State) (o : Output) : (s.emit o).now = s.now := rfl
@[simp] theorem emit_powerUpAt (s : State) (o : Output) : (s.emit o).powerUpAt = s.powerUpAt := rfl
@[simp] theorem emit_pending (s : State) (o : Output) : (s.emit o).pending = s.pending := rfl
@[simp] theorem emit_freeCtr (s : State) (o : Output) : (s.emit o).freeCtr = s.freeCtr := rfl
@[simp] theorem emit_fuses (s : State) (o : Output) : (s.emit o).fuses = s.fuses := rfl
@[simp] theorem emit_boot (s : State) (o : Output) : (s.emit o).boot = s.boot := rfl
@[simp] theorem emit_tick (s : State) (o : Output) : (s.emit o).tick = s.tick := rfl
@[simp] theorem emit_evt (s : State) (o : Output) : (s.emit o).evt = s.evt := rfl
@[simp] theorem emit_host (s : State) (o : Output) : (s.emit o).host = s.host := rfl
@[simp] theorem emit_eth (s : State) (o : Output) : (s.emit o).eth = s.eth := rfl
@[simp] theorem emit_mbx (s : State) (o : Output) : (s.emit o).mbx = s.mbx := rfl
@[simp] theorem emit_sess (s : State) (o : Output) : (s.emit o).sess = s.sess := rfl
@[simp] theorem emit_tiles (s : State) (o : Output) : (s.emit o).tiles = s.tiles := rfl
@[simp] theorem emit_cores (s : State) (o : Output) : (s.emit o).cores = s.cores := rfl
@[simp] theorem emit_ccs (s : State) (o : Output) : (s.emit o).ccs = s.ccs := rfl
@[simp] theorem emit_mem (s : State) (o : Output) : (s.emit o).mem = s.mem := rfl
@[simp] theorem emit_wain (s : State) (o : Output) : (s.emit o).wain = s.wain := rfl
@[simp] theorem emit_glns (s : State) (o : Output) : (s.emit o).glns = s.glns := rfl
@[simp] theorem emit_stks (s : State) (o : Output) : (s.emit o).stks = s.stks := rfl
@[simp] theorem emit_cellars (s : State) (o : Output) : (s.emit o).cellars = s.cellars := rfl
@[simp] theorem emit_memTest (s : State) (o : Output) : (s.emit o).memTest = s.memTest := rfl
@[simp] theorem emit_place (s : State) (o : Output) : (s.emit o).place = s.place := rfl
@[simp] theorem emit_fab (s : State) (o : Output) : (s.emit o).fab = s.fab := rfl
@[simp] theorem emit_coll (s : State) (o : Output) : (s.emit o).coll = s.coll := rfl
@[simp] theorem emit_power (s : State) (o : Output) : (s.emit o).power = s.power := rfl
@[simp] theorem emit_heat (s : State) (o : Output) : (s.emit o).heat = s.heat := rfl
@[simp] theorem emit_keys (s : State) (o : Output) : (s.emit o).keys = s.keys := rfl
@[simp] theorem emit_faults (s : State) (o : Output) : (s.emit o).faults = s.faults := rfl
@[simp] theorem emit_fw (s : State) (o : Output) : (s.emit o).fw = s.fw := rfl

/-! ## drawn -/

@[simp] theorem drawn_now (s : State) : (s.drawn).now = s.now := rfl
@[simp] theorem drawn_powerUpAt (s : State) : (s.drawn).powerUpAt = s.powerUpAt := rfl
@[simp] theorem drawn_pending (s : State) : (s.drawn).pending = s.pending := rfl
@[simp] theorem drawn_outbox (s : State) : (s.drawn).outbox = s.outbox := rfl
@[simp] theorem drawn_fuses (s : State) : (s.drawn).fuses = s.fuses := rfl
@[simp] theorem drawn_boot (s : State) : (s.drawn).boot = s.boot := rfl
@[simp] theorem drawn_tick (s : State) : (s.drawn).tick = s.tick := rfl
@[simp] theorem drawn_evt (s : State) : (s.drawn).evt = s.evt := rfl
@[simp] theorem drawn_host (s : State) : (s.drawn).host = s.host := rfl
@[simp] theorem drawn_eth (s : State) : (s.drawn).eth = s.eth := rfl
@[simp] theorem drawn_mbx (s : State) : (s.drawn).mbx = s.mbx := rfl
@[simp] theorem drawn_sess (s : State) : (s.drawn).sess = s.sess := rfl
@[simp] theorem drawn_tiles (s : State) : (s.drawn).tiles = s.tiles := rfl
@[simp] theorem drawn_cores (s : State) : (s.drawn).cores = s.cores := rfl
@[simp] theorem drawn_ccs (s : State) : (s.drawn).ccs = s.ccs := rfl
@[simp] theorem drawn_mem (s : State) : (s.drawn).mem = s.mem := rfl
@[simp] theorem drawn_wain (s : State) : (s.drawn).wain = s.wain := rfl
@[simp] theorem drawn_glns (s : State) : (s.drawn).glns = s.glns := rfl
@[simp] theorem drawn_stks (s : State) : (s.drawn).stks = s.stks := rfl
@[simp] theorem drawn_cellars (s : State) : (s.drawn).cellars = s.cellars := rfl
@[simp] theorem drawn_memTest (s : State) : (s.drawn).memTest = s.memTest := rfl
@[simp] theorem drawn_place (s : State) : (s.drawn).place = s.place := rfl
@[simp] theorem drawn_fab (s : State) : (s.drawn).fab = s.fab := rfl
@[simp] theorem drawn_coll (s : State) : (s.drawn).coll = s.coll := rfl
@[simp] theorem drawn_power (s : State) : (s.drawn).power = s.power := rfl
@[simp] theorem drawn_heat (s : State) : (s.drawn).heat = s.heat := rfl
@[simp] theorem drawn_keys (s : State) : (s.drawn).keys = s.keys := rfl
@[simp] theorem drawn_faults (s : State) : (s.drawn).faults = s.faults := rfl
@[simp] theorem drawn_fw (s : State) : (s.drawn).fw = s.fw := rfl

/-! ## setTile -/

@[simp] theorem setTile_now (s : State) (i : Nat) (v : Tile) : (setTile s i v).now = s.now := rfl
@[simp] theorem setTile_powerUpAt (s : State) (i : Nat) (v : Tile) : (setTile s i v).powerUpAt = s.powerUpAt := rfl
@[simp] theorem setTile_pending (s : State) (i : Nat) (v : Tile) : (setTile s i v).pending = s.pending := rfl
@[simp] theorem setTile_freeCtr (s : State) (i : Nat) (v : Tile) : (setTile s i v).freeCtr = s.freeCtr := rfl
@[simp] theorem setTile_outbox (s : State) (i : Nat) (v : Tile) : (setTile s i v).outbox = s.outbox := rfl
@[simp] theorem setTile_fuses (s : State) (i : Nat) (v : Tile) : (setTile s i v).fuses = s.fuses := rfl
@[simp] theorem setTile_boot (s : State) (i : Nat) (v : Tile) : (setTile s i v).boot = s.boot := rfl
@[simp] theorem setTile_tick (s : State) (i : Nat) (v : Tile) : (setTile s i v).tick = s.tick := rfl
@[simp] theorem setTile_evt (s : State) (i : Nat) (v : Tile) : (setTile s i v).evt = s.evt := rfl
@[simp] theorem setTile_host (s : State) (i : Nat) (v : Tile) : (setTile s i v).host = s.host := rfl
@[simp] theorem setTile_eth (s : State) (i : Nat) (v : Tile) : (setTile s i v).eth = s.eth := rfl
@[simp] theorem setTile_mbx (s : State) (i : Nat) (v : Tile) : (setTile s i v).mbx = s.mbx := rfl
@[simp] theorem setTile_sess (s : State) (i : Nat) (v : Tile) : (setTile s i v).sess = s.sess := rfl
@[simp] theorem setTile_cores (s : State) (i : Nat) (v : Tile) : (setTile s i v).cores = s.cores := rfl
@[simp] theorem setTile_ccs (s : State) (i : Nat) (v : Tile) : (setTile s i v).ccs = s.ccs := rfl
@[simp] theorem setTile_mem (s : State) (i : Nat) (v : Tile) : (setTile s i v).mem = s.mem := rfl
@[simp] theorem setTile_wain (s : State) (i : Nat) (v : Tile) : (setTile s i v).wain = s.wain := rfl
@[simp] theorem setTile_glns (s : State) (i : Nat) (v : Tile) : (setTile s i v).glns = s.glns := rfl
@[simp] theorem setTile_stks (s : State) (i : Nat) (v : Tile) : (setTile s i v).stks = s.stks := rfl
@[simp] theorem setTile_cellars (s : State) (i : Nat) (v : Tile) : (setTile s i v).cellars = s.cellars := rfl
@[simp] theorem setTile_memTest (s : State) (i : Nat) (v : Tile) : (setTile s i v).memTest = s.memTest := rfl
@[simp] theorem setTile_place (s : State) (i : Nat) (v : Tile) : (setTile s i v).place = s.place := rfl
@[simp] theorem setTile_fab (s : State) (i : Nat) (v : Tile) : (setTile s i v).fab = s.fab := rfl
@[simp] theorem setTile_coll (s : State) (i : Nat) (v : Tile) : (setTile s i v).coll = s.coll := rfl
@[simp] theorem setTile_power (s : State) (i : Nat) (v : Tile) : (setTile s i v).power = s.power := rfl
@[simp] theorem setTile_heat (s : State) (i : Nat) (v : Tile) : (setTile s i v).heat = s.heat := rfl
@[simp] theorem setTile_keys (s : State) (i : Nat) (v : Tile) : (setTile s i v).keys = s.keys := rfl
@[simp] theorem setTile_faults (s : State) (i : Nat) (v : Tile) : (setTile s i v).faults = s.faults := rfl
@[simp] theorem setTile_fw (s : State) (i : Nat) (v : Tile) : (setTile s i v).fw = s.fw := rfl

/-! ## setCore -/

@[simp] theorem setCore_now (s : State) (i : Nat) (v : Core) : (setCore s i v).now = s.now := rfl
@[simp] theorem setCore_powerUpAt (s : State) (i : Nat) (v : Core) : (setCore s i v).powerUpAt = s.powerUpAt := rfl
@[simp] theorem setCore_pending (s : State) (i : Nat) (v : Core) : (setCore s i v).pending = s.pending := rfl
@[simp] theorem setCore_freeCtr (s : State) (i : Nat) (v : Core) : (setCore s i v).freeCtr = s.freeCtr := rfl
@[simp] theorem setCore_outbox (s : State) (i : Nat) (v : Core) : (setCore s i v).outbox = s.outbox := rfl
@[simp] theorem setCore_fuses (s : State) (i : Nat) (v : Core) : (setCore s i v).fuses = s.fuses := rfl
@[simp] theorem setCore_boot (s : State) (i : Nat) (v : Core) : (setCore s i v).boot = s.boot := rfl
@[simp] theorem setCore_tick (s : State) (i : Nat) (v : Core) : (setCore s i v).tick = s.tick := rfl
@[simp] theorem setCore_evt (s : State) (i : Nat) (v : Core) : (setCore s i v).evt = s.evt := rfl
@[simp] theorem setCore_host (s : State) (i : Nat) (v : Core) : (setCore s i v).host = s.host := rfl
@[simp] theorem setCore_eth (s : State) (i : Nat) (v : Core) : (setCore s i v).eth = s.eth := rfl
@[simp] theorem setCore_mbx (s : State) (i : Nat) (v : Core) : (setCore s i v).mbx = s.mbx := rfl
@[simp] theorem setCore_sess (s : State) (i : Nat) (v : Core) : (setCore s i v).sess = s.sess := rfl
@[simp] theorem setCore_tiles (s : State) (i : Nat) (v : Core) : (setCore s i v).tiles = s.tiles := rfl
@[simp] theorem setCore_ccs (s : State) (i : Nat) (v : Core) : (setCore s i v).ccs = s.ccs := rfl
@[simp] theorem setCore_mem (s : State) (i : Nat) (v : Core) : (setCore s i v).mem = s.mem := rfl
@[simp] theorem setCore_wain (s : State) (i : Nat) (v : Core) : (setCore s i v).wain = s.wain := rfl
@[simp] theorem setCore_glns (s : State) (i : Nat) (v : Core) : (setCore s i v).glns = s.glns := rfl
@[simp] theorem setCore_stks (s : State) (i : Nat) (v : Core) : (setCore s i v).stks = s.stks := rfl
@[simp] theorem setCore_cellars (s : State) (i : Nat) (v : Core) : (setCore s i v).cellars = s.cellars := rfl
@[simp] theorem setCore_memTest (s : State) (i : Nat) (v : Core) : (setCore s i v).memTest = s.memTest := rfl
@[simp] theorem setCore_place (s : State) (i : Nat) (v : Core) : (setCore s i v).place = s.place := rfl
@[simp] theorem setCore_fab (s : State) (i : Nat) (v : Core) : (setCore s i v).fab = s.fab := rfl
@[simp] theorem setCore_coll (s : State) (i : Nat) (v : Core) : (setCore s i v).coll = s.coll := rfl
@[simp] theorem setCore_power (s : State) (i : Nat) (v : Core) : (setCore s i v).power = s.power := rfl
@[simp] theorem setCore_heat (s : State) (i : Nat) (v : Core) : (setCore s i v).heat = s.heat := rfl
@[simp] theorem setCore_keys (s : State) (i : Nat) (v : Core) : (setCore s i v).keys = s.keys := rfl
@[simp] theorem setCore_faults (s : State) (i : Nat) (v : Core) : (setCore s i v).faults = s.faults := rfl
@[simp] theorem setCore_fw (s : State) (i : Nat) (v : Core) : (setCore s i v).fw = s.fw := rfl

/-! ## setStack -/

@[simp] theorem setStack_now (s : State) (i : Nat) (v : Stack) : (setStack s i v).now = s.now := rfl
@[simp] theorem setStack_powerUpAt (s : State) (i : Nat) (v : Stack) : (setStack s i v).powerUpAt = s.powerUpAt := rfl
@[simp] theorem setStack_pending (s : State) (i : Nat) (v : Stack) : (setStack s i v).pending = s.pending := rfl
@[simp] theorem setStack_freeCtr (s : State) (i : Nat) (v : Stack) : (setStack s i v).freeCtr = s.freeCtr := rfl
@[simp] theorem setStack_outbox (s : State) (i : Nat) (v : Stack) : (setStack s i v).outbox = s.outbox := rfl
@[simp] theorem setStack_fuses (s : State) (i : Nat) (v : Stack) : (setStack s i v).fuses = s.fuses := rfl
@[simp] theorem setStack_boot (s : State) (i : Nat) (v : Stack) : (setStack s i v).boot = s.boot := rfl
@[simp] theorem setStack_tick (s : State) (i : Nat) (v : Stack) : (setStack s i v).tick = s.tick := rfl
@[simp] theorem setStack_evt (s : State) (i : Nat) (v : Stack) : (setStack s i v).evt = s.evt := rfl
@[simp] theorem setStack_host (s : State) (i : Nat) (v : Stack) : (setStack s i v).host = s.host := rfl
@[simp] theorem setStack_eth (s : State) (i : Nat) (v : Stack) : (setStack s i v).eth = s.eth := rfl
@[simp] theorem setStack_mbx (s : State) (i : Nat) (v : Stack) : (setStack s i v).mbx = s.mbx := rfl
@[simp] theorem setStack_sess (s : State) (i : Nat) (v : Stack) : (setStack s i v).sess = s.sess := rfl
@[simp] theorem setStack_tiles (s : State) (i : Nat) (v : Stack) : (setStack s i v).tiles = s.tiles := rfl
@[simp] theorem setStack_cores (s : State) (i : Nat) (v : Stack) : (setStack s i v).cores = s.cores := rfl
@[simp] theorem setStack_ccs (s : State) (i : Nat) (v : Stack) : (setStack s i v).ccs = s.ccs := rfl
@[simp] theorem setStack_mem (s : State) (i : Nat) (v : Stack) : (setStack s i v).mem = s.mem := rfl
@[simp] theorem setStack_wain (s : State) (i : Nat) (v : Stack) : (setStack s i v).wain = s.wain := rfl
@[simp] theorem setStack_glns (s : State) (i : Nat) (v : Stack) : (setStack s i v).glns = s.glns := rfl
@[simp] theorem setStack_cellars (s : State) (i : Nat) (v : Stack) : (setStack s i v).cellars = s.cellars := rfl
@[simp] theorem setStack_memTest (s : State) (i : Nat) (v : Stack) : (setStack s i v).memTest = s.memTest := rfl
@[simp] theorem setStack_place (s : State) (i : Nat) (v : Stack) : (setStack s i v).place = s.place := rfl
@[simp] theorem setStack_fab (s : State) (i : Nat) (v : Stack) : (setStack s i v).fab = s.fab := rfl
@[simp] theorem setStack_coll (s : State) (i : Nat) (v : Stack) : (setStack s i v).coll = s.coll := rfl
@[simp] theorem setStack_power (s : State) (i : Nat) (v : Stack) : (setStack s i v).power = s.power := rfl
@[simp] theorem setStack_heat (s : State) (i : Nat) (v : Stack) : (setStack s i v).heat = s.heat := rfl
@[simp] theorem setStack_keys (s : State) (i : Nat) (v : Stack) : (setStack s i v).keys = s.keys := rfl
@[simp] theorem setStack_faults (s : State) (i : Nat) (v : Stack) : (setStack s i v).faults = s.faults := rfl
@[simp] theorem setStack_fw (s : State) (i : Nat) (v : Stack) : (setStack s i v).fw = s.fw := rfl

/-! ## setGln -/

@[simp] theorem setGln_now (s : State) (i : Nat) (v : Gleaner) : (setGln s i v).now = s.now := rfl
@[simp] theorem setGln_powerUpAt (s : State) (i : Nat) (v : Gleaner) : (setGln s i v).powerUpAt = s.powerUpAt := rfl
@[simp] theorem setGln_pending (s : State) (i : Nat) (v : Gleaner) : (setGln s i v).pending = s.pending := rfl
@[simp] theorem setGln_freeCtr (s : State) (i : Nat) (v : Gleaner) : (setGln s i v).freeCtr = s.freeCtr := rfl
@[simp] theorem setGln_outbox (s : State) (i : Nat) (v : Gleaner) : (setGln s i v).outbox = s.outbox := rfl
@[simp] theorem setGln_fuses (s : State) (i : Nat) (v : Gleaner) : (setGln s i v).fuses = s.fuses := rfl
@[simp] theorem setGln_boot (s : State) (i : Nat) (v : Gleaner) : (setGln s i v).boot = s.boot := rfl
@[simp] theorem setGln_tick (s : State) (i : Nat) (v : Gleaner) : (setGln s i v).tick = s.tick := rfl
@[simp] theorem setGln_evt (s : State) (i : Nat) (v : Gleaner) : (setGln s i v).evt = s.evt := rfl
@[simp] theorem setGln_host (s : State) (i : Nat) (v : Gleaner) : (setGln s i v).host = s.host := rfl
@[simp] theorem setGln_eth (s : State) (i : Nat) (v : Gleaner) : (setGln s i v).eth = s.eth := rfl
@[simp] theorem setGln_mbx (s : State) (i : Nat) (v : Gleaner) : (setGln s i v).mbx = s.mbx := rfl
@[simp] theorem setGln_sess (s : State) (i : Nat) (v : Gleaner) : (setGln s i v).sess = s.sess := rfl
@[simp] theorem setGln_tiles (s : State) (i : Nat) (v : Gleaner) : (setGln s i v).tiles = s.tiles := rfl
@[simp] theorem setGln_cores (s : State) (i : Nat) (v : Gleaner) : (setGln s i v).cores = s.cores := rfl
@[simp] theorem setGln_ccs (s : State) (i : Nat) (v : Gleaner) : (setGln s i v).ccs = s.ccs := rfl
@[simp] theorem setGln_mem (s : State) (i : Nat) (v : Gleaner) : (setGln s i v).mem = s.mem := rfl
@[simp] theorem setGln_wain (s : State) (i : Nat) (v : Gleaner) : (setGln s i v).wain = s.wain := rfl
@[simp] theorem setGln_stks (s : State) (i : Nat) (v : Gleaner) : (setGln s i v).stks = s.stks := rfl
@[simp] theorem setGln_cellars (s : State) (i : Nat) (v : Gleaner) : (setGln s i v).cellars = s.cellars := rfl
@[simp] theorem setGln_memTest (s : State) (i : Nat) (v : Gleaner) : (setGln s i v).memTest = s.memTest := rfl
@[simp] theorem setGln_place (s : State) (i : Nat) (v : Gleaner) : (setGln s i v).place = s.place := rfl
@[simp] theorem setGln_fab (s : State) (i : Nat) (v : Gleaner) : (setGln s i v).fab = s.fab := rfl
@[simp] theorem setGln_coll (s : State) (i : Nat) (v : Gleaner) : (setGln s i v).coll = s.coll := rfl
@[simp] theorem setGln_power (s : State) (i : Nat) (v : Gleaner) : (setGln s i v).power = s.power := rfl
@[simp] theorem setGln_heat (s : State) (i : Nat) (v : Gleaner) : (setGln s i v).heat = s.heat := rfl
@[simp] theorem setGln_keys (s : State) (i : Nat) (v : Gleaner) : (setGln s i v).keys = s.keys := rfl
@[simp] theorem setGln_faults (s : State) (i : Nat) (v : Gleaner) : (setGln s i v).faults = s.faults := rfl
@[simp] theorem setGln_fw (s : State) (i : Nat) (v : Gleaner) : (setGln s i v).fw = s.fw := rfl

/-! ## setCellar -/

@[simp] theorem setCellar_now (s : State) (i : Nat) (v : Cellar) : (setCellar s i v).now = s.now := rfl
@[simp] theorem setCellar_powerUpAt (s : State) (i : Nat) (v : Cellar) : (setCellar s i v).powerUpAt = s.powerUpAt := rfl
@[simp] theorem setCellar_pending (s : State) (i : Nat) (v : Cellar) : (setCellar s i v).pending = s.pending := rfl
@[simp] theorem setCellar_freeCtr (s : State) (i : Nat) (v : Cellar) : (setCellar s i v).freeCtr = s.freeCtr := rfl
@[simp] theorem setCellar_outbox (s : State) (i : Nat) (v : Cellar) : (setCellar s i v).outbox = s.outbox := rfl
@[simp] theorem setCellar_fuses (s : State) (i : Nat) (v : Cellar) : (setCellar s i v).fuses = s.fuses := rfl
@[simp] theorem setCellar_boot (s : State) (i : Nat) (v : Cellar) : (setCellar s i v).boot = s.boot := rfl
@[simp] theorem setCellar_tick (s : State) (i : Nat) (v : Cellar) : (setCellar s i v).tick = s.tick := rfl
@[simp] theorem setCellar_evt (s : State) (i : Nat) (v : Cellar) : (setCellar s i v).evt = s.evt := rfl
@[simp] theorem setCellar_host (s : State) (i : Nat) (v : Cellar) : (setCellar s i v).host = s.host := rfl
@[simp] theorem setCellar_eth (s : State) (i : Nat) (v : Cellar) : (setCellar s i v).eth = s.eth := rfl
@[simp] theorem setCellar_mbx (s : State) (i : Nat) (v : Cellar) : (setCellar s i v).mbx = s.mbx := rfl
@[simp] theorem setCellar_sess (s : State) (i : Nat) (v : Cellar) : (setCellar s i v).sess = s.sess := rfl
@[simp] theorem setCellar_tiles (s : State) (i : Nat) (v : Cellar) : (setCellar s i v).tiles = s.tiles := rfl
@[simp] theorem setCellar_cores (s : State) (i : Nat) (v : Cellar) : (setCellar s i v).cores = s.cores := rfl
@[simp] theorem setCellar_ccs (s : State) (i : Nat) (v : Cellar) : (setCellar s i v).ccs = s.ccs := rfl
@[simp] theorem setCellar_mem (s : State) (i : Nat) (v : Cellar) : (setCellar s i v).mem = s.mem := rfl
@[simp] theorem setCellar_wain (s : State) (i : Nat) (v : Cellar) : (setCellar s i v).wain = s.wain := rfl
@[simp] theorem setCellar_glns (s : State) (i : Nat) (v : Cellar) : (setCellar s i v).glns = s.glns := rfl
@[simp] theorem setCellar_stks (s : State) (i : Nat) (v : Cellar) : (setCellar s i v).stks = s.stks := rfl
@[simp] theorem setCellar_memTest (s : State) (i : Nat) (v : Cellar) : (setCellar s i v).memTest = s.memTest := rfl
@[simp] theorem setCellar_place (s : State) (i : Nat) (v : Cellar) : (setCellar s i v).place = s.place := rfl
@[simp] theorem setCellar_fab (s : State) (i : Nat) (v : Cellar) : (setCellar s i v).fab = s.fab := rfl
@[simp] theorem setCellar_coll (s : State) (i : Nat) (v : Cellar) : (setCellar s i v).coll = s.coll := rfl
@[simp] theorem setCellar_power (s : State) (i : Nat) (v : Cellar) : (setCellar s i v).power = s.power := rfl
@[simp] theorem setCellar_heat (s : State) (i : Nat) (v : Cellar) : (setCellar s i v).heat = s.heat := rfl
@[simp] theorem setCellar_keys (s : State) (i : Nat) (v : Cellar) : (setCellar s i v).keys = s.keys := rfl
@[simp] theorem setCellar_faults (s : State) (i : Nat) (v : Cellar) : (setCellar s i v).faults = s.faults := rfl
@[simp] theorem setCellar_fw (s : State) (i : Nat) (v : Cellar) : (setCellar s i v).fw = s.fw := rfl

/-! ## setFn -/

@[simp] theorem setFn_now (s : State) (i : Nat) (v : Fn) : (setFn s i v).now = s.now := rfl
@[simp] theorem setFn_powerUpAt (s : State) (i : Nat) (v : Fn) : (setFn s i v).powerUpAt = s.powerUpAt := rfl
@[simp] theorem setFn_pending (s : State) (i : Nat) (v : Fn) : (setFn s i v).pending = s.pending := rfl
@[simp] theorem setFn_freeCtr (s : State) (i : Nat) (v : Fn) : (setFn s i v).freeCtr = s.freeCtr := rfl
@[simp] theorem setFn_outbox (s : State) (i : Nat) (v : Fn) : (setFn s i v).outbox = s.outbox := rfl
@[simp] theorem setFn_fuses (s : State) (i : Nat) (v : Fn) : (setFn s i v).fuses = s.fuses := rfl
@[simp] theorem setFn_boot (s : State) (i : Nat) (v : Fn) : (setFn s i v).boot = s.boot := rfl
@[simp] theorem setFn_tick (s : State) (i : Nat) (v : Fn) : (setFn s i v).tick = s.tick := rfl
@[simp] theorem setFn_evt (s : State) (i : Nat) (v : Fn) : (setFn s i v).evt = s.evt := rfl
@[simp] theorem setFn_eth (s : State) (i : Nat) (v : Fn) : (setFn s i v).eth = s.eth := rfl
@[simp] theorem setFn_mbx (s : State) (i : Nat) (v : Fn) : (setFn s i v).mbx = s.mbx := rfl
@[simp] theorem setFn_sess (s : State) (i : Nat) (v : Fn) : (setFn s i v).sess = s.sess := rfl
@[simp] theorem setFn_tiles (s : State) (i : Nat) (v : Fn) : (setFn s i v).tiles = s.tiles := rfl
@[simp] theorem setFn_cores (s : State) (i : Nat) (v : Fn) : (setFn s i v).cores = s.cores := rfl
@[simp] theorem setFn_ccs (s : State) (i : Nat) (v : Fn) : (setFn s i v).ccs = s.ccs := rfl
@[simp] theorem setFn_mem (s : State) (i : Nat) (v : Fn) : (setFn s i v).mem = s.mem := rfl
@[simp] theorem setFn_wain (s : State) (i : Nat) (v : Fn) : (setFn s i v).wain = s.wain := rfl
@[simp] theorem setFn_glns (s : State) (i : Nat) (v : Fn) : (setFn s i v).glns = s.glns := rfl
@[simp] theorem setFn_stks (s : State) (i : Nat) (v : Fn) : (setFn s i v).stks = s.stks := rfl
@[simp] theorem setFn_cellars (s : State) (i : Nat) (v : Fn) : (setFn s i v).cellars = s.cellars := rfl
@[simp] theorem setFn_memTest (s : State) (i : Nat) (v : Fn) : (setFn s i v).memTest = s.memTest := rfl
@[simp] theorem setFn_place (s : State) (i : Nat) (v : Fn) : (setFn s i v).place = s.place := rfl
@[simp] theorem setFn_fab (s : State) (i : Nat) (v : Fn) : (setFn s i v).fab = s.fab := rfl
@[simp] theorem setFn_coll (s : State) (i : Nat) (v : Fn) : (setFn s i v).coll = s.coll := rfl
@[simp] theorem setFn_power (s : State) (i : Nat) (v : Fn) : (setFn s i v).power = s.power := rfl
@[simp] theorem setFn_heat (s : State) (i : Nat) (v : Fn) : (setFn s i v).heat = s.heat := rfl
@[simp] theorem setFn_keys (s : State) (i : Nat) (v : Fn) : (setFn s i v).keys = s.keys := rfl
@[simp] theorem setFn_faults (s : State) (i : Nat) (v : Fn) : (setFn s i v).faults = s.faults := rfl
@[simp] theorem setFn_fw (s : State) (i : Nat) (v : Fn) : (setFn s i v).fw = s.fw := rfl

/-! ## setBox -/

@[simp] theorem setBox_now (s : State) (i : Nat) (v : Mailbox) : (setBox s i v).now = s.now := rfl
@[simp] theorem setBox_powerUpAt (s : State) (i : Nat) (v : Mailbox) : (setBox s i v).powerUpAt = s.powerUpAt := rfl
@[simp] theorem setBox_pending (s : State) (i : Nat) (v : Mailbox) : (setBox s i v).pending = s.pending := rfl
@[simp] theorem setBox_freeCtr (s : State) (i : Nat) (v : Mailbox) : (setBox s i v).freeCtr = s.freeCtr := rfl
@[simp] theorem setBox_outbox (s : State) (i : Nat) (v : Mailbox) : (setBox s i v).outbox = s.outbox := rfl
@[simp] theorem setBox_fuses (s : State) (i : Nat) (v : Mailbox) : (setBox s i v).fuses = s.fuses := rfl
@[simp] theorem setBox_boot (s : State) (i : Nat) (v : Mailbox) : (setBox s i v).boot = s.boot := rfl
@[simp] theorem setBox_tick (s : State) (i : Nat) (v : Mailbox) : (setBox s i v).tick = s.tick := rfl
@[simp] theorem setBox_evt (s : State) (i : Nat) (v : Mailbox) : (setBox s i v).evt = s.evt := rfl
@[simp] theorem setBox_host (s : State) (i : Nat) (v : Mailbox) : (setBox s i v).host = s.host := rfl
@[simp] theorem setBox_eth (s : State) (i : Nat) (v : Mailbox) : (setBox s i v).eth = s.eth := rfl
@[simp] theorem setBox_sess (s : State) (i : Nat) (v : Mailbox) : (setBox s i v).sess = s.sess := rfl
@[simp] theorem setBox_tiles (s : State) (i : Nat) (v : Mailbox) : (setBox s i v).tiles = s.tiles := rfl
@[simp] theorem setBox_cores (s : State) (i : Nat) (v : Mailbox) : (setBox s i v).cores = s.cores := rfl
@[simp] theorem setBox_ccs (s : State) (i : Nat) (v : Mailbox) : (setBox s i v).ccs = s.ccs := rfl
@[simp] theorem setBox_mem (s : State) (i : Nat) (v : Mailbox) : (setBox s i v).mem = s.mem := rfl
@[simp] theorem setBox_wain (s : State) (i : Nat) (v : Mailbox) : (setBox s i v).wain = s.wain := rfl
@[simp] theorem setBox_glns (s : State) (i : Nat) (v : Mailbox) : (setBox s i v).glns = s.glns := rfl
@[simp] theorem setBox_stks (s : State) (i : Nat) (v : Mailbox) : (setBox s i v).stks = s.stks := rfl
@[simp] theorem setBox_cellars (s : State) (i : Nat) (v : Mailbox) : (setBox s i v).cellars = s.cellars := rfl
@[simp] theorem setBox_memTest (s : State) (i : Nat) (v : Mailbox) : (setBox s i v).memTest = s.memTest := rfl
@[simp] theorem setBox_place (s : State) (i : Nat) (v : Mailbox) : (setBox s i v).place = s.place := rfl
@[simp] theorem setBox_fab (s : State) (i : Nat) (v : Mailbox) : (setBox s i v).fab = s.fab := rfl
@[simp] theorem setBox_coll (s : State) (i : Nat) (v : Mailbox) : (setBox s i v).coll = s.coll := rfl
@[simp] theorem setBox_power (s : State) (i : Nat) (v : Mailbox) : (setBox s i v).power = s.power := rfl
@[simp] theorem setBox_heat (s : State) (i : Nat) (v : Mailbox) : (setBox s i v).heat = s.heat := rfl
@[simp] theorem setBox_keys (s : State) (i : Nat) (v : Mailbox) : (setBox s i v).keys = s.keys := rfl
@[simp] theorem setBox_faults (s : State) (i : Nat) (v : Mailbox) : (setBox s i v).faults = s.faults := rfl
@[simp] theorem setBox_fw (s : State) (i : Nat) (v : Mailbox) : (setBox s i v).fw = s.fw := rfl

/-! ## setHay -/

@[simp] theorem setHay_now (s : State) (i : Nat) (v : Hayward) : (setHay s i v).now = s.now := rfl
@[simp] theorem setHay_powerUpAt (s : State) (i : Nat) (v : Hayward) : (setHay s i v).powerUpAt = s.powerUpAt := rfl
@[simp] theorem setHay_pending (s : State) (i : Nat) (v : Hayward) : (setHay s i v).pending = s.pending := rfl
@[simp] theorem setHay_freeCtr (s : State) (i : Nat) (v : Hayward) : (setHay s i v).freeCtr = s.freeCtr := rfl
@[simp] theorem setHay_outbox (s : State) (i : Nat) (v : Hayward) : (setHay s i v).outbox = s.outbox := rfl
@[simp] theorem setHay_fuses (s : State) (i : Nat) (v : Hayward) : (setHay s i v).fuses = s.fuses := rfl
@[simp] theorem setHay_boot (s : State) (i : Nat) (v : Hayward) : (setHay s i v).boot = s.boot := rfl
@[simp] theorem setHay_tick (s : State) (i : Nat) (v : Hayward) : (setHay s i v).tick = s.tick := rfl
@[simp] theorem setHay_evt (s : State) (i : Nat) (v : Hayward) : (setHay s i v).evt = s.evt := rfl
@[simp] theorem setHay_host (s : State) (i : Nat) (v : Hayward) : (setHay s i v).host = s.host := rfl
@[simp] theorem setHay_eth (s : State) (i : Nat) (v : Hayward) : (setHay s i v).eth = s.eth := rfl
@[simp] theorem setHay_sess (s : State) (i : Nat) (v : Hayward) : (setHay s i v).sess = s.sess := rfl
@[simp] theorem setHay_tiles (s : State) (i : Nat) (v : Hayward) : (setHay s i v).tiles = s.tiles := rfl
@[simp] theorem setHay_cores (s : State) (i : Nat) (v : Hayward) : (setHay s i v).cores = s.cores := rfl
@[simp] theorem setHay_ccs (s : State) (i : Nat) (v : Hayward) : (setHay s i v).ccs = s.ccs := rfl
@[simp] theorem setHay_mem (s : State) (i : Nat) (v : Hayward) : (setHay s i v).mem = s.mem := rfl
@[simp] theorem setHay_wain (s : State) (i : Nat) (v : Hayward) : (setHay s i v).wain = s.wain := rfl
@[simp] theorem setHay_glns (s : State) (i : Nat) (v : Hayward) : (setHay s i v).glns = s.glns := rfl
@[simp] theorem setHay_stks (s : State) (i : Nat) (v : Hayward) : (setHay s i v).stks = s.stks := rfl
@[simp] theorem setHay_cellars (s : State) (i : Nat) (v : Hayward) : (setHay s i v).cellars = s.cellars := rfl
@[simp] theorem setHay_memTest (s : State) (i : Nat) (v : Hayward) : (setHay s i v).memTest = s.memTest := rfl
@[simp] theorem setHay_place (s : State) (i : Nat) (v : Hayward) : (setHay s i v).place = s.place := rfl
@[simp] theorem setHay_fab (s : State) (i : Nat) (v : Hayward) : (setHay s i v).fab = s.fab := rfl
@[simp] theorem setHay_coll (s : State) (i : Nat) (v : Hayward) : (setHay s i v).coll = s.coll := rfl
@[simp] theorem setHay_power (s : State) (i : Nat) (v : Hayward) : (setHay s i v).power = s.power := rfl
@[simp] theorem setHay_heat (s : State) (i : Nat) (v : Hayward) : (setHay s i v).heat = s.heat := rfl
@[simp] theorem setHay_keys (s : State) (i : Nat) (v : Hayward) : (setHay s i v).keys = s.keys := rfl
@[simp] theorem setHay_faults (s : State) (i : Nat) (v : Hayward) : (setHay s i v).faults = s.faults := rfl
@[simp] theorem setHay_fw (s : State) (i : Nat) (v : Hayward) : (setHay s i v).fw = s.fw := rfl

/-! ## setEvtBit -/

@[simp] theorem setEvtBit_now (s : State) (f n : Nat) (v : EvtBit) : (setEvtBit s f n v).now = s.now := rfl
@[simp] theorem setEvtBit_powerUpAt (s : State) (f n : Nat) (v : EvtBit) : (setEvtBit s f n v).powerUpAt = s.powerUpAt := rfl
@[simp] theorem setEvtBit_pending (s : State) (f n : Nat) (v : EvtBit) : (setEvtBit s f n v).pending = s.pending := rfl
@[simp] theorem setEvtBit_freeCtr (s : State) (f n : Nat) (v : EvtBit) : (setEvtBit s f n v).freeCtr = s.freeCtr := rfl
@[simp] theorem setEvtBit_outbox (s : State) (f n : Nat) (v : EvtBit) : (setEvtBit s f n v).outbox = s.outbox := rfl
@[simp] theorem setEvtBit_fuses (s : State) (f n : Nat) (v : EvtBit) : (setEvtBit s f n v).fuses = s.fuses := rfl
@[simp] theorem setEvtBit_boot (s : State) (f n : Nat) (v : EvtBit) : (setEvtBit s f n v).boot = s.boot := rfl
@[simp] theorem setEvtBit_tick (s : State) (f n : Nat) (v : EvtBit) : (setEvtBit s f n v).tick = s.tick := rfl
@[simp] theorem setEvtBit_host (s : State) (f n : Nat) (v : EvtBit) : (setEvtBit s f n v).host = s.host := rfl
@[simp] theorem setEvtBit_eth (s : State) (f n : Nat) (v : EvtBit) : (setEvtBit s f n v).eth = s.eth := rfl
@[simp] theorem setEvtBit_mbx (s : State) (f n : Nat) (v : EvtBit) : (setEvtBit s f n v).mbx = s.mbx := rfl
@[simp] theorem setEvtBit_sess (s : State) (f n : Nat) (v : EvtBit) : (setEvtBit s f n v).sess = s.sess := rfl
@[simp] theorem setEvtBit_tiles (s : State) (f n : Nat) (v : EvtBit) : (setEvtBit s f n v).tiles = s.tiles := rfl
@[simp] theorem setEvtBit_cores (s : State) (f n : Nat) (v : EvtBit) : (setEvtBit s f n v).cores = s.cores := rfl
@[simp] theorem setEvtBit_ccs (s : State) (f n : Nat) (v : EvtBit) : (setEvtBit s f n v).ccs = s.ccs := rfl
@[simp] theorem setEvtBit_mem (s : State) (f n : Nat) (v : EvtBit) : (setEvtBit s f n v).mem = s.mem := rfl
@[simp] theorem setEvtBit_wain (s : State) (f n : Nat) (v : EvtBit) : (setEvtBit s f n v).wain = s.wain := rfl
@[simp] theorem setEvtBit_glns (s : State) (f n : Nat) (v : EvtBit) : (setEvtBit s f n v).glns = s.glns := rfl
@[simp] theorem setEvtBit_stks (s : State) (f n : Nat) (v : EvtBit) : (setEvtBit s f n v).stks = s.stks := rfl
@[simp] theorem setEvtBit_cellars (s : State) (f n : Nat) (v : EvtBit) : (setEvtBit s f n v).cellars = s.cellars := rfl
@[simp] theorem setEvtBit_memTest (s : State) (f n : Nat) (v : EvtBit) : (setEvtBit s f n v).memTest = s.memTest := rfl
@[simp] theorem setEvtBit_place (s : State) (f n : Nat) (v : EvtBit) : (setEvtBit s f n v).place = s.place := rfl
@[simp] theorem setEvtBit_fab (s : State) (f n : Nat) (v : EvtBit) : (setEvtBit s f n v).fab = s.fab := rfl
@[simp] theorem setEvtBit_coll (s : State) (f n : Nat) (v : EvtBit) : (setEvtBit s f n v).coll = s.coll := rfl
@[simp] theorem setEvtBit_power (s : State) (f n : Nat) (v : EvtBit) : (setEvtBit s f n v).power = s.power := rfl
@[simp] theorem setEvtBit_heat (s : State) (f n : Nat) (v : EvtBit) : (setEvtBit s f n v).heat = s.heat := rfl
@[simp] theorem setEvtBit_keys (s : State) (f n : Nat) (v : EvtBit) : (setEvtBit s f n v).keys = s.keys := rfl
@[simp] theorem setEvtBit_faults (s : State) (f n : Nat) (v : EvtBit) : (setEvtBit s f n v).faults = s.faults := rfl
@[simp] theorem setEvtBit_fw (s : State) (f n : Nat) (v : EvtBit) : (setEvtBit s f n v).fw = s.fw := rfl

/-! ## setCfg -/

@[simp] theorem setCfg_now (s : State) (i k v : Nat) : (setCfg s i k v).now = s.now := rfl
@[simp] theorem setCfg_powerUpAt (s : State) (i k v : Nat) : (setCfg s i k v).powerUpAt = s.powerUpAt := rfl
@[simp] theorem setCfg_pending (s : State) (i k v : Nat) : (setCfg s i k v).pending = s.pending := rfl
@[simp] theorem setCfg_freeCtr (s : State) (i k v : Nat) : (setCfg s i k v).freeCtr = s.freeCtr := rfl
@[simp] theorem setCfg_outbox (s : State) (i k v : Nat) : (setCfg s i k v).outbox = s.outbox := rfl
@[simp] theorem setCfg_fuses (s : State) (i k v : Nat) : (setCfg s i k v).fuses = s.fuses := rfl
@[simp] theorem setCfg_boot (s : State) (i k v : Nat) : (setCfg s i k v).boot = s.boot := rfl
@[simp] theorem setCfg_tick (s : State) (i k v : Nat) : (setCfg s i k v).tick = s.tick := rfl
@[simp] theorem setCfg_evt (s : State) (i k v : Nat) : (setCfg s i k v).evt = s.evt := rfl
@[simp] theorem setCfg_host (s : State) (i k v : Nat) : (setCfg s i k v).host = s.host := rfl
@[simp] theorem setCfg_eth (s : State) (i k v : Nat) : (setCfg s i k v).eth = s.eth := rfl
@[simp] theorem setCfg_mbx (s : State) (i k v : Nat) : (setCfg s i k v).mbx = s.mbx := rfl
@[simp] theorem setCfg_tiles (s : State) (i k v : Nat) : (setCfg s i k v).tiles = s.tiles := rfl
@[simp] theorem setCfg_cores (s : State) (i k v : Nat) : (setCfg s i k v).cores = s.cores := rfl
@[simp] theorem setCfg_ccs (s : State) (i k v : Nat) : (setCfg s i k v).ccs = s.ccs := rfl
@[simp] theorem setCfg_mem (s : State) (i k v : Nat) : (setCfg s i k v).mem = s.mem := rfl
@[simp] theorem setCfg_wain (s : State) (i k v : Nat) : (setCfg s i k v).wain = s.wain := rfl
@[simp] theorem setCfg_glns (s : State) (i k v : Nat) : (setCfg s i k v).glns = s.glns := rfl
@[simp] theorem setCfg_stks (s : State) (i k v : Nat) : (setCfg s i k v).stks = s.stks := rfl
@[simp] theorem setCfg_cellars (s : State) (i k v : Nat) : (setCfg s i k v).cellars = s.cellars := rfl
@[simp] theorem setCfg_memTest (s : State) (i k v : Nat) : (setCfg s i k v).memTest = s.memTest := rfl
@[simp] theorem setCfg_place (s : State) (i k v : Nat) : (setCfg s i k v).place = s.place := rfl
@[simp] theorem setCfg_fab (s : State) (i k v : Nat) : (setCfg s i k v).fab = s.fab := rfl
@[simp] theorem setCfg_coll (s : State) (i k v : Nat) : (setCfg s i k v).coll = s.coll := rfl
@[simp] theorem setCfg_power (s : State) (i k v : Nat) : (setCfg s i k v).power = s.power := rfl
@[simp] theorem setCfg_heat (s : State) (i k v : Nat) : (setCfg s i k v).heat = s.heat := rfl
@[simp] theorem setCfg_keys (s : State) (i k v : Nat) : (setCfg s i k v).keys = s.keys := rfl
@[simp] theorem setCfg_faults (s : State) (i k v : Nat) : (setCfg s i k v).faults = s.faults := rfl
@[simp] theorem setCfg_fw (s : State) (i k v : Nat) : (setCfg s i k v).fw = s.fw := rfl

/-! ## stage -/

@[simp] theorem stage_now (s : State) (n : Option Nat) (c : Change) : (stage s n c).now = s.now := rfl
@[simp] theorem stage_powerUpAt (s : State) (n : Option Nat) (c : Change) : (stage s n c).powerUpAt = s.powerUpAt := rfl
@[simp] theorem stage_pending (s : State) (n : Option Nat) (c : Change) : (stage s n c).pending = s.pending := rfl
@[simp] theorem stage_freeCtr (s : State) (n : Option Nat) (c : Change) : (stage s n c).freeCtr = s.freeCtr := rfl
@[simp] theorem stage_outbox (s : State) (n : Option Nat) (c : Change) : (stage s n c).outbox = s.outbox := rfl
@[simp] theorem stage_fuses (s : State) (n : Option Nat) (c : Change) : (stage s n c).fuses = s.fuses := rfl
@[simp] theorem stage_boot (s : State) (n : Option Nat) (c : Change) : (stage s n c).boot = s.boot := rfl
@[simp] theorem stage_tick (s : State) (n : Option Nat) (c : Change) : (stage s n c).tick = s.tick := rfl
@[simp] theorem stage_evt (s : State) (n : Option Nat) (c : Change) : (stage s n c).evt = s.evt := rfl
@[simp] theorem stage_host (s : State) (n : Option Nat) (c : Change) : (stage s n c).host = s.host := rfl
@[simp] theorem stage_eth (s : State) (n : Option Nat) (c : Change) : (stage s n c).eth = s.eth := rfl
@[simp] theorem stage_mbx (s : State) (n : Option Nat) (c : Change) : (stage s n c).mbx = s.mbx := rfl
@[simp] theorem stage_tiles (s : State) (n : Option Nat) (c : Change) : (stage s n c).tiles = s.tiles := rfl
@[simp] theorem stage_cores (s : State) (n : Option Nat) (c : Change) : (stage s n c).cores = s.cores := rfl
@[simp] theorem stage_ccs (s : State) (n : Option Nat) (c : Change) : (stage s n c).ccs = s.ccs := rfl
@[simp] theorem stage_mem (s : State) (n : Option Nat) (c : Change) : (stage s n c).mem = s.mem := rfl
@[simp] theorem stage_wain (s : State) (n : Option Nat) (c : Change) : (stage s n c).wain = s.wain := rfl
@[simp] theorem stage_glns (s : State) (n : Option Nat) (c : Change) : (stage s n c).glns = s.glns := rfl
@[simp] theorem stage_stks (s : State) (n : Option Nat) (c : Change) : (stage s n c).stks = s.stks := rfl
@[simp] theorem stage_cellars (s : State) (n : Option Nat) (c : Change) : (stage s n c).cellars = s.cellars := rfl
@[simp] theorem stage_memTest (s : State) (n : Option Nat) (c : Change) : (stage s n c).memTest = s.memTest := rfl
@[simp] theorem stage_place (s : State) (n : Option Nat) (c : Change) : (stage s n c).place = s.place := rfl
@[simp] theorem stage_fab (s : State) (n : Option Nat) (c : Change) : (stage s n c).fab = s.fab := rfl
@[simp] theorem stage_coll (s : State) (n : Option Nat) (c : Change) : (stage s n c).coll = s.coll := rfl
@[simp] theorem stage_power (s : State) (n : Option Nat) (c : Change) : (stage s n c).power = s.power := rfl
@[simp] theorem stage_heat (s : State) (n : Option Nat) (c : Change) : (stage s n c).heat = s.heat := rfl
@[simp] theorem stage_keys (s : State) (n : Option Nat) (c : Change) : (stage s n c).keys = s.keys := rfl
@[simp] theorem stage_faults (s : State) (n : Option Nat) (c : Change) : (stage s n c).faults = s.faults := rfl
@[simp] theorem stage_fw (s : State) (n : Option Nat) (c : Change) : (stage s n c).fw = s.fw := rfl

/-! ## faultLog -/

@[simp] theorem faultLog_now (s : State) (y p : Nat) (d : List Nat) : (faultLog s y p d).now = s.now := rfl
@[simp] theorem faultLog_powerUpAt (s : State) (y p : Nat) (d : List Nat) : (faultLog s y p d).powerUpAt = s.powerUpAt := rfl
@[simp] theorem faultLog_pending (s : State) (y p : Nat) (d : List Nat) : (faultLog s y p d).pending = s.pending := rfl
@[simp] theorem faultLog_freeCtr (s : State) (y p : Nat) (d : List Nat) : (faultLog s y p d).freeCtr = s.freeCtr := rfl
@[simp] theorem faultLog_outbox (s : State) (y p : Nat) (d : List Nat) : (faultLog s y p d).outbox = s.outbox := rfl
@[simp] theorem faultLog_fuses (s : State) (y p : Nat) (d : List Nat) : (faultLog s y p d).fuses = s.fuses := rfl
@[simp] theorem faultLog_boot (s : State) (y p : Nat) (d : List Nat) : (faultLog s y p d).boot = s.boot := rfl
@[simp] theorem faultLog_tick (s : State) (y p : Nat) (d : List Nat) : (faultLog s y p d).tick = s.tick := rfl
@[simp] theorem faultLog_evt (s : State) (y p : Nat) (d : List Nat) : (faultLog s y p d).evt = s.evt := rfl
@[simp] theorem faultLog_host (s : State) (y p : Nat) (d : List Nat) : (faultLog s y p d).host = s.host := rfl
@[simp] theorem faultLog_eth (s : State) (y p : Nat) (d : List Nat) : (faultLog s y p d).eth = s.eth := rfl
@[simp] theorem faultLog_mbx (s : State) (y p : Nat) (d : List Nat) : (faultLog s y p d).mbx = s.mbx := rfl
@[simp] theorem faultLog_sess (s : State) (y p : Nat) (d : List Nat) : (faultLog s y p d).sess = s.sess := rfl
@[simp] theorem faultLog_tiles (s : State) (y p : Nat) (d : List Nat) : (faultLog s y p d).tiles = s.tiles := rfl
@[simp] theorem faultLog_cores (s : State) (y p : Nat) (d : List Nat) : (faultLog s y p d).cores = s.cores := rfl
@[simp] theorem faultLog_ccs (s : State) (y p : Nat) (d : List Nat) : (faultLog s y p d).ccs = s.ccs := rfl
@[simp] theorem faultLog_mem (s : State) (y p : Nat) (d : List Nat) : (faultLog s y p d).mem = s.mem := rfl
@[simp] theorem faultLog_wain (s : State) (y p : Nat) (d : List Nat) : (faultLog s y p d).wain = s.wain := rfl
@[simp] theorem faultLog_glns (s : State) (y p : Nat) (d : List Nat) : (faultLog s y p d).glns = s.glns := rfl
@[simp] theorem faultLog_stks (s : State) (y p : Nat) (d : List Nat) : (faultLog s y p d).stks = s.stks := rfl
@[simp] theorem faultLog_cellars (s : State) (y p : Nat) (d : List Nat) : (faultLog s y p d).cellars = s.cellars := rfl
@[simp] theorem faultLog_memTest (s : State) (y p : Nat) (d : List Nat) : (faultLog s y p d).memTest = s.memTest := rfl
@[simp] theorem faultLog_place (s : State) (y p : Nat) (d : List Nat) : (faultLog s y p d).place = s.place := rfl
@[simp] theorem faultLog_fab (s : State) (y p : Nat) (d : List Nat) : (faultLog s y p d).fab = s.fab := rfl
@[simp] theorem faultLog_coll (s : State) (y p : Nat) (d : List Nat) : (faultLog s y p d).coll = s.coll := rfl
@[simp] theorem faultLog_power (s : State) (y p : Nat) (d : List Nat) : (faultLog s y p d).power = s.power := rfl
@[simp] theorem faultLog_heat (s : State) (y p : Nat) (d : List Nat) : (faultLog s y p d).heat = s.heat := rfl
@[simp] theorem faultLog_keys (s : State) (y p : Nat) (d : List Nat) : (faultLog s y p d).keys = s.keys := rfl
@[simp] theorem faultLog_fw (s : State) (y p : Nat) (d : List Nat) : (faultLog s y p d).fw = s.fw := rfl

/-! ## spadWrite -/

@[simp] theorem spadWrite_now (s : State) (i o : Nat) (b : List Byte) : (spadWrite s i o b).now = s.now := rfl
@[simp] theorem spadWrite_powerUpAt (s : State) (i o : Nat) (b : List Byte) : (spadWrite s i o b).powerUpAt = s.powerUpAt := rfl
@[simp] theorem spadWrite_pending (s : State) (i o : Nat) (b : List Byte) : (spadWrite s i o b).pending = s.pending := rfl
@[simp] theorem spadWrite_freeCtr (s : State) (i o : Nat) (b : List Byte) : (spadWrite s i o b).freeCtr = s.freeCtr := rfl
@[simp] theorem spadWrite_outbox (s : State) (i o : Nat) (b : List Byte) : (spadWrite s i o b).outbox = s.outbox := rfl
@[simp] theorem spadWrite_fuses (s : State) (i o : Nat) (b : List Byte) : (spadWrite s i o b).fuses = s.fuses := rfl
@[simp] theorem spadWrite_boot (s : State) (i o : Nat) (b : List Byte) : (spadWrite s i o b).boot = s.boot := rfl
@[simp] theorem spadWrite_tick (s : State) (i o : Nat) (b : List Byte) : (spadWrite s i o b).tick = s.tick := rfl
@[simp] theorem spadWrite_evt (s : State) (i o : Nat) (b : List Byte) : (spadWrite s i o b).evt = s.evt := rfl
@[simp] theorem spadWrite_host (s : State) (i o : Nat) (b : List Byte) : (spadWrite s i o b).host = s.host := rfl
@[simp] theorem spadWrite_eth (s : State) (i o : Nat) (b : List Byte) : (spadWrite s i o b).eth = s.eth := rfl
@[simp] theorem spadWrite_mbx (s : State) (i o : Nat) (b : List Byte) : (spadWrite s i o b).mbx = s.mbx := rfl
@[simp] theorem spadWrite_sess (s : State) (i o : Nat) (b : List Byte) : (spadWrite s i o b).sess = s.sess := rfl
@[simp] theorem spadWrite_tiles (s : State) (i o : Nat) (b : List Byte) : (spadWrite s i o b).tiles = s.tiles := rfl
@[simp] theorem spadWrite_cores (s : State) (i o : Nat) (b : List Byte) : (spadWrite s i o b).cores = s.cores := rfl
@[simp] theorem spadWrite_ccs (s : State) (i o : Nat) (b : List Byte) : (spadWrite s i o b).ccs = s.ccs := rfl
@[simp] theorem spadWrite_wain (s : State) (i o : Nat) (b : List Byte) : (spadWrite s i o b).wain = s.wain := rfl
@[simp] theorem spadWrite_glns (s : State) (i o : Nat) (b : List Byte) : (spadWrite s i o b).glns = s.glns := rfl
@[simp] theorem spadWrite_stks (s : State) (i o : Nat) (b : List Byte) : (spadWrite s i o b).stks = s.stks := rfl
@[simp] theorem spadWrite_cellars (s : State) (i o : Nat) (b : List Byte) : (spadWrite s i o b).cellars = s.cellars := rfl
@[simp] theorem spadWrite_memTest (s : State) (i o : Nat) (b : List Byte) : (spadWrite s i o b).memTest = s.memTest := rfl
@[simp] theorem spadWrite_place (s : State) (i o : Nat) (b : List Byte) : (spadWrite s i o b).place = s.place := rfl
@[simp] theorem spadWrite_fab (s : State) (i o : Nat) (b : List Byte) : (spadWrite s i o b).fab = s.fab := rfl
@[simp] theorem spadWrite_coll (s : State) (i o : Nat) (b : List Byte) : (spadWrite s i o b).coll = s.coll := rfl
@[simp] theorem spadWrite_power (s : State) (i o : Nat) (b : List Byte) : (spadWrite s i o b).power = s.power := rfl
@[simp] theorem spadWrite_heat (s : State) (i o : Nat) (b : List Byte) : (spadWrite s i o b).heat = s.heat := rfl
@[simp] theorem spadWrite_keys (s : State) (i o : Nat) (b : List Byte) : (spadWrite s i o b).keys = s.keys := rfl
@[simp] theorem spadWrite_faults (s : State) (i o : Nat) (b : List Byte) : (spadWrite s i o b).faults = s.faults := rfl
@[simp] theorem spadWrite_fw (s : State) (i o : Nat) (b : List Byte) : (spadWrite s i o b).fw = s.fw := rfl

/-! ## stkWrite -/

@[simp] theorem stkWrite_now (s : State) (k a : Nat) (b : List Byte) : (stkWrite s k a b).now = s.now := rfl
@[simp] theorem stkWrite_powerUpAt (s : State) (k a : Nat) (b : List Byte) : (stkWrite s k a b).powerUpAt = s.powerUpAt := rfl
@[simp] theorem stkWrite_pending (s : State) (k a : Nat) (b : List Byte) : (stkWrite s k a b).pending = s.pending := rfl
@[simp] theorem stkWrite_freeCtr (s : State) (k a : Nat) (b : List Byte) : (stkWrite s k a b).freeCtr = s.freeCtr := rfl
@[simp] theorem stkWrite_outbox (s : State) (k a : Nat) (b : List Byte) : (stkWrite s k a b).outbox = s.outbox := rfl
@[simp] theorem stkWrite_fuses (s : State) (k a : Nat) (b : List Byte) : (stkWrite s k a b).fuses = s.fuses := rfl
@[simp] theorem stkWrite_boot (s : State) (k a : Nat) (b : List Byte) : (stkWrite s k a b).boot = s.boot := rfl
@[simp] theorem stkWrite_tick (s : State) (k a : Nat) (b : List Byte) : (stkWrite s k a b).tick = s.tick := rfl
@[simp] theorem stkWrite_evt (s : State) (k a : Nat) (b : List Byte) : (stkWrite s k a b).evt = s.evt := rfl
@[simp] theorem stkWrite_host (s : State) (k a : Nat) (b : List Byte) : (stkWrite s k a b).host = s.host := rfl
@[simp] theorem stkWrite_eth (s : State) (k a : Nat) (b : List Byte) : (stkWrite s k a b).eth = s.eth := rfl
@[simp] theorem stkWrite_mbx (s : State) (k a : Nat) (b : List Byte) : (stkWrite s k a b).mbx = s.mbx := rfl
@[simp] theorem stkWrite_sess (s : State) (k a : Nat) (b : List Byte) : (stkWrite s k a b).sess = s.sess := rfl
@[simp] theorem stkWrite_tiles (s : State) (k a : Nat) (b : List Byte) : (stkWrite s k a b).tiles = s.tiles := rfl
@[simp] theorem stkWrite_cores (s : State) (k a : Nat) (b : List Byte) : (stkWrite s k a b).cores = s.cores := rfl
@[simp] theorem stkWrite_ccs (s : State) (k a : Nat) (b : List Byte) : (stkWrite s k a b).ccs = s.ccs := rfl
@[simp] theorem stkWrite_wain (s : State) (k a : Nat) (b : List Byte) : (stkWrite s k a b).wain = s.wain := rfl
@[simp] theorem stkWrite_glns (s : State) (k a : Nat) (b : List Byte) : (stkWrite s k a b).glns = s.glns := rfl
@[simp] theorem stkWrite_stks (s : State) (k a : Nat) (b : List Byte) : (stkWrite s k a b).stks = s.stks := rfl
@[simp] theorem stkWrite_cellars (s : State) (k a : Nat) (b : List Byte) : (stkWrite s k a b).cellars = s.cellars := rfl
@[simp] theorem stkWrite_memTest (s : State) (k a : Nat) (b : List Byte) : (stkWrite s k a b).memTest = s.memTest := rfl
@[simp] theorem stkWrite_place (s : State) (k a : Nat) (b : List Byte) : (stkWrite s k a b).place = s.place := rfl
@[simp] theorem stkWrite_fab (s : State) (k a : Nat) (b : List Byte) : (stkWrite s k a b).fab = s.fab := rfl
@[simp] theorem stkWrite_coll (s : State) (k a : Nat) (b : List Byte) : (stkWrite s k a b).coll = s.coll := rfl
@[simp] theorem stkWrite_power (s : State) (k a : Nat) (b : List Byte) : (stkWrite s k a b).power = s.power := rfl
@[simp] theorem stkWrite_heat (s : State) (k a : Nat) (b : List Byte) : (stkWrite s k a b).heat = s.heat := rfl
@[simp] theorem stkWrite_keys (s : State) (k a : Nat) (b : List Byte) : (stkWrite s k a b).keys = s.keys := rfl
@[simp] theorem stkWrite_faults (s : State) (k a : Nat) (b : List Byte) : (stkWrite s k a b).faults = s.faults := rfl
@[simp] theorem stkWrite_fw (s : State) (k a : Nat) (b : List Byte) : (stkWrite s k a b).fw = s.fw := rfl

/-! ## stkZero -/

@[simp] theorem stkZero_now (s : State) (k a n : Nat) : (stkZero s k a n).now = s.now := rfl
@[simp] theorem stkZero_powerUpAt (s : State) (k a n : Nat) : (stkZero s k a n).powerUpAt = s.powerUpAt := rfl
@[simp] theorem stkZero_pending (s : State) (k a n : Nat) : (stkZero s k a n).pending = s.pending := rfl
@[simp] theorem stkZero_freeCtr (s : State) (k a n : Nat) : (stkZero s k a n).freeCtr = s.freeCtr := rfl
@[simp] theorem stkZero_outbox (s : State) (k a n : Nat) : (stkZero s k a n).outbox = s.outbox := rfl
@[simp] theorem stkZero_fuses (s : State) (k a n : Nat) : (stkZero s k a n).fuses = s.fuses := rfl
@[simp] theorem stkZero_boot (s : State) (k a n : Nat) : (stkZero s k a n).boot = s.boot := rfl
@[simp] theorem stkZero_tick (s : State) (k a n : Nat) : (stkZero s k a n).tick = s.tick := rfl
@[simp] theorem stkZero_evt (s : State) (k a n : Nat) : (stkZero s k a n).evt = s.evt := rfl
@[simp] theorem stkZero_host (s : State) (k a n : Nat) : (stkZero s k a n).host = s.host := rfl
@[simp] theorem stkZero_eth (s : State) (k a n : Nat) : (stkZero s k a n).eth = s.eth := rfl
@[simp] theorem stkZero_mbx (s : State) (k a n : Nat) : (stkZero s k a n).mbx = s.mbx := rfl
@[simp] theorem stkZero_sess (s : State) (k a n : Nat) : (stkZero s k a n).sess = s.sess := rfl
@[simp] theorem stkZero_tiles (s : State) (k a n : Nat) : (stkZero s k a n).tiles = s.tiles := rfl
@[simp] theorem stkZero_cores (s : State) (k a n : Nat) : (stkZero s k a n).cores = s.cores := rfl
@[simp] theorem stkZero_ccs (s : State) (k a n : Nat) : (stkZero s k a n).ccs = s.ccs := rfl
@[simp] theorem stkZero_wain (s : State) (k a n : Nat) : (stkZero s k a n).wain = s.wain := rfl
@[simp] theorem stkZero_glns (s : State) (k a n : Nat) : (stkZero s k a n).glns = s.glns := rfl
@[simp] theorem stkZero_stks (s : State) (k a n : Nat) : (stkZero s k a n).stks = s.stks := rfl
@[simp] theorem stkZero_cellars (s : State) (k a n : Nat) : (stkZero s k a n).cellars = s.cellars := rfl
@[simp] theorem stkZero_memTest (s : State) (k a n : Nat) : (stkZero s k a n).memTest = s.memTest := rfl
@[simp] theorem stkZero_place (s : State) (k a n : Nat) : (stkZero s k a n).place = s.place := rfl
@[simp] theorem stkZero_fab (s : State) (k a n : Nat) : (stkZero s k a n).fab = s.fab := rfl
@[simp] theorem stkZero_coll (s : State) (k a n : Nat) : (stkZero s k a n).coll = s.coll := rfl
@[simp] theorem stkZero_power (s : State) (k a n : Nat) : (stkZero s k a n).power = s.power := rfl
@[simp] theorem stkZero_heat (s : State) (k a n : Nat) : (stkZero s k a n).heat = s.heat := rfl
@[simp] theorem stkZero_keys (s : State) (k a n : Nat) : (stkZero s k a n).keys = s.keys := rfl
@[simp] theorem stkZero_faults (s : State) (k a n : Nat) : (stkZero s k a n).faults = s.faults := rfl
@[simp] theorem stkZero_fw (s : State) (k a n : Nat) : (stkZero s k a n).fw = s.fw := rfl

/-! ## winWrite -/

@[simp] theorem winWrite_now (s : State) (f o : Nat) (b : List Byte) : (winWrite s f o b).now = s.now := rfl
@[simp] theorem winWrite_powerUpAt (s : State) (f o : Nat) (b : List Byte) : (winWrite s f o b).powerUpAt = s.powerUpAt := rfl
@[simp] theorem winWrite_pending (s : State) (f o : Nat) (b : List Byte) : (winWrite s f o b).pending = s.pending := rfl
@[simp] theorem winWrite_freeCtr (s : State) (f o : Nat) (b : List Byte) : (winWrite s f o b).freeCtr = s.freeCtr := rfl
@[simp] theorem winWrite_outbox (s : State) (f o : Nat) (b : List Byte) : (winWrite s f o b).outbox = s.outbox := rfl
@[simp] theorem winWrite_fuses (s : State) (f o : Nat) (b : List Byte) : (winWrite s f o b).fuses = s.fuses := rfl
@[simp] theorem winWrite_boot (s : State) (f o : Nat) (b : List Byte) : (winWrite s f o b).boot = s.boot := rfl
@[simp] theorem winWrite_tick (s : State) (f o : Nat) (b : List Byte) : (winWrite s f o b).tick = s.tick := rfl
@[simp] theorem winWrite_evt (s : State) (f o : Nat) (b : List Byte) : (winWrite s f o b).evt = s.evt := rfl
@[simp] theorem winWrite_host (s : State) (f o : Nat) (b : List Byte) : (winWrite s f o b).host = s.host := rfl
@[simp] theorem winWrite_eth (s : State) (f o : Nat) (b : List Byte) : (winWrite s f o b).eth = s.eth := rfl
@[simp] theorem winWrite_mbx (s : State) (f o : Nat) (b : List Byte) : (winWrite s f o b).mbx = s.mbx := rfl
@[simp] theorem winWrite_sess (s : State) (f o : Nat) (b : List Byte) : (winWrite s f o b).sess = s.sess := rfl
@[simp] theorem winWrite_tiles (s : State) (f o : Nat) (b : List Byte) : (winWrite s f o b).tiles = s.tiles := rfl
@[simp] theorem winWrite_cores (s : State) (f o : Nat) (b : List Byte) : (winWrite s f o b).cores = s.cores := rfl
@[simp] theorem winWrite_ccs (s : State) (f o : Nat) (b : List Byte) : (winWrite s f o b).ccs = s.ccs := rfl
@[simp] theorem winWrite_wain (s : State) (f o : Nat) (b : List Byte) : (winWrite s f o b).wain = s.wain := rfl
@[simp] theorem winWrite_glns (s : State) (f o : Nat) (b : List Byte) : (winWrite s f o b).glns = s.glns := rfl
@[simp] theorem winWrite_stks (s : State) (f o : Nat) (b : List Byte) : (winWrite s f o b).stks = s.stks := rfl
@[simp] theorem winWrite_cellars (s : State) (f o : Nat) (b : List Byte) : (winWrite s f o b).cellars = s.cellars := rfl
@[simp] theorem winWrite_memTest (s : State) (f o : Nat) (b : List Byte) : (winWrite s f o b).memTest = s.memTest := rfl
@[simp] theorem winWrite_place (s : State) (f o : Nat) (b : List Byte) : (winWrite s f o b).place = s.place := rfl
@[simp] theorem winWrite_fab (s : State) (f o : Nat) (b : List Byte) : (winWrite s f o b).fab = s.fab := rfl
@[simp] theorem winWrite_coll (s : State) (f o : Nat) (b : List Byte) : (winWrite s f o b).coll = s.coll := rfl
@[simp] theorem winWrite_power (s : State) (f o : Nat) (b : List Byte) : (winWrite s f o b).power = s.power := rfl
@[simp] theorem winWrite_heat (s : State) (f o : Nat) (b : List Byte) : (winWrite s f o b).heat = s.heat := rfl
@[simp] theorem winWrite_keys (s : State) (f o : Nat) (b : List Byte) : (winWrite s f o b).keys = s.keys := rfl
@[simp] theorem winWrite_faults (s : State) (f o : Nat) (b : List Byte) : (winWrite s f o b).faults = s.faults := rfl
@[simp] theorem winWrite_fw (s : State) (f o : Nat) (b : List Byte) : (winWrite s f o b).fw = s.fw := rfl

/-! ## ccSet -/

@[simp] theorem ccSet_now (s : State) (p c v : Nat) : (ccSet s p c v).now = s.now := rfl
@[simp] theorem ccSet_powerUpAt (s : State) (p c v : Nat) : (ccSet s p c v).powerUpAt = s.powerUpAt := rfl
@[simp] theorem ccSet_pending (s : State) (p c v : Nat) : (ccSet s p c v).pending = s.pending := rfl
@[simp] theorem ccSet_freeCtr (s : State) (p c v : Nat) : (ccSet s p c v).freeCtr = s.freeCtr := rfl
@[simp] theorem ccSet_outbox (s : State) (p c v : Nat) : (ccSet s p c v).outbox = s.outbox := rfl
@[simp] theorem ccSet_fuses (s : State) (p c v : Nat) : (ccSet s p c v).fuses = s.fuses := rfl
@[simp] theorem ccSet_boot (s : State) (p c v : Nat) : (ccSet s p c v).boot = s.boot := rfl
@[simp] theorem ccSet_tick (s : State) (p c v : Nat) : (ccSet s p c v).tick = s.tick := rfl
@[simp] theorem ccSet_evt (s : State) (p c v : Nat) : (ccSet s p c v).evt = s.evt := rfl
@[simp] theorem ccSet_host (s : State) (p c v : Nat) : (ccSet s p c v).host = s.host := rfl
@[simp] theorem ccSet_eth (s : State) (p c v : Nat) : (ccSet s p c v).eth = s.eth := rfl
@[simp] theorem ccSet_mbx (s : State) (p c v : Nat) : (ccSet s p c v).mbx = s.mbx := rfl
@[simp] theorem ccSet_sess (s : State) (p c v : Nat) : (ccSet s p c v).sess = s.sess := rfl
@[simp] theorem ccSet_tiles (s : State) (p c v : Nat) : (ccSet s p c v).tiles = s.tiles := rfl
@[simp] theorem ccSet_cores (s : State) (p c v : Nat) : (ccSet s p c v).cores = s.cores := rfl
@[simp] theorem ccSet_mem (s : State) (p c v : Nat) : (ccSet s p c v).mem = s.mem := rfl
@[simp] theorem ccSet_wain (s : State) (p c v : Nat) : (ccSet s p c v).wain = s.wain := rfl
@[simp] theorem ccSet_glns (s : State) (p c v : Nat) : (ccSet s p c v).glns = s.glns := rfl
@[simp] theorem ccSet_stks (s : State) (p c v : Nat) : (ccSet s p c v).stks = s.stks := rfl
@[simp] theorem ccSet_cellars (s : State) (p c v : Nat) : (ccSet s p c v).cellars = s.cellars := rfl
@[simp] theorem ccSet_memTest (s : State) (p c v : Nat) : (ccSet s p c v).memTest = s.memTest := rfl
@[simp] theorem ccSet_place (s : State) (p c v : Nat) : (ccSet s p c v).place = s.place := rfl
@[simp] theorem ccSet_fab (s : State) (p c v : Nat) : (ccSet s p c v).fab = s.fab := rfl
@[simp] theorem ccSet_coll (s : State) (p c v : Nat) : (ccSet s p c v).coll = s.coll := rfl
@[simp] theorem ccSet_power (s : State) (p c v : Nat) : (ccSet s p c v).power = s.power := rfl
@[simp] theorem ccSet_heat (s : State) (p c v : Nat) : (ccSet s p c v).heat = s.heat := rfl
@[simp] theorem ccSet_keys (s : State) (p c v : Nat) : (ccSet s p c v).keys = s.keys := rfl
@[simp] theorem ccSet_faults (s : State) (p c v : Nat) : (ccSet s p c v).faults = s.faults := rfl
@[simp] theorem ccSet_fw (s : State) (p c v : Nat) : (ccSet s p c v).fw = s.fw := rfl

/-! ## sysErrInc -/

@[simp] theorem sysErrInc_now (s : State) (f : Nat) : (sysErrInc s f).now = s.now := rfl
@[simp] theorem sysErrInc_powerUpAt (s : State) (f : Nat) : (sysErrInc s f).powerUpAt = s.powerUpAt := rfl
@[simp] theorem sysErrInc_pending (s : State) (f : Nat) : (sysErrInc s f).pending = s.pending := rfl
@[simp] theorem sysErrInc_freeCtr (s : State) (f : Nat) : (sysErrInc s f).freeCtr = s.freeCtr := rfl
@[simp] theorem sysErrInc_outbox (s : State) (f : Nat) : (sysErrInc s f).outbox = s.outbox := rfl
@[simp] theorem sysErrInc_fuses (s : State) (f : Nat) : (sysErrInc s f).fuses = s.fuses := rfl
@[simp] theorem sysErrInc_boot (s : State) (f : Nat) : (sysErrInc s f).boot = s.boot := rfl
@[simp] theorem sysErrInc_tick (s : State) (f : Nat) : (sysErrInc s f).tick = s.tick := rfl
@[simp] theorem sysErrInc_evt (s : State) (f : Nat) : (sysErrInc s f).evt = s.evt := rfl
@[simp] theorem sysErrInc_eth (s : State) (f : Nat) : (sysErrInc s f).eth = s.eth := rfl
@[simp] theorem sysErrInc_mbx (s : State) (f : Nat) : (sysErrInc s f).mbx = s.mbx := rfl
@[simp] theorem sysErrInc_sess (s : State) (f : Nat) : (sysErrInc s f).sess = s.sess := rfl
@[simp] theorem sysErrInc_tiles (s : State) (f : Nat) : (sysErrInc s f).tiles = s.tiles := rfl
@[simp] theorem sysErrInc_cores (s : State) (f : Nat) : (sysErrInc s f).cores = s.cores := rfl
@[simp] theorem sysErrInc_ccs (s : State) (f : Nat) : (sysErrInc s f).ccs = s.ccs := rfl
@[simp] theorem sysErrInc_mem (s : State) (f : Nat) : (sysErrInc s f).mem = s.mem := rfl
@[simp] theorem sysErrInc_wain (s : State) (f : Nat) : (sysErrInc s f).wain = s.wain := rfl
@[simp] theorem sysErrInc_glns (s : State) (f : Nat) : (sysErrInc s f).glns = s.glns := rfl
@[simp] theorem sysErrInc_stks (s : State) (f : Nat) : (sysErrInc s f).stks = s.stks := rfl
@[simp] theorem sysErrInc_cellars (s : State) (f : Nat) : (sysErrInc s f).cellars = s.cellars := rfl
@[simp] theorem sysErrInc_memTest (s : State) (f : Nat) : (sysErrInc s f).memTest = s.memTest := rfl
@[simp] theorem sysErrInc_place (s : State) (f : Nat) : (sysErrInc s f).place = s.place := rfl
@[simp] theorem sysErrInc_fab (s : State) (f : Nat) : (sysErrInc s f).fab = s.fab := rfl
@[simp] theorem sysErrInc_coll (s : State) (f : Nat) : (sysErrInc s f).coll = s.coll := rfl
@[simp] theorem sysErrInc_power (s : State) (f : Nat) : (sysErrInc s f).power = s.power := rfl
@[simp] theorem sysErrInc_heat (s : State) (f : Nat) : (sysErrInc s f).heat = s.heat := rfl
@[simp] theorem sysErrInc_keys (s : State) (f : Nat) : (sysErrInc s f).keys = s.keys := rfl
@[simp] theorem sysErrInc_faults (s : State) (f : Nat) : (sysErrInc s f).faults = s.faults := rfl
@[simp] theorem sysErrInc_fw (s : State) (f : Nat) : (sysErrInc s f).fw = s.fw := rfl

/-! ## What they set -/

@[simp] theorem clock_now (s : State) (t : Nat) : (s.clock t).now = max s.now t := rfl
@[simp] theorem emit_outbox (s : State) (o : Output) : (s.emit o).outbox = o :: s.outbox := rfl
@[simp] theorem drawn_freeCtr (s : State) : s.drawn.freeCtr = s.freeCtr + 1 := rfl

end Sys2Proof.Machine
end

