-- ==== Sys2Proof/Laws/Memory.lean ====
section
/-!
SUPPORT. Laws/Memory.lean: the canonical form of the memories (log 5), at reset and after every memory operation, and what
each operation leaves of the bytes it does not write.
-/
namespace Sys2Proof.Machine

/-! ## The canonical form, as a proposition -/

theorem rising_cons (a : Host.Cell) (m : List Host.Cell) :
    rising (a :: m) = ((match m with | [] => true | b :: _ => decide (a.1 < b.1)) && rising m) := by
  cases m with
  | nil => simp [rising]
  | cons b r => simp [rising]

theorem rising_iff (m : List Host.Cell) : rising m = true ↔ Rising m := by
  induction m with
  | nil => simp [rising, Rising]
  | cons a r ih =>
    rw [rising_cons, Bool.and_eq_true, ih]
    cases r with
    | nil => simp [Rising]
    | cons b q =>
      constructor
      · rintro ⟨h, hr⟩
        have hab : a.1 < b.1 := by simpa using h
        refine List.pairwise_cons.2 ⟨fun e he => ?_, hr⟩
        rcases List.mem_cons.1 he with he | he
        · exact he ▸ hab
        · exact Nat.lt_trans hab ((List.pairwise_cons.1 hr).1 e he)
      · intro h
        have h' := List.pairwise_cons.1 h
        exact ⟨by simpa using h'.1 b List.mem_cons_self, h'.2⟩

/-- The scratchpads' part of the form. -/
abbrev SpadCanonical (m : Mem) : Prop := Rising m.spad ∧ ∀ e ∈ m.spad, e.2 ≠ spadDefault m e.1

theorem wf_iff (m : Mem) : Memory.wf m = true ↔ SpadCanonical m ∧ Canonical m.stk ∧ Canonical m.win := by
  simp only [Memory.wf, Bool.and_eq_true, rising_iff, List.all_eq_true, bne_iff_ne]
  constructor
  · rintro ⟨⟨⟨⟨⟨h1, h2⟩, h3⟩, h4⟩, h5⟩, h6⟩; exact ⟨⟨h1, h2⟩, ⟨h3, h4⟩, ⟨h5, h6⟩⟩
  · rintro ⟨⟨h1, h2⟩, ⟨h3, h4⟩, ⟨h5, h6⟩⟩; exact ⟨⟨⟨⟨⟨h1, h2⟩, h3⟩, h4⟩, h5⟩, h6⟩

theorem wf_reset : Memory.wf State.reset.mem = true := by decide

/-! ## Scratchpads -/

@[simp] theorem spadDefault_spadPut (m : Mem) (k x : Nat) (b : Byte) : spadDefault (spadPut m k b) x = spadDefault m x := rfl

theorem wf_spadPut (m : Mem) (k : Nat) (b : Byte) (h : Memory.wf m = true) : Memory.wf (spadPut m k b) = true := by
  obtain ⟨⟨h1, h2⟩, h3, h4⟩ := (wf_iff m).1 h
  refine (wf_iff _).2 ⟨⟨?_, fun e he => ?_⟩, h3, h4⟩
  · simp only [spadPut]; split
    · exact rising_mdel _ _ h1
    · exact rising_mset _ _ _ h1
  · rw [spadDefault_spadPut]
    simp only [spadPut] at he
    split at he
    · exact h2 e (List.mem_filter.1 he).1
    · rename_i hb
      rcases mem_mset _ _ _ _ he with he | he
      · subst he; exact hb
      · exact h2 e he

theorem wf_spadPuts (m : Mem) (k : Nat) (bs : List Byte) (h : Memory.wf m = true) : Memory.wf (spadPuts m k bs) = true := by
  induction bs generalizing m k with
  | nil => exact h
  | cons b r ih => exact ih _ _ (wf_spadPut m k b h)

theorem wf_spadPutSome (m : Mem) (k : Nat) (bs : List (Option Byte)) (h : Memory.wf m = true) :
    Memory.wf (spadPutSome m k bs) = true := by
  induction bs generalizing m k with
  | nil => exact h
  | cons b r ih =>
    cases b with
    | none => exact ih _ _ h
    | some b => exact ih _ _ (wf_spadPut m k b h)

theorem wf_spadWrite (s : State) (i o : Nat) (bs : List Byte) (h : Memory.wf s.mem = true) :
    Memory.wf (spadWrite s i o bs).mem = true := wf_spadPuts _ _ _ h

/-- A scratchpad byte reads back what was put there; every other byte is kept. -/
theorem spadByte_put (s : State) (m : Mem) (k x : Nat) (b : Byte) :
    spadByte { s with mem := spadPut m k b } x = if k = x then b else spadByte { s with mem := m } x := by
  have hd : ∀ y, spadDefault (spadPut m k b) y = spadDefault m y := fun _ => rfl
  simp only [spadByte, hd]
  by_cases hb : b = spadDefault m k
  · have hm : (spadPut m k b).spad = mdel m.spad k := if_pos hb
    rw [hm, mfind_mdel]
    by_cases hx : k = x
    · subst hx; simp [hb]
    · simp [hx]
  · have hm : (spadPut m k b).spad = mset m.spad k b := if_neg hb
    rw [hm, mfind_mset]
    by_cases hx : k = x
    · subst hx; simp
    · simp [hx]

theorem spadByte_puts_out (s : State) (m : Mem) (k x : Nat) (bs : List Byte) (h : x < k ∨ k + bs.length ≤ x) :
    spadByte { s with mem := spadPuts m k bs } x = spadByte { s with mem := m } x := by
  induction bs generalizing m k with
  | nil => rfl
  | cons b r ih =>
    simp only [List.length_cons] at h
    rw [spadPuts, ih _ _ (by omega), spadByte_put, if_neg (by omega)]

theorem spadByte_puts_in (s : State) (m : Mem) (k i : Nat) (bs : List Byte) (h : i < bs.length) :
    spadByte { s with mem := spadPuts m k bs } (k + i) = bs[i] := by
  induction bs generalizing m k i with
  | nil => simp at h
  | cons b r ih =>
    cases i with
    | zero =>
      show spadByte { s with mem := spadPuts (spadPut m k b) (k + 1) r } k = b
      rw [spadByte_puts_out _ _ _ _ _ (.inl (Nat.lt_succ_self k)), spadByte_put, if_pos rfl]
    | succ j =>
      have hj : j < r.length := by simpa using h
      rw [show k + (j + 1) = k + 1 + j by omega, spadPuts, ih (spadPut m k b) (k + 1) j hj]; simp

/-- A write of a scratchpad changes no byte outside it. -/
theorem spadByte_spadWrite_out (s : State) (i o x : Nat) (bs : List Byte)
    (h : x < spadBytes * i + o ∨ spadBytes * i + o + bs.length ≤ x) : spadByte (spadWrite s i o bs) x = spadByte s x :=
  spadByte_puts_out s s.mem _ x bs h

/-- A write of a scratchpad reads back. -/
theorem spadByte_spadWrite_in (s : State) (i o j : Nat) (bs : List Byte) (h : j < bs.length) :
    spadByte (spadWrite s i o bs) (spadBytes * i + o + j) = bs[j] :=
  spadByte_puts_in s s.mem _ j bs h

/-! ## Stacks and windows -/

theorem wf_stkWrite (s : State) (k a : Nat) (bs : List Byte) (h : Memory.wf s.mem = true) :
    Memory.wf (stkWrite s k a bs).mem = true := by
  obtain ⟨h1, h2, h3⟩ := (wf_iff _).1 h
  exact (wf_iff _).2 ⟨h1, canonical_memPuts _ _ _ h2, h3⟩

theorem wf_stkZero (s : State) (k a n : Nat) (h : Memory.wf s.mem = true) : Memory.wf (stkZero s k a n).mem = true := by
  obtain ⟨h1, h2, h3⟩ := (wf_iff _).1 h
  exact (wf_iff _).2 ⟨h1, canonical_memZero _ _ _ h2, h3⟩

theorem wf_winWrite (s : State) (f o : Nat) (bs : List Byte) (h : Memory.wf s.mem = true) :
    Memory.wf (winWrite s f o bs).mem = true := by
  obtain ⟨h1, h2, h3⟩ := (wf_iff _).1 h
  exact (wf_iff _).2 ⟨h1, h2, canonical_memPuts _ _ _ h3⟩

theorem stkRead_stkWrite_self (s : State) (k a : Nat) (bs : List Byte) :
    stkRead (stkWrite s k a bs) k a bs.length = bs := memBytes_memPuts_self _ _ _

theorem stkRead_stkWrite_out (s : State) (k a j x n : Nat) (bs : List Byte)
    (h : stkKey j x + n ≤ stkKey k a ∨ stkKey k a + bs.length ≤ stkKey j x) :
    stkRead (stkWrite s k a bs) j x n = stkRead s j x n := memBytes_memPuts_out _ _ _ _ _ h

theorem winRead_winWrite_self (s : State) (f o : Nat) (bs : List Byte) :
    winRead (winWrite s f o bs) f o bs.length = bs := memBytes_memPuts_self _ _ _

theorem winRead_winWrite_out (s : State) (f o g x n : Nat) (bs : List Byte)
    (h : 65536 * g + x + n ≤ 65536 * f + o ∨ 65536 * f + o + bs.length ≤ 65536 * g + x) :
    winRead (winWrite s f o bs) g x n = winRead s g x n := memBytes_memPuts_out _ _ _ _ _ h

/-! ## What a reset does to the memories -/

theorem mfind_foldl_mset_ne {α : Type} (l : List Nat) (v : SMap α → Nat → α) (m : SMap α) (x : Nat) (h : x ∉ l) :
    mfind (l.foldl (fun m i => mset m i (v m i)) m) x = mfind m x := by
  induction l generalizing m with
  | nil => rfl
  | cons a r ih =>
    rw [List.foldl_cons, ih _ (fun hx => h (List.mem_cons_of_mem _ hx)), mfind_mset,
      if_neg (fun (e : a = x) => h (e ▸ List.mem_cons_self))]

theorem mem_tilesOf (p i : Nat) (h : i ∈ tilesOf p) : partOfTile i = p := by
  simp only [tilesOf, span, List.mem_map, List.mem_range] at h
  obtain ⟨j, hj, rfl⟩ := h
  simp only [partOfTile]; omega

theorem mfind_mkeep {α : Type} (m : SMap α) (q : Nat → Bool) (x : Nat) (h : q x = true) :
    mfind (mkeep m (fun k _ => q k)) x = mfind m x := by
  induction m with
  | nil => rfl
  | cons e r ih =>
    obtain ⟨k, w⟩ := e
    simp only [mkeep, List.filter_cons] at ih ⊢
    by_cases hk : q k = true
    · simp only [hk, if_true, mfind, ih]
    · rw [if_neg hk, ih, mfind, if_neg (fun (e : k = x) => hk (e ▸ h))]

theorem wf_scrambleSpads (s : State) (p : Nat) (h : Memory.wf s.mem = true) :
    Memory.wf (scrambleSpads s p).mem = true := by
  obtain ⟨⟨h1, h2⟩, h3, h4⟩ := (wf_iff _).1 h
  refine (wf_iff _).2 ⟨⟨rising_filter _ _ h1, fun e he => ?_⟩, h3, h4⟩
  have he' := List.mem_filter.1 he
  have hp : partOfTile (e.1 / spadBytes) ≠ p := by simpa using he'.2
  have hd : spadDefault (scrambleSpads s p).mem e.1 = spadDefault s.mem e.1 := by
    simp only [spadDefault, scrambleSpads]
    rw [mfind_foldl_mset_ne _ _ _ _ (fun hm => hp (mem_tilesOf p _ hm))]
  rw [hd]; exact h2 e he'.1

theorem wf_clearSpads (s : State) (p : Nat) (h : Memory.wf s.mem = true) : Memory.wf (clearSpads s p).mem = true := by
  obtain ⟨⟨h1, h2⟩, h3, h4⟩ := (wf_iff _).1 h
  refine (wf_iff _).2 ⟨⟨rising_filter _ _ h1, fun e he => ?_⟩, h3, h4⟩
  have he' := List.mem_filter.1 he
  have hd : spadDefault (clearSpads s p).mem e.1 = spadDefault s.mem e.1 := by
    simp only [spadDefault, clearSpads]
    rw [mfind_mkeep _ (fun k => partOfTile k != p) _ he'.2]
  rw [hd]; exact h2 e he'.1

/-! ## The units' writes -/

theorem wf_putLine (s : State) (k line : Nat) (bs : List Byte) (h : Memory.wf s.mem = true) :
    Memory.wf (putLine s k line bs).mem = true := wf_stkWrite s k _ bs h

theorem wf_zeroStack (m : Mem) (h : Memory.wf m = true) : Memory.wf { m with stk := [] } = true := by
  obtain ⟨h1, _, h3⟩ := (wf_iff _).1 h
  exact (wf_iff { m with stk := [] }).2 ⟨h1, canonical_nil, h3⟩

theorem wf_mmaRows (s : State) (i d : Nat) (l : List Nat) (x : Tile × Mem × BitVec 8) (h : Memory.wf x.2.1 = true) :
    Memory.wf (mmaRows s i d l x).2.1 = true := by
  induction l generalizing x with
  | nil => exact h
  | cons e r ih =>
    obtain ⟨t, m, fl⟩ := x
    simp only [mmaRows]
    split
    · split
      · exact ih _ h
      · exact ih _ (wf_spadPuts _ _ _ h)
    · exact ih _ h

theorem wf_glnPut (r : GlnRun) (g : GlnIn) (a : Int) (bs : List (Option Byte)) (h : Memory.wf r.st.mem = true) :
    Memory.wf (r.putSome g true a bs).st.mem = true := by
  simp only [GlnRun.putSome]
  split
  · exact h
  · simp only [if_true]
    generalize bs.zipIdx = l
    revert h
    generalize r.st.mem = m
    intro h
    induction l generalizing m with
    | nil => exact h
    | cons e q ih =>
      rw [List.foldl_cons]
      apply ih
      split
      · exact h
      · exact wf_spadPut _ _ _ h

end Sys2Proof.Machine
end

