-- ==== Sys2Proof/Laws/Ops.lean ====
section
/-!
SUPPORT. Laws/Ops.lean: what each shared operation can change, said once: an observer of State that is blind to the fields
the operation may write sees no change. The lemmas by field follow from it.
-/
namespace Sys2Proof.Machine

/-- A fold whose every step an observer does not see is not seen by it. -/
theorem foldl_keeps {α β : Type} (g : State → α) (f : State → β → State) (l : List β)
    (h : ∀ s x, g (f s x) = g s) (s : State) : g (l.foldl f s) = g s := by
  induction l generalizing s with
  | nil => rfl
  | cons x r ih => rw [List.foldl_cons, ih, h]

/-- A command's answer is always a next state. -/
theorem run_eq (t : Nat) (s : State) (f : State → State) :
    run t s f = .next { f (s.clock t) with now := max s.now t, powerUpAt := s.powerUpAt, pending := s.pending } := rfl

@[simp] theorem gate_true (f : State → State) (s : State) : gate true f s = f s := rfl
@[simp] theorem gate_false (f : State → State) (s : State) : gate false f s = s := rfl

/-! ## Events (14) -/

/-- An observer that sees neither the Event Hub nor the outbox. -/
def BlindEvt {α : Type} (g : State → α) : Prop := ∀ s e o, g { s with evt := e, outbox := o } = g s

/-- An observer that sees no part of the mailboxes, of their windows, of the Event Hub and of the outbox. -/
def BlindMbx {α : Type} (g : State → α) : Prop :=
  ∀ s e o m w, g { s with evt := e, outbox := o, mbx := m, mem := { s.mem with win := w } } = g s

theorem BlindMbx.evt {α : Type} {g : State → α} (h : BlindMbx g) : BlindEvt g := fun s e o => h s e o s.mbx s.mem.win

theorem BlindMbx.box {α : Type} {g : State → α} (h : BlindMbx g) (s : State) (m : Mbx) : g { s with mbx := m } = g s :=
  h s s.evt s.outbox m s.mem.win

theorem BlindMbx.win {α : Type} {g : State → α} (h : BlindMbx g) (s : State) (f o : Nat) (bs : List Byte) :
    g (winWrite s f o bs) = g s := h s s.evt s.outbox s.mbx (winWrite s f o bs).mem.win

theorem BlindEvt.emit {α : Type} {g : State → α} (h : BlindEvt g) (s : State) (o : Output) : g (s.emit o) = g s :=
  h s s.evt (o :: s.outbox)

theorem BlindEvt.bit {α : Type} {g : State → α} (h : BlindEvt g) (s : State) (f n : Nat) (b : EvtBit) :
    g (setEvtBit s f n b) = g s := h s (setEvtBit s f n b).evt s.outbox

theorem pendAll_keeps {α : Type} {g : State → α} (h : BlindEvt g) (s : State) (n : Nat) : g (pendAll s n) = g s := by
  refine foldl_keeps g _ _ (fun s f => ?_) s
  split
  · exact h.bit _ _ _ _
  · rfl

theorem hayDeliver_keeps {α : Type} {g : State → α} (h : BlindEvt g) (s : State) (n : Nat) : g (hayDeliver s n) = g s := by
  simp only [hayDeliver]
  repeat' split
  · rfl
  · exact h s _ s.outbox
  · rw [h.emit, h.emit]
  · exact h.emit _ _

theorem watchWake_keeps {α : Type} {g : State → α} (h : BlindEvt g) (s : State) (n : Nat) : g (watchWake s n) = g s := by
  simp only [watchWake]
  repeat' split
  · exact h s _ s.outbox
  · exact h s _ s.outbox
  · rfl

/-- A firing changes the Event Hub and the outbox alone. -/
theorem fire_keeps {α : Type} {g : State → α} (h : BlindEvt g) (s : State) (n : Nat) : g (fire s n) = g s := by
  simp only [fire]
  split
  · rw [watchWake_keeps h]
    split
    · exact pendAll_keeps h s n
    · rw [hayDeliver_keeps h, pendAll_keeps h]
  · rfl

/-- A state change of a partition changes the partition's record, the Event Hub and the outbox alone. -/
theorem setPState_keeps {α : Type} {g : State → α} (h : BlindEvt g) (hp : ∀ s x, g { s with sess := x } = g s)
    (s : State) (p : Nat) (st : PState) : g (setPState s p st) = g s := by
  simp only [setPState]
  split
  · rfl
  · rw [firePart, fire_keeps h]; exact hp s _

/-- The alarm changes its count, the Event Hub and the outbox alone. -/
theorem alarm_keeps {α : Type} {g : State → α} (h : BlindEvt g) (hk : ∀ s x, g { s with keys := x } = g s) (s : State) :
    g (alarm s) = g s := by rw [alarm, fire_keeps h]; exact hk s _

/-! ## Mailboxes (13) -/

theorem setBox_keeps {α : Type} {g : State → α} (h : BlindMbx g) (s : State) (m : Nat) (b : Mailbox) :
    g (setBox s m b) = g s := h.box s _

theorem violation_keeps {α : Type} {g : State → α} (h : BlindMbx g) (s : State) (m : Nat) : g (violation s m) = g s := by
  simp only [violation]
  split
  · rw [fire_keeps h.evt, setBox_keeps h]
  · exact setBox_keeps h _ _ _

theorem take_keeps {α : Type} {g : State → α} (h : BlindMbx g) (s : State) (m : Nat) : g (take s m) = g s := by
  simp only [take]
  exact (h.box _ _).trans (setBox_keeps h _ _ _)

theorem ringPut_keeps {α : Type} {g : State → α} (h : BlindMbx g) (s : State) (m : Nat) (x : List Byte) :
    g (ringPut s m x) = g s := by
  simp only [ringPut]
  split
  · rw [fire_keeps h.evt, setBox_keeps h, h.win]
  · rw [setBox_keeps h, h.win]

theorem postSlot_keeps {α : Type} {g : State → α} (h : BlindMbx g) (s : State) (m : Nat) (x y : List Byte) :
    g (postSlot s m x y) = g s := by
  simp only [postSlot]
  repeat' split
  · exact ringPut_keeps h _ _ _
  · exact h.evt.emit _ _
  · exact (h.evt.emit _ _).trans (h.box _ _)

theorem postFinal_keeps {α : Type} {g : State → α} (h : BlindMbx g) (s : State) (f : InFlight) (st : Nat) (bs : List Byte)
    (ok : Bool) : g (postFinal s f st bs ok) = g s := by
  simp only [postFinal]
  repeat' split
  · rfl
  all_goals simp only [postSlot_keeps h, h.evt.emit, h.win]

/-- An answer changes the mailboxes, their windows, the Event Hub and the outbox alone. -/
theorem answer_keeps {α : Type} {g : State → α} (h : BlindMbx g) (s : State) (r : Req) (st : Nat) (bs : List Byte)
    (ok : Bool) : g (answer s r st bs ok) = g s := by
  simp only [answer]
  split
  · rw [postFinal_keeps h, violation_keeps h]
  · exact postFinal_keeps h _ _ _ _ _

theorem drainRsp_keeps {α : Type} {g : State → α} (h : BlindMbx g) (s : State) (m : Nat) (l : List (Nat × List Byte)) :
    g (drainRsp s m l) = g s := by
  induction l generalizing s with
  | nil => exact setBox_keeps h _ _ _
  | cons x r ih =>
    simp only [drainRsp]
    split
    · rw [ih, ringPut_keeps h]
    · exact setBox_keeps h _ _ _

/-- An IN_PROGRESS changes what an answer changes, and draws a free value. -/
theorem postProgress_keeps {α : Type} {g : State → α} (h : BlindMbx g) (hc : ∀ s n, g { s with freeCtr := n } = g s)
    (s : State) (f : InFlight) : g (postProgress s f) = g s := by
  have h0 : ∀ m, g { s.drawn with mbx := m } = g s := fun m => (h.box s.drawn m).trans (hc s _)
  simp only [postProgress]
  repeat' split
  · exact h0 _
  · rw [drainRsp_keeps h, h0]
  · rw [postSlot_keeps h, h0]

/-- The end of a command in flight changes what an answer changes. -/
theorem finish_keeps {α : Type} {g : State → α} (h : BlindMbx g) (s : State) (sel : InFlight → Bool) (st : Nat)
    (bs : List Byte) (ok : Bool) : g (finish s sel st bs ok) = g s := by
  simp only [finish]
  split
  · rfl
  · rw [postFinal_keeps h, setBox_keeps h]; exact h.box s _


/-! ## fire, by field -/

@[simp] theorem fire_now (s : State) (n : Nat) : (fire s n).now = s.now :=
  fire_keeps (g := State.now) (fun _ _ _ => rfl) s n
@[simp] theorem fire_powerUpAt (s : State) (n : Nat) : (fire s n).powerUpAt = s.powerUpAt :=
  fire_keeps (g := State.powerUpAt) (fun _ _ _ => rfl) s n
@[simp] theorem fire_pending (s : State) (n : Nat) : (fire s n).pending = s.pending :=
  fire_keeps (g := State.pending) (fun _ _ _ => rfl) s n
@[simp] theorem fire_freeCtr (s : State) (n : Nat) : (fire s n).freeCtr = s.freeCtr :=
  fire_keeps (g := State.freeCtr) (fun _ _ _ => rfl) s n
@[simp] theorem fire_fuses (s : State) (n : Nat) : (fire s n).fuses = s.fuses :=
  fire_keeps (g := State.fuses) (fun _ _ _ => rfl) s n
@[simp] theorem fire_boot (s : State) (n : Nat) : (fire s n).boot = s.boot :=
  fire_keeps (g := State.boot) (fun _ _ _ => rfl) s n
@[simp] theorem fire_tick (s : State) (n : Nat) : (fire s n).tick = s.tick :=
  fire_keeps (g := State.tick) (fun _ _ _ => rfl) s n
@[simp] theorem fire_host (s : State) (n : Nat) : (fire s n).host = s.host :=
  fire_keeps (g := State.host) (fun _ _ _ => rfl) s n
@[simp] theorem fire_eth (s : State) (n : Nat) : (fire s n).eth = s.eth :=
  fire_keeps (g := State.eth) (fun _ _ _ => rfl) s n
@[simp] theorem fire_mbx (s : State) (n : Nat) : (fire s n).mbx = s.mbx :=
  fire_keeps (g := State.mbx) (fun _ _ _ => rfl) s n
@[simp] theorem fire_sess (s : State) (n : Nat) : (fire s n).sess = s.sess :=
  fire_keeps (g := State.sess) (fun _ _ _ => rfl) s n
@[simp] theorem fire_tiles (s : State) (n : Nat) : (fire s n).tiles = s.tiles :=
  fire_keeps (g := State.tiles) (fun _ _ _ => rfl) s n
@[simp] theorem fire_cores (s : State) (n : Nat) : (fire s n).cores = s.cores :=
  fire_keeps (g := State.cores) (fun _ _ _ => rfl) s n
@[simp] theorem fire_ccs (s : State) (n : Nat) : (fire s n).ccs = s.ccs :=
  fire_keeps (g := State.ccs) (fun _ _ _ => rfl) s n
@[simp] theorem fire_mem (s : State) (n : Nat) : (fire s n).mem = s.mem :=
  fire_keeps (g := State.mem) (fun _ _ _ => rfl) s n
@[simp] theorem fire_wain (s : State) (n : Nat) : (fire s n).wain = s.wain :=
  fire_keeps (g := State.wain) (fun _ _ _ => rfl) s n
@[simp] theorem fire_glns (s : State) (n : Nat) : (fire s n).glns = s.glns :=
  fire_keeps (g := State.glns) (fun _ _ _ => rfl) s n
@[simp] theorem fire_stks (s : State) (n : Nat) : (fire s n).stks = s.stks :=
  fire_keeps (g := State.stks) (fun _ _ _ => rfl) s n
@[simp] theorem fire_cellars (s : State) (n : Nat) : (fire s n).cellars = s.cellars :=
  fire_keeps (g := State.cellars) (fun _ _ _ => rfl) s n
@[simp] theorem fire_memTest (s : State) (n : Nat) : (fire s n).memTest = s.memTest :=
  fire_keeps (g := State.memTest) (fun _ _ _ => rfl) s n
@[simp] theorem fire_place (s : State) (n : Nat) : (fire s n).place = s.place :=
  fire_keeps (g := State.place) (fun _ _ _ => rfl) s n
@[simp] theorem fire_fab (s : State) (n : Nat) : (fire s n).fab = s.fab :=
  fire_keeps (g := State.fab) (fun _ _ _ => rfl) s n
@[simp] theorem fire_coll (s : State) (n : Nat) : (fire s n).coll = s.coll :=
  fire_keeps (g := State.coll) (fun _ _ _ => rfl) s n
@[simp] theorem fire_power (s : State) (n : Nat) : (fire s n).power = s.power :=
  fire_keeps (g := State.power) (fun _ _ _ => rfl) s n
@[simp] theorem fire_heat (s : State) (n : Nat) : (fire s n).heat = s.heat :=
  fire_keeps (g := State.heat) (fun _ _ _ => rfl) s n
@[simp] theorem fire_keys (s : State) (n : Nat) : (fire s n).keys = s.keys :=
  fire_keeps (g := State.keys) (fun _ _ _ => rfl) s n
@[simp] theorem fire_faults (s : State) (n : Nat) : (fire s n).faults = s.faults :=
  fire_keeps (g := State.faults) (fun _ _ _ => rfl) s n
@[simp] theorem fire_fw (s : State) (n : Nat) : (fire s n).fw = s.fw :=
  fire_keeps (g := State.fw) (fun _ _ _ => rfl) s n

/-! ## firePart, by field -/

@[simp] theorem firePart_now (s : State) (p n : Nat) : (firePart s p n).now = s.now :=
  fire_keeps (g := State.now) (fun _ _ _ => rfl) s _
@[simp] theorem firePart_powerUpAt (s : State) (p n : Nat) : (firePart s p n).powerUpAt = s.powerUpAt :=
  fire_keeps (g := State.powerUpAt) (fun _ _ _ => rfl) s _
@[simp] theorem firePart_pending (s : State) (p n : Nat) : (firePart s p n).pending = s.pending :=
  fire_keeps (g := State.pending) (fun _ _ _ => rfl) s _
@[simp] theorem firePart_freeCtr (s : State) (p n : Nat) : (firePart s p n).freeCtr = s.freeCtr :=
  fire_keeps (g := State.freeCtr) (fun _ _ _ => rfl) s _
@[simp] theorem firePart_fuses (s : State) (p n : Nat) : (firePart s p n).fuses = s.fuses :=
  fire_keeps (g := State.fuses) (fun _ _ _ => rfl) s _
@[simp] theorem firePart_boot (s : State) (p n : Nat) : (firePart s p n).boot = s.boot :=
  fire_keeps (g := State.boot) (fun _ _ _ => rfl) s _
@[simp] theorem firePart_tick (s : State) (p n : Nat) : (firePart s p n).tick = s.tick :=
  fire_keeps (g := State.tick) (fun _ _ _ => rfl) s _
@[simp] theorem firePart_host (s : State) (p n : Nat) : (firePart s p n).host = s.host :=
  fire_keeps (g := State.host) (fun _ _ _ => rfl) s _
@[simp] theorem firePart_eth (s : State) (p n : Nat) : (firePart s p n).eth = s.eth :=
  fire_keeps (g := State.eth) (fun _ _ _ => rfl) s _
@[simp] theorem firePart_mbx (s : State) (p n : Nat) : (firePart s p n).mbx = s.mbx :=
  fire_keeps (g := State.mbx) (fun _ _ _ => rfl) s _
@[simp] theorem firePart_sess (s : State) (p n : Nat) : (firePart s p n).sess = s.sess :=
  fire_keeps (g := State.sess) (fun _ _ _ => rfl) s _
@[simp] theorem firePart_tiles (s : State) (p n : Nat) : (firePart s p n).tiles = s.tiles :=
  fire_keeps (g := State.tiles) (fun _ _ _ => rfl) s _
@[simp] theorem firePart_cores (s : State) (p n : Nat) : (firePart s p n).cores = s.cores :=
  fire_keeps (g := State.cores) (fun _ _ _ => rfl) s _
@[simp] theorem firePart_ccs (s : State) (p n : Nat) : (firePart s p n).ccs = s.ccs :=
  fire_keeps (g := State.ccs) (fun _ _ _ => rfl) s _
@[simp] theorem firePart_mem (s : State) (p n : Nat) : (firePart s p n).mem = s.mem :=
  fire_keeps (g := State.mem) (fun _ _ _ => rfl) s _
@[simp] theorem firePart_wain (s : State) (p n : Nat) : (firePart s p n).wain = s.wain :=
  fire_keeps (g := State.wain) (fun _ _ _ => rfl) s _
@[simp] theorem firePart_glns (s : State) (p n : Nat) : (firePart s p n).glns = s.glns :=
  fire_keeps (g := State.glns) (fun _ _ _ => rfl) s _
@[simp] theorem firePart_stks (s : State) (p n : Nat) : (firePart s p n).stks = s.stks :=
  fire_keeps (g := State.stks) (fun _ _ _ => rfl) s _
@[simp] theorem firePart_cellars (s : State) (p n : Nat) : (firePart s p n).cellars = s.cellars :=
  fire_keeps (g := State.cellars) (fun _ _ _ => rfl) s _
@[simp] theorem firePart_memTest (s : State) (p n : Nat) : (firePart s p n).memTest = s.memTest :=
  fire_keeps (g := State.memTest) (fun _ _ _ => rfl) s _
@[simp] theorem firePart_place (s : State) (p n : Nat) : (firePart s p n).place = s.place :=
  fire_keeps (g := State.place) (fun _ _ _ => rfl) s _
@[simp] theorem firePart_fab (s : State) (p n : Nat) : (firePart s p n).fab = s.fab :=
  fire_keeps (g := State.fab) (fun _ _ _ => rfl) s _
@[simp] theorem firePart_coll (s : State) (p n : Nat) : (firePart s p n).coll = s.coll :=
  fire_keeps (g := State.coll) (fun _ _ _ => rfl) s _
@[simp] theorem firePart_power (s : State) (p n : Nat) : (firePart s p n).power = s.power :=
  fire_keeps (g := State.power) (fun _ _ _ => rfl) s _
@[simp] theorem firePart_heat (s : State) (p n : Nat) : (firePart s p n).heat = s.heat :=
  fire_keeps (g := State.heat) (fun _ _ _ => rfl) s _
@[simp] theorem firePart_keys (s : State) (p n : Nat) : (firePart s p n).keys = s.keys :=
  fire_keeps (g := State.keys) (fun _ _ _ => rfl) s _
@[simp] theorem firePart_faults (s : State) (p n : Nat) : (firePart s p n).faults = s.faults :=
  fire_keeps (g := State.faults) (fun _ _ _ => rfl) s _
@[simp] theorem firePart_fw (s : State) (p n : Nat) : (firePart s p n).fw = s.fw :=
  fire_keeps (g := State.fw) (fun _ _ _ => rfl) s _

/-! ## setPState, by field -/

@[simp] theorem setPState_now (s : State) (p : Nat) (st : PState) : (setPState s p st).now = s.now :=
  setPState_keeps (g := State.now) (fun _ _ _ => rfl) (fun _ _ => rfl) s p st
@[simp] theorem setPState_powerUpAt (s : State) (p : Nat) (st : PState) : (setPState s p st).powerUpAt = s.powerUpAt :=
  setPState_keeps (g := State.powerUpAt) (fun _ _ _ => rfl) (fun _ _ => rfl) s p st
@[simp] theorem setPState_pending (s : State) (p : Nat) (st : PState) : (setPState s p st).pending = s.pending :=
  setPState_keeps (g := State.pending) (fun _ _ _ => rfl) (fun _ _ => rfl) s p st
@[simp] theorem setPState_freeCtr (s : State) (p : Nat) (st : PState) : (setPState s p st).freeCtr = s.freeCtr :=
  setPState_keeps (g := State.freeCtr) (fun _ _ _ => rfl) (fun _ _ => rfl) s p st
@[simp] theorem setPState_fuses (s : State) (p : Nat) (st : PState) : (setPState s p st).fuses = s.fuses :=
  setPState_keeps (g := State.fuses) (fun _ _ _ => rfl) (fun _ _ => rfl) s p st
@[simp] theorem setPState_boot (s : State) (p : Nat) (st : PState) : (setPState s p st).boot = s.boot :=
  setPState_keeps (g := State.boot) (fun _ _ _ => rfl) (fun _ _ => rfl) s p st
@[simp] theorem setPState_tick (s : State) (p : Nat) (st : PState) : (setPState s p st).tick = s.tick :=
  setPState_keeps (g := State.tick) (fun _ _ _ => rfl) (fun _ _ => rfl) s p st
@[simp] theorem setPState_host (s : State) (p : Nat) (st : PState) : (setPState s p st).host = s.host :=
  setPState_keeps (g := State.host) (fun _ _ _ => rfl) (fun _ _ => rfl) s p st
@[simp] theorem setPState_eth (s : State) (p : Nat) (st : PState) : (setPState s p st).eth = s.eth :=
  setPState_keeps (g := State.eth) (fun _ _ _ => rfl) (fun _ _ => rfl) s p st
@[simp] theorem setPState_mbx (s : State) (p : Nat) (st : PState) : (setPState s p st).mbx = s.mbx :=
  setPState_keeps (g := State.mbx) (fun _ _ _ => rfl) (fun _ _ => rfl) s p st
@[simp] theorem setPState_tiles (s : State) (p : Nat) (st : PState) : (setPState s p st).tiles = s.tiles :=
  setPState_keeps (g := State.tiles) (fun _ _ _ => rfl) (fun _ _ => rfl) s p st
@[simp] theorem setPState_cores (s : State) (p : Nat) (st : PState) : (setPState s p st).cores = s.cores :=
  setPState_keeps (g := State.cores) (fun _ _ _ => rfl) (fun _ _ => rfl) s p st
@[simp] theorem setPState_ccs (s : State) (p : Nat) (st : PState) : (setPState s p st).ccs = s.ccs :=
  setPState_keeps (g := State.ccs) (fun _ _ _ => rfl) (fun _ _ => rfl) s p st
@[simp] theorem setPState_mem (s : State) (p : Nat) (st : PState) : (setPState s p st).mem = s.mem :=
  setPState_keeps (g := State.mem) (fun _ _ _ => rfl) (fun _ _ => rfl) s p st
@[simp] theorem setPState_wain (s : State) (p : Nat) (st : PState) : (setPState s p st).wain = s.wain :=
  setPState_keeps (g := State.wain) (fun _ _ _ => rfl) (fun _ _ => rfl) s p st
@[simp] theorem setPState_glns (s : State) (p : Nat) (st : PState) : (setPState s p st).glns = s.glns :=
  setPState_keeps (g := State.glns) (fun _ _ _ => rfl) (fun _ _ => rfl) s p st
@[simp] theorem setPState_stks (s : State) (p : Nat) (st : PState) : (setPState s p st).stks = s.stks :=
  setPState_keeps (g := State.stks) (fun _ _ _ => rfl) (fun _ _ => rfl) s p st
@[simp] theorem setPState_cellars (s : State) (p : Nat) (st : PState) : (setPState s p st).cellars = s.cellars :=
  setPState_keeps (g := State.cellars) (fun _ _ _ => rfl) (fun _ _ => rfl) s p st
@[simp] theorem setPState_memTest (s : State) (p : Nat) (st : PState) : (setPState s p st).memTest = s.memTest :=
  setPState_keeps (g := State.memTest) (fun _ _ _ => rfl) (fun _ _ => rfl) s p st
@[simp] theorem setPState_place (s : State) (p : Nat) (st : PState) : (setPState s p st).place = s.place :=
  setPState_keeps (g := State.place) (fun _ _ _ => rfl) (fun _ _ => rfl) s p st
@[simp] theorem setPState_fab (s : State) (p : Nat) (st : PState) : (setPState s p st).fab = s.fab :=
  setPState_keeps (g := State.fab) (fun _ _ _ => rfl) (fun _ _ => rfl) s p st
@[simp] theorem setPState_coll (s : State) (p : Nat) (st : PState) : (setPState s p st).coll = s.coll :=
  setPState_keeps (g := State.coll) (fun _ _ _ => rfl) (fun _ _ => rfl) s p st
@[simp] theorem setPState_power (s : State) (p : Nat) (st : PState) : (setPState s p st).power = s.power :=
  setPState_keeps (g := State.power) (fun _ _ _ => rfl) (fun _ _ => rfl) s p st
@[simp] theorem setPState_heat (s : State) (p : Nat) (st : PState) : (setPState s p st).heat = s.heat :=
  setPState_keeps (g := State.heat) (fun _ _ _ => rfl) (fun _ _ => rfl) s p st
@[simp] theorem setPState_keys (s : State) (p : Nat) (st : PState) : (setPState s p st).keys = s.keys :=
  setPState_keeps (g := State.keys) (fun _ _ _ => rfl) (fun _ _ => rfl) s p st
@[simp] theorem setPState_faults (s : State) (p : Nat) (st : PState) : (setPState s p st).faults = s.faults :=
  setPState_keeps (g := State.faults) (fun _ _ _ => rfl) (fun _ _ => rfl) s p st
@[simp] theorem setPState_fw (s : State) (p : Nat) (st : PState) : (setPState s p st).fw = s.fw :=
  setPState_keeps (g := State.fw) (fun _ _ _ => rfl) (fun _ _ => rfl) s p st

/-! ## alarm, by field -/

@[simp] theorem alarm_now (s : State) : (alarm s).now = s.now := alarm_keeps (g := State.now) (fun _ _ _ => rfl) (fun _ _ => rfl) s
@[simp] theorem alarm_powerUpAt (s : State) : (alarm s).powerUpAt = s.powerUpAt := alarm_keeps (g := State.powerUpAt) (fun _ _ _ => rfl) (fun _ _ => rfl) s
@[simp] theorem alarm_pending (s : State) : (alarm s).pending = s.pending := alarm_keeps (g := State.pending) (fun _ _ _ => rfl) (fun _ _ => rfl) s
@[simp] theorem alarm_freeCtr (s : State) : (alarm s).freeCtr = s.freeCtr := alarm_keeps (g := State.freeCtr) (fun _ _ _ => rfl) (fun _ _ => rfl) s
@[simp] theorem alarm_fuses (s : State) : (alarm s).fuses = s.fuses := alarm_keeps (g := State.fuses) (fun _ _ _ => rfl) (fun _ _ => rfl) s
@[simp] theorem alarm_boot (s : State) : (alarm s).boot = s.boot := alarm_keeps (g := State.boot) (fun _ _ _ => rfl) (fun _ _ => rfl) s
@[simp] theorem alarm_tick (s : State) : (alarm s).tick = s.tick := alarm_keeps (g := State.tick) (fun _ _ _ => rfl) (fun _ _ => rfl) s
@[simp] theorem alarm_host (s : State) : (alarm s).host = s.host := alarm_keeps (g := State.host) (fun _ _ _ => rfl) (fun _ _ => rfl) s
@[simp] theorem alarm_eth (s : State) : (alarm s).eth = s.eth := alarm_keeps (g := State.eth) (fun _ _ _ => rfl) (fun _ _ => rfl) s
@[simp] theorem alarm_mbx (s : State) : (alarm s).mbx = s.mbx := alarm_keeps (g := State.mbx) (fun _ _ _ => rfl) (fun _ _ => rfl) s
@[simp] theorem alarm_sess (s : State) : (alarm s).sess = s.sess := alarm_keeps (g := State.sess) (fun _ _ _ => rfl) (fun _ _ => rfl) s
@[simp] theorem alarm_tiles (s : State) : (alarm s).tiles = s.tiles := alarm_keeps (g := State.tiles) (fun _ _ _ => rfl) (fun _ _ => rfl) s
@[simp] theorem alarm_cores (s : State) : (alarm s).cores = s.cores := alarm_keeps (g := State.cores) (fun _ _ _ => rfl) (fun _ _ => rfl) s
@[simp] theorem alarm_ccs (s : State) : (alarm s).ccs = s.ccs := alarm_keeps (g := State.ccs) (fun _ _ _ => rfl) (fun _ _ => rfl) s
@[simp] theorem alarm_mem (s : State) : (alarm s).mem = s.mem := alarm_keeps (g := State.mem) (fun _ _ _ => rfl) (fun _ _ => rfl) s
@[simp] theorem alarm_wain (s : State) : (alarm s).wain = s.wain := alarm_keeps (g := State.wain) (fun _ _ _ => rfl) (fun _ _ => rfl) s
@[simp] theorem alarm_glns (s : State) : (alarm s).glns = s.glns := alarm_keeps (g := State.glns) (fun _ _ _ => rfl) (fun _ _ => rfl) s
@[simp] theorem alarm_stks (s : State) : (alarm s).stks = s.stks := alarm_keeps (g := State.stks) (fun _ _ _ => rfl) (fun _ _ => rfl) s
@[simp] theorem alarm_cellars (s : State) : (alarm s).cellars = s.cellars := alarm_keeps (g := State.cellars) (fun _ _ _ => rfl) (fun _ _ => rfl) s
@[simp] theorem alarm_memTest (s : State) : (alarm s).memTest = s.memTest := alarm_keeps (g := State.memTest) (fun _ _ _ => rfl) (fun _ _ => rfl) s
@[simp] theorem alarm_place (s : State) : (alarm s).place = s.place := alarm_keeps (g := State.place) (fun _ _ _ => rfl) (fun _ _ => rfl) s
@[simp] theorem alarm_fab (s : State) : (alarm s).fab = s.fab := alarm_keeps (g := State.fab) (fun _ _ _ => rfl) (fun _ _ => rfl) s
@[simp] theorem alarm_coll (s : State) : (alarm s).coll = s.coll := alarm_keeps (g := State.coll) (fun _ _ _ => rfl) (fun _ _ => rfl) s
@[simp] theorem alarm_power (s : State) : (alarm s).power = s.power := alarm_keeps (g := State.power) (fun _ _ _ => rfl) (fun _ _ => rfl) s
@[simp] theorem alarm_heat (s : State) : (alarm s).heat = s.heat := alarm_keeps (g := State.heat) (fun _ _ _ => rfl) (fun _ _ => rfl) s
@[simp] theorem alarm_faults (s : State) : (alarm s).faults = s.faults := alarm_keeps (g := State.faults) (fun _ _ _ => rfl) (fun _ _ => rfl) s
@[simp] theorem alarm_fw (s : State) : (alarm s).fw = s.fw := alarm_keeps (g := State.fw) (fun _ _ _ => rfl) (fun _ _ => rfl) s

/-! ## violation, by field -/

@[simp] theorem violation_now (s : State) (m : Nat) : (violation s m).now = s.now :=
  violation_keeps (g := State.now) (fun _ _ _ _ _ => rfl) s m
@[simp] theorem violation_powerUpAt (s : State) (m : Nat) : (violation s m).powerUpAt = s.powerUpAt :=
  violation_keeps (g := State.powerUpAt) (fun _ _ _ _ _ => rfl) s m
@[simp] theorem violation_pending (s : State) (m : Nat) : (violation s m).pending = s.pending :=
  violation_keeps (g := State.pending) (fun _ _ _ _ _ => rfl) s m
@[simp] theorem violation_freeCtr (s : State) (m : Nat) : (violation s m).freeCtr = s.freeCtr :=
  violation_keeps (g := State.freeCtr) (fun _ _ _ _ _ => rfl) s m
@[simp] theorem violation_fuses (s : State) (m : Nat) : (violation s m).fuses = s.fuses :=
  violation_keeps (g := State.fuses) (fun _ _ _ _ _ => rfl) s m
@[simp] theorem violation_boot (s : State) (m : Nat) : (violation s m).boot = s.boot :=
  violation_keeps (g := State.boot) (fun _ _ _ _ _ => rfl) s m
@[simp] theorem violation_tick (s : State) (m : Nat) : (violation s m).tick = s.tick :=
  violation_keeps (g := State.tick) (fun _ _ _ _ _ => rfl) s m
@[simp] theorem violation_host (s : State) (m : Nat) : (violation s m).host = s.host :=
  violation_keeps (g := State.host) (fun _ _ _ _ _ => rfl) s m
@[simp] theorem violation_eth (s : State) (m : Nat) : (violation s m).eth = s.eth :=
  violation_keeps (g := State.eth) (fun _ _ _ _ _ => rfl) s m
@[simp] theorem violation_sess (s : State) (m : Nat) : (violation s m).sess = s.sess :=
  violation_keeps (g := State.sess) (fun _ _ _ _ _ => rfl) s m
@[simp] theorem violation_tiles (s : State) (m : Nat) : (violation s m).tiles = s.tiles :=
  violation_keeps (g := State.tiles) (fun _ _ _ _ _ => rfl) s m
@[simp] theorem violation_cores (s : State) (m : Nat) : (violation s m).cores = s.cores :=
  violation_keeps (g := State.cores) (fun _ _ _ _ _ => rfl) s m
@[simp] theorem violation_ccs (s : State) (m : Nat) : (violation s m).ccs = s.ccs :=
  violation_keeps (g := State.ccs) (fun _ _ _ _ _ => rfl) s m
@[simp] theorem violation_wain (s : State) (m : Nat) : (violation s m).wain = s.wain :=
  violation_keeps (g := State.wain) (fun _ _ _ _ _ => rfl) s m
@[simp] theorem violation_glns (s : State) (m : Nat) : (violation s m).glns = s.glns :=
  violation_keeps (g := State.glns) (fun _ _ _ _ _ => rfl) s m
@[simp] theorem violation_stks (s : State) (m : Nat) : (violation s m).stks = s.stks :=
  violation_keeps (g := State.stks) (fun _ _ _ _ _ => rfl) s m
@[simp] theorem violation_cellars (s : State) (m : Nat) : (violation s m).cellars = s.cellars :=
  violation_keeps (g := State.cellars) (fun _ _ _ _ _ => rfl) s m
@[simp] theorem violation_memTest (s : State) (m : Nat) : (violation s m).memTest = s.memTest :=
  violation_keeps (g := State.memTest) (fun _ _ _ _ _ => rfl) s m
@[simp] theorem violation_place (s : State) (m : Nat) : (violation s m).place = s.place :=
  violation_keeps (g := State.place) (fun _ _ _ _ _ => rfl) s m
@[simp] theorem violation_fab (s : State) (m : Nat) : (violation s m).fab = s.fab :=
  violation_keeps (g := State.fab) (fun _ _ _ _ _ => rfl) s m
@[simp] theorem violation_coll (s : State) (m : Nat) : (violation s m).coll = s.coll :=
  violation_keeps (g := State.coll) (fun _ _ _ _ _ => rfl) s m
@[simp] theorem violation_power (s : State) (m : Nat) : (violation s m).power = s.power :=
  violation_keeps (g := State.power) (fun _ _ _ _ _ => rfl) s m
@[simp] theorem violation_heat (s : State) (m : Nat) : (violation s m).heat = s.heat :=
  violation_keeps (g := State.heat) (fun _ _ _ _ _ => rfl) s m
@[simp] theorem violation_keys (s : State) (m : Nat) : (violation s m).keys = s.keys :=
  violation_keeps (g := State.keys) (fun _ _ _ _ _ => rfl) s m
@[simp] theorem violation_faults (s : State) (m : Nat) : (violation s m).faults = s.faults :=
  violation_keeps (g := State.faults) (fun _ _ _ _ _ => rfl) s m
@[simp] theorem violation_fw (s : State) (m : Nat) : (violation s m).fw = s.fw :=
  violation_keeps (g := State.fw) (fun _ _ _ _ _ => rfl) s m

/-! ## take, by field -/

@[simp] theorem take_now (s : State) (m : Nat) : (take s m).now = s.now :=
  rfl
@[simp] theorem take_powerUpAt (s : State) (m : Nat) : (take s m).powerUpAt = s.powerUpAt :=
  rfl
@[simp] theorem take_pending (s : State) (m : Nat) : (take s m).pending = s.pending :=
  rfl
@[simp] theorem take_freeCtr (s : State) (m : Nat) : (take s m).freeCtr = s.freeCtr :=
  rfl
@[simp] theorem take_outbox (s : State) (m : Nat) : (take s m).outbox = s.outbox :=
  rfl
@[simp] theorem take_fuses (s : State) (m : Nat) : (take s m).fuses = s.fuses :=
  rfl
@[simp] theorem take_boot (s : State) (m : Nat) : (take s m).boot = s.boot :=
  rfl
@[simp] theorem take_tick (s : State) (m : Nat) : (take s m).tick = s.tick :=
  rfl
@[simp] theorem take_evt (s : State) (m : Nat) : (take s m).evt = s.evt :=
  rfl
@[simp] theorem take_host (s : State) (m : Nat) : (take s m).host = s.host :=
  rfl
@[simp] theorem take_eth (s : State) (m : Nat) : (take s m).eth = s.eth :=
  rfl
@[simp] theorem take_sess (s : State) (m : Nat) : (take s m).sess = s.sess :=
  rfl
@[simp] theorem take_tiles (s : State) (m : Nat) : (take s m).tiles = s.tiles :=
  rfl
@[simp] theorem take_cores (s : State) (m : Nat) : (take s m).cores = s.cores :=
  rfl
@[simp] theorem take_ccs (s : State) (m : Nat) : (take s m).ccs = s.ccs :=
  rfl
@[simp] theorem take_mem (s : State) (m : Nat) : (take s m).mem = s.mem :=
  rfl
@[simp] theorem take_wain (s : State) (m : Nat) : (take s m).wain = s.wain :=
  rfl
@[simp] theorem take_glns (s : State) (m : Nat) : (take s m).glns = s.glns :=
  rfl
@[simp] theorem take_stks (s : State) (m : Nat) : (take s m).stks = s.stks :=
  rfl
@[simp] theorem take_cellars (s : State) (m : Nat) : (take s m).cellars = s.cellars :=
  rfl
@[simp] theorem take_memTest (s : State) (m : Nat) : (take s m).memTest = s.memTest :=
  rfl
@[simp] theorem take_place (s : State) (m : Nat) : (take s m).place = s.place :=
  rfl
@[simp] theorem take_fab (s : State) (m : Nat) : (take s m).fab = s.fab :=
  rfl
@[simp] theorem take_coll (s : State) (m : Nat) : (take s m).coll = s.coll :=
  rfl
@[simp] theorem take_power (s : State) (m : Nat) : (take s m).power = s.power :=
  rfl
@[simp] theorem take_heat (s : State) (m : Nat) : (take s m).heat = s.heat :=
  rfl
@[simp] theorem take_keys (s : State) (m : Nat) : (take s m).keys = s.keys :=
  rfl
@[simp] theorem take_faults (s : State) (m : Nat) : (take s m).faults = s.faults :=
  rfl
@[simp] theorem take_fw (s : State) (m : Nat) : (take s m).fw = s.fw :=
  rfl

/-! ## answer, by field -/

@[simp] theorem answer_now (s : State) (r : Req) (st : Nat) (bs : List Byte) (ok : Bool) : (answer s r st bs ok).now = s.now :=
  answer_keeps (g := State.now) (fun _ _ _ _ _ => rfl) s r st bs ok
@[simp] theorem answer_powerUpAt (s : State) (r : Req) (st : Nat) (bs : List Byte) (ok : Bool) : (answer s r st bs ok).powerUpAt = s.powerUpAt :=
  answer_keeps (g := State.powerUpAt) (fun _ _ _ _ _ => rfl) s r st bs ok
@[simp] theorem answer_pending (s : State) (r : Req) (st : Nat) (bs : List Byte) (ok : Bool) : (answer s r st bs ok).pending = s.pending :=
  answer_keeps (g := State.pending) (fun _ _ _ _ _ => rfl) s r st bs ok
@[simp] theorem answer_freeCtr (s : State) (r : Req) (st : Nat) (bs : List Byte) (ok : Bool) : (answer s r st bs ok).freeCtr = s.freeCtr :=
  answer_keeps (g := State.freeCtr) (fun _ _ _ _ _ => rfl) s r st bs ok
@[simp] theorem answer_fuses (s : State) (r : Req) (st : Nat) (bs : List Byte) (ok : Bool) : (answer s r st bs ok).fuses = s.fuses :=
  answer_keeps (g := State.fuses) (fun _ _ _ _ _ => rfl) s r st bs ok
@[simp] theorem answer_boot (s : State) (r : Req) (st : Nat) (bs : List Byte) (ok : Bool) : (answer s r st bs ok).boot = s.boot :=
  answer_keeps (g := State.boot) (fun _ _ _ _ _ => rfl) s r st bs ok
@[simp] theorem answer_tick (s : State) (r : Req) (st : Nat) (bs : List Byte) (ok : Bool) : (answer s r st bs ok).tick = s.tick :=
  answer_keeps (g := State.tick) (fun _ _ _ _ _ => rfl) s r st bs ok
@[simp] theorem answer_host (s : State) (r : Req) (st : Nat) (bs : List Byte) (ok : Bool) : (answer s r st bs ok).host = s.host :=
  answer_keeps (g := State.host) (fun _ _ _ _ _ => rfl) s r st bs ok
@[simp] theorem answer_eth (s : State) (r : Req) (st : Nat) (bs : List Byte) (ok : Bool) : (answer s r st bs ok).eth = s.eth :=
  answer_keeps (g := State.eth) (fun _ _ _ _ _ => rfl) s r st bs ok
@[simp] theorem answer_sess (s : State) (r : Req) (st : Nat) (bs : List Byte) (ok : Bool) : (answer s r st bs ok).sess = s.sess :=
  answer_keeps (g := State.sess) (fun _ _ _ _ _ => rfl) s r st bs ok
@[simp] theorem answer_tiles (s : State) (r : Req) (st : Nat) (bs : List Byte) (ok : Bool) : (answer s r st bs ok).tiles = s.tiles :=
  answer_keeps (g := State.tiles) (fun _ _ _ _ _ => rfl) s r st bs ok
@[simp] theorem answer_cores (s : State) (r : Req) (st : Nat) (bs : List Byte) (ok : Bool) : (answer s r st bs ok).cores = s.cores :=
  answer_keeps (g := State.cores) (fun _ _ _ _ _ => rfl) s r st bs ok
@[simp] theorem answer_ccs (s : State) (r : Req) (st : Nat) (bs : List Byte) (ok : Bool) : (answer s r st bs ok).ccs = s.ccs :=
  answer_keeps (g := State.ccs) (fun _ _ _ _ _ => rfl) s r st bs ok
@[simp] theorem answer_wain (s : State) (r : Req) (st : Nat) (bs : List Byte) (ok : Bool) : (answer s r st bs ok).wain = s.wain :=
  answer_keeps (g := State.wain) (fun _ _ _ _ _ => rfl) s r st bs ok
@[simp] theorem answer_glns (s : State) (r : Req) (st : Nat) (bs : List Byte) (ok : Bool) : (answer s r st bs ok).glns = s.glns :=
  answer_keeps (g := State.glns) (fun _ _ _ _ _ => rfl) s r st bs ok
@[simp] theorem answer_stks (s : State) (r : Req) (st : Nat) (bs : List Byte) (ok : Bool) : (answer s r st bs ok).stks = s.stks :=
  answer_keeps (g := State.stks) (fun _ _ _ _ _ => rfl) s r st bs ok
@[simp] theorem answer_cellars (s : State) (r : Req) (st : Nat) (bs : List Byte) (ok : Bool) : (answer s r st bs ok).cellars = s.cellars :=
  answer_keeps (g := State.cellars) (fun _ _ _ _ _ => rfl) s r st bs ok
@[simp] theorem answer_memTest (s : State) (r : Req) (st : Nat) (bs : List Byte) (ok : Bool) : (answer s r st bs ok).memTest = s.memTest :=
  answer_keeps (g := State.memTest) (fun _ _ _ _ _ => rfl) s r st bs ok
@[simp] theorem answer_place (s : State) (r : Req) (st : Nat) (bs : List Byte) (ok : Bool) : (answer s r st bs ok).place = s.place :=
  answer_keeps (g := State.place) (fun _ _ _ _ _ => rfl) s r st bs ok
@[simp] theorem answer_fab (s : State) (r : Req) (st : Nat) (bs : List Byte) (ok : Bool) : (answer s r st bs ok).fab = s.fab :=
  answer_keeps (g := State.fab) (fun _ _ _ _ _ => rfl) s r st bs ok
@[simp] theorem answer_coll (s : State) (r : Req) (st : Nat) (bs : List Byte) (ok : Bool) : (answer s r st bs ok).coll = s.coll :=
  answer_keeps (g := State.coll) (fun _ _ _ _ _ => rfl) s r st bs ok
@[simp] theorem answer_power (s : State) (r : Req) (st : Nat) (bs : List Byte) (ok : Bool) : (answer s r st bs ok).power = s.power :=
  answer_keeps (g := State.power) (fun _ _ _ _ _ => rfl) s r st bs ok
@[simp] theorem answer_heat (s : State) (r : Req) (st : Nat) (bs : List Byte) (ok : Bool) : (answer s r st bs ok).heat = s.heat :=
  answer_keeps (g := State.heat) (fun _ _ _ _ _ => rfl) s r st bs ok
@[simp] theorem answer_keys (s : State) (r : Req) (st : Nat) (bs : List Byte) (ok : Bool) : (answer s r st bs ok).keys = s.keys :=
  answer_keeps (g := State.keys) (fun _ _ _ _ _ => rfl) s r st bs ok
@[simp] theorem answer_faults (s : State) (r : Req) (st : Nat) (bs : List Byte) (ok : Bool) : (answer s r st bs ok).faults = s.faults :=
  answer_keeps (g := State.faults) (fun _ _ _ _ _ => rfl) s r st bs ok
@[simp] theorem answer_fw (s : State) (r : Req) (st : Nat) (bs : List Byte) (ok : Bool) : (answer s r st bs ok).fw = s.fw :=
  answer_keeps (g := State.fw) (fun _ _ _ _ _ => rfl) s r st bs ok

/-! ## finish, by field -/

@[simp] theorem finish_now (s : State) (sel : InFlight → Bool) (st : Nat) (bs : List Byte) (ok : Bool) : (finish s sel st bs ok).now = s.now :=
  finish_keeps (g := State.now) (fun _ _ _ _ _ => rfl) s sel st bs ok
@[simp] theorem finish_powerUpAt (s : State) (sel : InFlight → Bool) (st : Nat) (bs : List Byte) (ok : Bool) : (finish s sel st bs ok).powerUpAt = s.powerUpAt :=
  finish_keeps (g := State.powerUpAt) (fun _ _ _ _ _ => rfl) s sel st bs ok
@[simp] theorem finish_pending (s : State) (sel : InFlight → Bool) (st : Nat) (bs : List Byte) (ok : Bool) : (finish s sel st bs ok).pending = s.pending :=
  finish_keeps (g := State.pending) (fun _ _ _ _ _ => rfl) s sel st bs ok
@[simp] theorem finish_freeCtr (s : State) (sel : InFlight → Bool) (st : Nat) (bs : List Byte) (ok : Bool) : (finish s sel st bs ok).freeCtr = s.freeCtr :=
  finish_keeps (g := State.freeCtr) (fun _ _ _ _ _ => rfl) s sel st bs ok
@[simp] theorem finish_fuses (s : State) (sel : InFlight → Bool) (st : Nat) (bs : List Byte) (ok : Bool) : (finish s sel st bs ok).fuses = s.fuses :=
  finish_keeps (g := State.fuses) (fun _ _ _ _ _ => rfl) s sel st bs ok
@[simp] theorem finish_boot (s : State) (sel : InFlight → Bool) (st : Nat) (bs : List Byte) (ok : Bool) : (finish s sel st bs ok).boot = s.boot :=
  finish_keeps (g := State.boot) (fun _ _ _ _ _ => rfl) s sel st bs ok
@[simp] theorem finish_tick (s : State) (sel : InFlight → Bool) (st : Nat) (bs : List Byte) (ok : Bool) : (finish s sel st bs ok).tick = s.tick :=
  finish_keeps (g := State.tick) (fun _ _ _ _ _ => rfl) s sel st bs ok
@[simp] theorem finish_host (s : State) (sel : InFlight → Bool) (st : Nat) (bs : List Byte) (ok : Bool) : (finish s sel st bs ok).host = s.host :=
  finish_keeps (g := State.host) (fun _ _ _ _ _ => rfl) s sel st bs ok
@[simp] theorem finish_eth (s : State) (sel : InFlight → Bool) (st : Nat) (bs : List Byte) (ok : Bool) : (finish s sel st bs ok).eth = s.eth :=
  finish_keeps (g := State.eth) (fun _ _ _ _ _ => rfl) s sel st bs ok
@[simp] theorem finish_sess (s : State) (sel : InFlight → Bool) (st : Nat) (bs : List Byte) (ok : Bool) : (finish s sel st bs ok).sess = s.sess :=
  finish_keeps (g := State.sess) (fun _ _ _ _ _ => rfl) s sel st bs ok
@[simp] theorem finish_tiles (s : State) (sel : InFlight → Bool) (st : Nat) (bs : List Byte) (ok : Bool) : (finish s sel st bs ok).tiles = s.tiles :=
  finish_keeps (g := State.tiles) (fun _ _ _ _ _ => rfl) s sel st bs ok
@[simp] theorem finish_cores (s : State) (sel : InFlight → Bool) (st : Nat) (bs : List Byte) (ok : Bool) : (finish s sel st bs ok).cores = s.cores :=
  finish_keeps (g := State.cores) (fun _ _ _ _ _ => rfl) s sel st bs ok
@[simp] theorem finish_ccs (s : State) (sel : InFlight → Bool) (st : Nat) (bs : List Byte) (ok : Bool) : (finish s sel st bs ok).ccs = s.ccs :=
  finish_keeps (g := State.ccs) (fun _ _ _ _ _ => rfl) s sel st bs ok
@[simp] theorem finish_wain (s : State) (sel : InFlight → Bool) (st : Nat) (bs : List Byte) (ok : Bool) : (finish s sel st bs ok).wain = s.wain :=
  finish_keeps (g := State.wain) (fun _ _ _ _ _ => rfl) s sel st bs ok
@[simp] theorem finish_glns (s : State) (sel : InFlight → Bool) (st : Nat) (bs : List Byte) (ok : Bool) : (finish s sel st bs ok).glns = s.glns :=
  finish_keeps (g := State.glns) (fun _ _ _ _ _ => rfl) s sel st bs ok
@[simp] theorem finish_stks (s : State) (sel : InFlight → Bool) (st : Nat) (bs : List Byte) (ok : Bool) : (finish s sel st bs ok).stks = s.stks :=
  finish_keeps (g := State.stks) (fun _ _ _ _ _ => rfl) s sel st bs ok
@[simp] theorem finish_cellars (s : State) (sel : InFlight → Bool) (st : Nat) (bs : List Byte) (ok : Bool) : (finish s sel st bs ok).cellars = s.cellars :=
  finish_keeps (g := State.cellars) (fun _ _ _ _ _ => rfl) s sel st bs ok
@[simp] theorem finish_memTest (s : State) (sel : InFlight → Bool) (st : Nat) (bs : List Byte) (ok : Bool) : (finish s sel st bs ok).memTest = s.memTest :=
  finish_keeps (g := State.memTest) (fun _ _ _ _ _ => rfl) s sel st bs ok
@[simp] theorem finish_place (s : State) (sel : InFlight → Bool) (st : Nat) (bs : List Byte) (ok : Bool) : (finish s sel st bs ok).place = s.place :=
  finish_keeps (g := State.place) (fun _ _ _ _ _ => rfl) s sel st bs ok
@[simp] theorem finish_fab (s : State) (sel : InFlight → Bool) (st : Nat) (bs : List Byte) (ok : Bool) : (finish s sel st bs ok).fab = s.fab :=
  finish_keeps (g := State.fab) (fun _ _ _ _ _ => rfl) s sel st bs ok
@[simp] theorem finish_coll (s : State) (sel : InFlight → Bool) (st : Nat) (bs : List Byte) (ok : Bool) : (finish s sel st bs ok).coll = s.coll :=
  finish_keeps (g := State.coll) (fun _ _ _ _ _ => rfl) s sel st bs ok
@[simp] theorem finish_power (s : State) (sel : InFlight → Bool) (st : Nat) (bs : List Byte) (ok : Bool) : (finish s sel st bs ok).power = s.power :=
  finish_keeps (g := State.power) (fun _ _ _ _ _ => rfl) s sel st bs ok
@[simp] theorem finish_heat (s : State) (sel : InFlight → Bool) (st : Nat) (bs : List Byte) (ok : Bool) : (finish s sel st bs ok).heat = s.heat :=
  finish_keeps (g := State.heat) (fun _ _ _ _ _ => rfl) s sel st bs ok
@[simp] theorem finish_keys (s : State) (sel : InFlight → Bool) (st : Nat) (bs : List Byte) (ok : Bool) : (finish s sel st bs ok).keys = s.keys :=
  finish_keeps (g := State.keys) (fun _ _ _ _ _ => rfl) s sel st bs ok
@[simp] theorem finish_faults (s : State) (sel : InFlight → Bool) (st : Nat) (bs : List Byte) (ok : Bool) : (finish s sel st bs ok).faults = s.faults :=
  finish_keeps (g := State.faults) (fun _ _ _ _ _ => rfl) s sel st bs ok
@[simp] theorem finish_fw (s : State) (sel : InFlight → Bool) (st : Nat) (bs : List Byte) (ok : Bool) : (finish s sel st bs ok).fw = s.fw :=
  finish_keeps (g := State.fw) (fun _ _ _ _ _ => rfl) s sel st bs ok

/-! ## postProgress, by field -/

@[simp] theorem postProgress_now (s : State) (f : InFlight) : (postProgress s f).now = s.now :=
  postProgress_keeps (g := State.now) (fun _ _ _ _ _ => rfl) (fun _ _ => rfl) s f
@[simp] theorem postProgress_powerUpAt (s : State) (f : InFlight) : (postProgress s f).powerUpAt = s.powerUpAt :=
  postProgress_keeps (g := State.powerUpAt) (fun _ _ _ _ _ => rfl) (fun _ _ => rfl) s f
@[simp] theorem postProgress_pending (s : State) (f : InFlight) : (postProgress s f).pending = s.pending :=
  postProgress_keeps (g := State.pending) (fun _ _ _ _ _ => rfl) (fun _ _ => rfl) s f
@[simp] theorem postProgress_fuses (s : State) (f : InFlight) : (postProgress s f).fuses = s.fuses :=
  postProgress_keeps (g := State.fuses) (fun _ _ _ _ _ => rfl) (fun _ _ => rfl) s f
@[simp] theorem postProgress_boot (s : State) (f : InFlight) : (postProgress s f).boot = s.boot :=
  postProgress_keeps (g := State.boot) (fun _ _ _ _ _ => rfl) (fun _ _ => rfl) s f
@[simp] theorem postProgress_tick (s : State) (f : InFlight) : (postProgress s f).tick = s.tick :=
  postProgress_keeps (g := State.tick) (fun _ _ _ _ _ => rfl) (fun _ _ => rfl) s f
@[simp] theorem postProgress_host (s : State) (f : InFlight) : (postProgress s f).host = s.host :=
  postProgress_keeps (g := State.host) (fun _ _ _ _ _ => rfl) (fun _ _ => rfl) s f
@[simp] theorem postProgress_eth (s : State) (f : InFlight) : (postProgress s f).eth = s.eth :=
  postProgress_keeps (g := State.eth) (fun _ _ _ _ _ => rfl) (fun _ _ => rfl) s f
@[simp] theorem postProgress_sess (s : State) (f : InFlight) : (postProgress s f).sess = s.sess :=
  postProgress_keeps (g := State.sess) (fun _ _ _ _ _ => rfl) (fun _ _ => rfl) s f
@[simp] theorem postProgress_tiles (s : State) (f : InFlight) : (postProgress s f).tiles = s.tiles :=
  postProgress_keeps (g := State.tiles) (fun _ _ _ _ _ => rfl) (fun _ _ => rfl) s f
@[simp] theorem postProgress_cores (s : State) (f : InFlight) : (postProgress s f).cores = s.cores :=
  postProgress_keeps (g := State.cores) (fun _ _ _ _ _ => rfl) (fun _ _ => rfl) s f
@[simp] theorem postProgress_ccs (s : State) (f : InFlight) : (postProgress s f).ccs = s.ccs :=
  postProgress_keeps (g := State.ccs) (fun _ _ _ _ _ => rfl) (fun _ _ => rfl) s f
@[simp] theorem postProgress_wain (s : State) (f : InFlight) : (postProgress s f).wain = s.wain :=
  postProgress_keeps (g := State.wain) (fun _ _ _ _ _ => rfl) (fun _ _ => rfl) s f
@[simp] theorem postProgress_glns (s : State) (f : InFlight) : (postProgress s f).glns = s.glns :=
  postProgress_keeps (g := State.glns) (fun _ _ _ _ _ => rfl) (fun _ _ => rfl) s f
@[simp] theorem postProgress_stks (s : State) (f : InFlight) : (postProgress s f).stks = s.stks :=
  postProgress_keeps (g := State.stks) (fun _ _ _ _ _ => rfl) (fun _ _ => rfl) s f
@[simp] theorem postProgress_cellars (s : State) (f : InFlight) : (postProgress s f).cellars = s.cellars :=
  postProgress_keeps (g := State.cellars) (fun _ _ _ _ _ => rfl) (fun _ _ => rfl) s f
@[simp] theorem postProgress_memTest (s : State) (f : InFlight) : (postProgress s f).memTest = s.memTest :=
  postProgress_keeps (g := State.memTest) (fun _ _ _ _ _ => rfl) (fun _ _ => rfl) s f
@[simp] theorem postProgress_place (s : State) (f : InFlight) : (postProgress s f).place = s.place :=
  postProgress_keeps (g := State.place) (fun _ _ _ _ _ => rfl) (fun _ _ => rfl) s f
@[simp] theorem postProgress_fab (s : State) (f : InFlight) : (postProgress s f).fab = s.fab :=
  postProgress_keeps (g := State.fab) (fun _ _ _ _ _ => rfl) (fun _ _ => rfl) s f
@[simp] theorem postProgress_coll (s : State) (f : InFlight) : (postProgress s f).coll = s.coll :=
  postProgress_keeps (g := State.coll) (fun _ _ _ _ _ => rfl) (fun _ _ => rfl) s f
@[simp] theorem postProgress_power (s : State) (f : InFlight) : (postProgress s f).power = s.power :=
  postProgress_keeps (g := State.power) (fun _ _ _ _ _ => rfl) (fun _ _ => rfl) s f
@[simp] theorem postProgress_heat (s : State) (f : InFlight) : (postProgress s f).heat = s.heat :=
  postProgress_keeps (g := State.heat) (fun _ _ _ _ _ => rfl) (fun _ _ => rfl) s f
@[simp] theorem postProgress_keys (s : State) (f : InFlight) : (postProgress s f).keys = s.keys :=
  postProgress_keeps (g := State.keys) (fun _ _ _ _ _ => rfl) (fun _ _ => rfl) s f
@[simp] theorem postProgress_faults (s : State) (f : InFlight) : (postProgress s f).faults = s.faults :=
  postProgress_keeps (g := State.faults) (fun _ _ _ _ _ => rfl) (fun _ _ => rfl) s f
@[simp] theorem postProgress_fw (s : State) (f : InFlight) : (postProgress s f).fw = s.fw :=
  postProgress_keeps (g := State.fw) (fun _ _ _ _ _ => rfl) (fun _ _ => rfl) s f

/-! ## The other memories, and the answer's other parts -/

@[simp] theorem violation_spad (s : State) (m : Nat) : (violation s m).mem.spad = s.mem.spad :=
  violation_keeps (g := fun s => s.mem.spad) (fun _ _ _ _ _ => rfl) s m
@[simp] theorem violation_gens (s : State) (m : Nat) : (violation s m).mem.gens = s.mem.gens :=
  violation_keeps (g := fun s => s.mem.gens) (fun _ _ _ _ _ => rfl) s m
@[simp] theorem violation_stk (s : State) (m : Nat) : (violation s m).mem.stk = s.mem.stk :=
  violation_keeps (g := fun s => s.mem.stk) (fun _ _ _ _ _ => rfl) s m
@[simp] theorem answer_spad (s : State) (r : Req) (st : Nat) (bs : List Byte) (ok : Bool) : (answer s r st bs ok).mem.spad = s.mem.spad :=
  answer_keeps (g := fun s => s.mem.spad) (fun _ _ _ _ _ => rfl) s r st bs ok
@[simp] theorem answer_gens (s : State) (r : Req) (st : Nat) (bs : List Byte) (ok : Bool) : (answer s r st bs ok).mem.gens = s.mem.gens :=
  answer_keeps (g := fun s => s.mem.gens) (fun _ _ _ _ _ => rfl) s r st bs ok
@[simp] theorem answer_stk (s : State) (r : Req) (st : Nat) (bs : List Byte) (ok : Bool) : (answer s r st bs ok).mem.stk = s.mem.stk :=
  answer_keeps (g := fun s => s.mem.stk) (fun _ _ _ _ _ => rfl) s r st bs ok
@[simp] theorem finish_spad (s : State) (sel : InFlight → Bool) (st : Nat) (bs : List Byte) (ok : Bool) : (finish s sel st bs ok).mem.spad = s.mem.spad :=
  finish_keeps (g := fun s => s.mem.spad) (fun _ _ _ _ _ => rfl) s sel st bs ok
@[simp] theorem finish_gens (s : State) (sel : InFlight → Bool) (st : Nat) (bs : List Byte) (ok : Bool) : (finish s sel st bs ok).mem.gens = s.mem.gens :=
  finish_keeps (g := fun s => s.mem.gens) (fun _ _ _ _ _ => rfl) s sel st bs ok
@[simp] theorem finish_stk (s : State) (sel : InFlight → Bool) (st : Nat) (bs : List Byte) (ok : Bool) : (finish s sel st bs ok).mem.stk = s.mem.stk :=
  finish_keeps (g := fun s => s.mem.stk) (fun _ _ _ _ _ => rfl) s sel st bs ok
@[simp] theorem postProgress_spad (s : State) (f : InFlight) : (postProgress s f).mem.spad = s.mem.spad :=
  postProgress_keeps (g := fun s => s.mem.spad) (fun _ _ _ _ _ => rfl) (fun _ _ => rfl) s f
@[simp] theorem postProgress_gens (s : State) (f : InFlight) : (postProgress s f).mem.gens = s.mem.gens :=
  postProgress_keeps (g := fun s => s.mem.gens) (fun _ _ _ _ _ => rfl) (fun _ _ => rfl) s f
@[simp] theorem postProgress_stk (s : State) (f : InFlight) : (postProgress s f).mem.stk = s.mem.stk :=
  postProgress_keeps (g := fun s => s.mem.stk) (fun _ _ _ _ _ => rfl) (fun _ _ => rfl) s f

end Sys2Proof.Machine
end

