-- ==== Sys2Proof/Laws/Mailbox.lean ====
section
/-!
SUPPORT. Laws/Mailbox.lean: what answering a mailbox command does, said once: the response is posted (13 R337 to R340), and
nothing outside the mailboxes, their windows, the Event Hub and the outbox changes.
-/
namespace Sys2Proof.Machine

theorem fire_win (s : State) (n f o k : Nat) : winRead (fire s n) f o k = winRead s f o k := by simp [winRead]
theorem fire_box (s : State) (n m : Nat) : boxOf (fire s n) m = boxOf s m := by simp [boxOf]

theorem mem_pendAll (s : State) (n : Nat) : (pendAll s n).outbox = s.outbox :=
  foldl_keeps State.outbox _ _ (fun s f => by split <;> rfl) s

/-- What has left the package stays in the record when events fire. -/
theorem mem_fire (s : State) (n : Nat) (o : Output) (h : o ∈ s.outbox) : o ∈ (fire s n).outbox := by
  have hw : ∀ s : State, (watchWake s n).outbox = s.outbox := fun s => by
    simp only [watchWake]; split
    · rfl
    · split <;> rfl
  have hd : ∀ s : State, o ∈ s.outbox → o ∈ (hayDeliver s n).outbox := fun s hs => by
    simp only [hayDeliver]
    repeat' split
    all_goals simp [hs]
  simp only [fire]
  split
  · rw [hw]
    split
    · rw [mem_pendAll]; exact h
    · exact hd _ (by rw [mem_pendAll]; exact h)
  · exact h

@[simp] theorem boxOf_setBox (s : State) (m k : Nat) (b : Mailbox) :
    boxOf (setBox s m b) k = if m = k then b else boxOf s k := by simp [boxOf, setBox]

/-- The newest entry of a response ring is the slot just put there. -/
theorem ringPut_posted (s : State) (m : Nat) (slot : List Byte) (h : slot.length = 64) :
    winRead (ringPut s m slot) m (0x400 + 64 * (((boxOf (ringPut s m slot) m).rspTail + 15) % 16)) 64 = slot := by
  have hb : (boxOf (ringPut s m slot) m).rspTail = ((boxOf s m).rspTail + 1) % 2 ^ 32 := by
    simp only [ringPut]; split <;> simp [fire_box]
  have hi : (((boxOf s m).rspTail + 1) % 2 ^ 32 + 15) % 16 = (boxOf s m).rspTail % 16 := by omega
  have hw : winRead (ringPut s m slot) m (0x400 + 64 * ((boxOf s m).rspTail % 16)) 64
      = winRead (winWrite s m (0x400 + 64 * ((boxOf s m).rspTail % 16)) slot) m (0x400 + 64 * ((boxOf s m).rspTail % 16)) 64 := by
    simp only [ringPut]; split
    · rw [fire_win]; rfl
    · rfl
  rw [hb, hi, hw]
  conv => lhs; rw [← h]
  exact winRead_winWrite_self s m _ slot

theorem length_rspSlot (f : InFlight) (st est : Nat) (bs : List Byte) : (rspSlot f st est bs).length = 64 := length_leBytes _ _

theorem mem_ringPut (s : State) (m : Nat) (slot : List Byte) (o : Output) (h : o ∈ s.outbox) :
    o ∈ (ringPut s m slot).outbox := by
  simp only [ringPut]; split
  · exact mem_fire _ _ _ h
  · exact h

theorem postSlot_posted (s : State) (m : Nat) (slot inline : List Byte) (h : slot.length = 64) :
    SlotPosted (postSlot s m slot inline) m slot inline := by
  simp only [SlotPosted, postSlot]
  split
  · exact ringPut_posted s m slot h
  · split
    · rename_i _ h5; simp [show m = 5 by simpa using h5]
    · rename_i _ h5; simp [show ¬ m = 5 by simpa using h5]

theorem winRead_ringPut_out (s : State) (m o n : Nat) (slot : List Byte) (h : slot.length = 64) (ho : 0x1000 ≤ o) :
    winRead (ringPut s m slot) m o n = winRead s m o n := by
  have : winRead (winWrite s m (0x400 + 64 * ((boxOf s m).rspTail % 16)) slot) m o n = winRead s m o n :=
    winRead_winWrite_out _ _ _ _ _ _ _ (.inr (by omega))
  simp only [ringPut]; split
  · rw [fire_win]; exact this
  · exact this

theorem slotFor_eq (s u : State) (r : Req) (st est : Nat) (bs : List Byte) : replySlot s r st est bs = replySlot u r st est bs := rfl

theorem canMaster_postSlot (s : State) (m f : Nat) (x y : List Byte) : canMaster (postSlot s m x y) f = canMaster s f := by
  have : (postSlot s m x y).host = s.host := postSlot_keeps (g := State.host) (fun _ _ _ _ _ => rfl) s m x y
  simp [canMaster, fnOf, this]

/-- The final response is posted, with its payload in its place (13 R337 to R340). -/
theorem postFinal_replied (s v : State) (r : Req) (st : Nat) (bs : List Byte) (ok : Bool) (hb : r.ploc = 1 → r.buf ≠ 0 ∨ bs = []) :
    Replied (postFinal s (flightOf v r .storeWait) st bs ok) r st bs ok := by
  have hl := length_rspSlot (flightOf v r .storeWait) st 0 bs
  obtain ⟨f, hf⟩ : ∃ f, f = flightOf v r .storeWait := ⟨_, rfl⟩
  have e1 : f.mb = r.mb := by rw [hf]; rfl
  have e2 : f.ploc = r.ploc := by rw [hf]; rfl
  have e3 : f.buf = r.buf := by rw [hf]; rfl
  have e4 : f.hostAddr = r.hostAddr := by rw [hf]; rfl
  have e5 : f.discarded = false := by rw [hf]; rfl
  rw [← hf] at hl ⊢
  simp only [postFinal, e1, e2, e3, e4, e5, Bool.false_eq_true, if_false]
  subst hf
  by_cases hm : r.mb ≤ 4
  · by_cases h1 : r.ploc = 1
    · have hn : r.buf ≠ 0 ∨ bs = [] := hb h1
      simp only [h1, hm, beq_self_eq_true, decide_true, Bool.and_self, if_true]
      refine ⟨fun _ => ⟨?_, fun _ _ => ?_, fun _ h => by omega⟩, fun h => absurd h.1 (by omega)⟩
      · simp only [SlotPosted, hm, if_true, postSlot]
        have := ringPut_posted (winWrite s r.mb (0x1000 * r.buf) bs) r.mb _ hl
        simpa [replySlot, rspSlot, flightOf, h1] using this
      · simp only [postSlot, hm, if_true]
        rcases hn with hn | rfl
        · rw [winRead_ringPut_out _ _ _ _ _ (length_rspSlot _ _ _ _) (by omega)]
          exact winRead_winWrite_self _ _ _ _
        · rfl
    · have h1' : (r.ploc == 1) = false := by simpa using h1
      by_cases h2 : r.ploc = 2 ∧ bs ≠ []
      · obtain ⟨h2, hbs⟩ := h2
        by_cases hr : ok = true ∧ canMaster s r.mb = true
        · obtain ⟨rfl, hc⟩ := hr
          simp only [h2, hm, hbs, hc, ne_eq, not_false_eq_true, beq_self_eq_true, decide_true, Bool.and_self, if_true,
            Nat.reduceBEq, Bool.false_and, Bool.false_eq_true, if_false]
          refine ⟨fun _ => ⟨?_, fun _ h => by omega, fun _ _ _ => ?_⟩, fun h => absurd ⟨rfl, ?_⟩ h.2.2.2⟩
          · simp only [SlotPosted, hm, if_true, postSlot]
            have := ringPut_posted (s.emit (.hostWrite r.mb r.hostAddr bs)) r.mb _ hl
            simpa [replySlot, rspSlot, flightOf, h2] using this
          · simp only [postSlot, hm, if_true]
            exact mem_ringPut _ _ _ _ (by simp)
          · rw [canMaster_postSlot]; exact hc
        · have hr' : (ok && canMaster s r.mb) = false := by
            cases ok <;> simp_all
          simp only [h2, hm, hbs, hr', ne_eq, not_false_eq_true, beq_self_eq_true, decide_true, Bool.and_self, if_true,
            Nat.reduceBEq, Bool.false_and, Bool.false_eq_true, if_false]
          have hr2 : ∀ x y, ¬(ok = true ∧ canMaster (postSlot s r.mb x y) r.mb = true) := fun x y => by
            rw [canMaster_postSlot]; exact hr
          refine ⟨fun h => absurd ⟨h2, hm, hbs, hr2 _ _⟩ h, fun _ => ?_⟩
          · have := postSlot_posted s r.mb (rspSlot (flightOf v r .storeWait) 0x40 0 []) [] (length_rspSlot _ _ _ _)
            simpa [replySlot, rspSlot, flightOf, h2] using this
      · have h2' : ¬(r.ploc == 2 && decide (r.mb ≤ 4) && decide (bs ≠ [])) = true := by
          by_cases hp : r.ploc = 2
          · have : bs = [] := Decidable.byContradiction fun hx => h2 ⟨hp, hx⟩
            simp [this]
          · simp [hp]
        simp only [h1', Bool.false_and, Bool.false_eq_true, if_false]
        rw [if_neg h2']
        refine ⟨fun _ => ⟨?_, fun _ h => absurd h h1, fun _ h hx => absurd ⟨h, hx⟩ h2⟩, fun h => absurd ⟨h.1, h.2.2.1⟩ h2⟩
        exact postSlot_posted s r.mb _ _ hl
  · have hm' : decide (r.mb ≤ 4) = false := by simpa using hm
    simp only [hm', Bool.and_false, Bool.false_and, Bool.false_eq_true, if_false]
    refine ⟨fun _ => ⟨?_, fun h => absurd h hm, fun h => absurd h hm⟩, fun h => absurd h.2.1 hm⟩
    exact postSlot_posted s r.mb _ _ hl

/-- An answer is posted, with its payload in its place. -/
theorem answer_replied (s : State) (r : Req) (st : Nat) (bs : List Byte) (ok : Bool)
    (hb : r.ploc = 1 → r.buf ≠ 0 ∨ bs = []) :
    Replied (answer s r st bs ok) r st bs ok := postFinal_replied _ _ r st bs ok hb

/-- A payload in the window has a buffer of its own (R338), once the checks have passed. -/
theorem buf_of_check {s : State} {c : Cmd} {k : Chk} {r : Req} {f h : Bool} (hc : check s c k r f h = 0) :
    r.ploc = 1 → r.buf ≠ 0 := by
  intro h1 h0
  have hb : headBad s c r = true := by simp [headBad, h1, h0]
  simp only [check, hb, Bool.true_or, if_true] at hc
  split at hc <;> omega

/-- A mailbox command whose request is taken and passes the checks, and whose body ends it: the response is posted and the
rest of the state is the body's. -/
theorem mbxCmd_answers {c : Cmd} {sel : Req → Bool} {chk : Req → State → Chk} {body : Req → State → State × Ans}
    {t : Nat} {a : MbxArgs} {s : State} {r : Req} {k : Chk} {s2 : State} {st : Nat} {bs : List Byte} {i : Instr}
    (hi : exec i s = mbxCmd c sel chk body t a s) (h : Accepts (s.clock t) a c k r) (hs : sel r = true)
    (hk : chk r (take (s.clock t) a.mb) = k) (hb : body r (take (s.clock t) a.mb) = (s2, .done st bs)) :
    Completes i s fun u => Replied u r st bs a.returnOk ∧
      ButMail { s2 with now := max s.now t, powerUpAt := s.powerUpAt, pending := s.pending } u := by
  refine ⟨_, (hi.trans ?_ : exec i s = Host.Outcome.next { answer s2 r st bs a.returnOk with
    now := max s.now t, powerUpAt := s.powerUpAt, pending := s.pending }), ?_, ?_⟩
  · simp only [mbxCmd, run, h.next, h.row, beq_self_eq_true, hs, Bool.and_self, if_true, hk, h.pass, hb]
  · exact answer_replied s2 r st bs a.returnOk (fun h1 => .inl (buf_of_check h.pass h1))
  · have hm : (answer s2 r st bs a.returnOk).mem = { s2.mem with win := (answer s2 r st bs a.returnOk).mem.win } := by
      conv => lhs; rw [show (answer s2 r st bs a.returnOk).mem = ⟨_, _, _, _⟩ from rfl]
      simp
    simp [ButMail, ← hm]

/-- The same for a statement: `x` is the command's meaning, its body ends it with status `st` and payload `bs`, and leaves the
state `e` but for what `ButMail` does not see. -/
theorem answers_of {c : Cmd} {sel : Req → Bool} {chk : Req → State → Chk} {body : Req → State → State × Ans}
    {t : Nat} {a : MbxArgs} {s : State} {r : Req} {k : Chk} {st : Nat} {bs : List Byte} {i : Instr} {e : State} (x : Out)
    (hi : exec i s = x) (hx : x = mbxCmd c sel chk body t a s) (h : Accepts (s.clock t) a c k r) (hs : sel r = true)
    (hk : chk r (take (s.clock t) a.mb) = k) (hb : (body r (take (s.clock t) a.mb)).2 = .done st bs)
    (he : ∀ u, ButMail { (body r (take (s.clock t) a.mb)).1 with
      now := max s.now t, powerUpAt := s.powerUpAt, pending := s.pending } u → ButMail e u) :
    Answers i s r st bs a.returnOk e := by
  obtain ⟨u, hu, h1, h2⟩ := mbxCmd_answers (hi.trans hx) h hs hk (Prod.ext rfl hb)
  exact ⟨u, hu, h1, he u h2⟩

/-! ## Commands that stay in flight -/

theorem fire_flight (s : State) (n : Nat) : (fire s n).mbx.flight = s.mbx.flight := by simp

theorem ringPut_flight (s : State) (m : Nat) (bs : List Byte) : (ringPut s m bs).mbx.flight = s.mbx.flight := by
  simp only [ringPut]; split
  · rw [fire_flight]; rfl
  · rfl

theorem drainRsp_flight (s : State) (m : Nat) (l : List (Nat × List Byte)) :
    (drainRsp s m l).mbx.flight = s.mbx.flight := by
  induction l generalizing s with
  | nil => rfl
  | cons x r ih =>
    simp only [drainRsp]; split
    · rw [ih, ringPut_flight]
    · rfl

theorem postSlot_flight (s : State) (m : Nat) (x y : List Byte) : (postSlot s m x y).mbx.flight = s.mbx.flight := by
  simp only [postSlot]; repeat' split
  · exact ringPut_flight _ _ _
  all_goals rfl

/-- An IN_PROGRESS gives the command in flight its estimate. -/
theorem postProgress_flight (s : State) (f : InFlight) : (postProgress s f).mbx.flight =
    s.mbx.flight.map (fun h => if h == f then { f with estEnd := some (s.now + 1000000 * estimateOf s f) } else h) := by
  simp only [postProgress]; repeat' split
  · rfl
  · rw [drainRsp_flight]
  · rw [postSlot_flight]

/-- A mailbox command whose request is taken and passes the checks, and whose body leaves it in flight: `x` is its meaning, and
the state is `e` but for what `ButMail` does not see and the free value of the estimate. -/
theorem starts_of {c : Cmd} {sel : Req → Bool} {chk : Req → State → Chk} {body : Req → State → State × Ans}
    {t : Nat} {a : MbxArgs} {s : State} {r : Req} {k : Chk} {kd : BgKind} {i : Instr} {e : State} (x : Out)
    (hi : exec i s = x) (hx : x = mbxCmd c sel chk body t a s) (h : Accepts (s.clock t) a c k r) (hs : sel r = true)
    (hk : chk r (take (s.clock t) a.mb) = k) (hb : (body r (take (s.clock t) a.mb)).2 = .prog kd)
    (he : ∀ u, ButMail { (body r (take (s.clock t) a.mb)).1 with
      now := max s.now t, powerUpAt := s.powerUpAt, pending := s.pending, freeCtr := u.freeCtr } u →
      ButMail { e with freeCtr := u.freeCtr } u) :
    Starts i s r kd e := by
  obtain ⟨s2, hs2⟩ : ∃ s2, s2 = (body r (take (s.clock t) a.mb)).1 := ⟨_, rfl⟩
  have hb' : body r (take (s.clock t) a.mb) = (s2, .prog kd) := Prod.ext hs2.symm hb
  rw [← hs2] at he
  obtain ⟨v, hv⟩ : ∃ v, v = postProgress { s2 with mbx := { s2.mbx with
    flight := s2.mbx.flight ++ [flightOf s2 r kd] } } (flightOf s2 r kd) := ⟨_, rfl⟩
  refine ⟨{ v with now := max s.now t, powerUpAt := s.powerUpAt, pending := s.pending },
    hi.trans (hx.trans ?_), ⟨{ flightOf s2 r kd with estEnd := some (s2.now + 1000000 * estimateOf { s2 with mbx := { s2.mbx with
      flight := s2.mbx.flight ++ [flightOf s2 r kd] } } (flightOf s2 r kd)) }, ?_, rfl, rfl, rfl, rfl, by simp⟩, he _ ?_⟩
  · simp only [mbxCmd, run, h.next, h.row, beq_self_eq_true, hs, Bool.and_self, if_true, hk, h.pass, hb', hv]
  · show _ ∈ v.mbx.flight
    rw [hv, postProgress_flight]
    simp
  · have hm : v.mem = { s2.mem with win := v.mem.win } := by
      conv => lhs; rw [show v.mem = ⟨_, _, _, _⟩ from rfl]
      rw [hv]
      congr 1
      · exact postProgress_keeps (g := fun s => s.mem.spad) (fun _ _ _ _ _ => rfl) (fun _ _ => rfl) _ _
      · exact postProgress_keeps (g := fun s => s.mem.gens) (fun _ _ _ _ _ => rfl) (fun _ _ => rfl) _ _
      · exact postProgress_keeps (g := fun s => s.mem.stk) (fun _ _ _ _ _ => rfl) (fun _ _ => rfl) _ _
    simp only [ButMail, State.mk.injEq, true_and, ← hm]
    repeat' apply And.intro
    all_goals simp [hv]

end Sys2Proof.Machine
end

