-- ==== Sys2Proof/Tests/Slice0.lean ====
section
/-!
SUPPORT. Tests/Slice0.lean: values the spec's worked examples give, the smoke tests of WellFormed, and for the hypotheses of
every statement of Certificates/Slice0/Obligations.lean a concrete state and operands that meet them: witness_<statement>_<n>.
-/
set_option linter.unusedVariables false
set_option Elab.async false

namespace Sys2Proof.Tests
open Sys2Proof.Machine

/-- The slot of a request (Table 13-6). -/
def reqSlot (op part len ploc respMax params : Nat) : Nat :=
  packBits [(op, 16), (1, 16), (len, 28), (ploc, 2), (0, 2), (1, 4), (0, 4), (part, 3), (0, 5), (0, 48), (respMax, 28), (0, 36), (0, 64),
    (params, 256)]

/-- The operator's request on the management port. -/
def opAsk (op part params : Nat) (data : List Byte := []) : MbxArgs :=
  { mb := 5, slot := reqSlot op part data.length 0 (2 ^ 28 - 1) params, data := data }

/-- A package in service, with the operator's management session live and the given partitions. -/
def inService (parts : SMap Part) (pkg : PkgState := .configured) : State :=
  { sess := { pkg := some pkg, parts := parts }, mbx := { mgmtLive := true, hay := [(0, { state := .active })] },
    boot := { stage := some 8 } }

/-- The tenant of partition 0 asks on its ring, with a live session, `payload` in window buffer 1 (or inline). -/
def tenAsk (s : State) (op ploc params : Nat) (payload : List Byte := []) : State :=
  let s1 := winWrite (winWrite s 1 0 (leBytes 64 (reqSlot op 0 payload.length ploc 4096 params))) 1 0x1000 payload
  { s1 with mbx := { s1.mbx with boxes := [(1, { reqTail := 1, waitSince := some 0 })] },
            keys := { s1.keys with spdm := [(1, { live := true })] } }

def tenArgs : MbxArgs := { mb := 1 }

/-- The request that is offered. -/
def asked (s : State) (a : MbxArgs) : Req := decodeReq s a (offered s a)

/-- A partition of session 9. -/
def wPart (st : PState) : Part := { st := st, session := 9 }

/-- A stack that works. -/
def wStack : Stack := { trained := true, linkUp := true }

theorem next_asked {s : State} {a : MbxArgs} (h : (nextReq s a).isSome = true) : nextReq s a = some (asked s a) := by
  unfold nextReq at *
  split at h <;> simp_all [asked]

/-- A member a free choice picks. -/
theorem choose_some {α : Type} (s : State) (n : Nat) (d : α) {l : List α} (h : l ≠ []) : choose s n l = some ((choose s n l).getD d) := by
  have hl : Config.choice s.freeCtr n % l.length < l.length := Nat.mod_lt _ (List.length_pos_iff.mpr h)
  simp [choose, List.getElem?_eq_getElem hl]

theorem none_releasing (s : State) (h : s.cellars.all (fun e => !e.2.releasing) = true) (p : Nat) : (cellarOf s p).releasing = false := by
  unfold cellarOf mget
  generalize s.cellars = l at h
  induction l with
  | nil => rfl
  | cons e r ih =>
    simp only [List.all_cons, Bool.and_eq_true, Bool.not_eq_true'] at h
    unfold mfind
    split
    · exact h.1
    · exact ih h.2

theorem freePages_empty {s : State} (h : s.place.bufs = []) (r : Nat) : freePages s r = 131072 := by
  have hp : ∀ i, pageTaken s r i = false := fun i => by simp [pageTaken, bufAt, h]
  simp only [freePages, hp, Bool.not_false]; rw [List.filter_eq_self.mpr (fun _ _ => rfl), List.length_range]

theorem all_mem {l : List Tgt} {P : Nat → Bool} (h : (l.all fun x => match x with | .mem a => P a | _ => true) = true) :
    ∀ a, Tgt.mem a ∈ l → P a = true := fun a ha => List.all_eq_true.mp h (.mem a) ha

/-! ## Values the spec gives -/

/-- 03 Table 3-6, RNE and RTZ of 5.3, 5.25, 470.0 and -0.0009. -/
theorem test_e4m3_rne : [0x40A9999A, 0x40A80000, 0x43EB0000, 0xBA6BEDFA].map (fun w => e4m3.enc .rne true (fp32.dec w)) =
    [(0x4B, fInexact), (0x4A, fInexact), (0x7E, fSaturated ||| fInexact), (0x80, fInexact)] := by decide
theorem test_e4m3_rtz : [0x40A9999A, 0x40A80000, 0x43EB0000, 0xBA6BEDFA].map (fun w => (e4m3.enc .rtz true (fp32.dec w)).1) =
    [0x4A, 0x4A, 0x7E, 0x80] := by decide

/-- 03 Table 3-6: 470.0 goes to 480, and saturates, on 22 of the 32 values of R. -/
theorem test_e4m3_sr : ((List.range 32).filter (fun r =>
    e4m3.enc (.sr r) true (fp32.dec 0x43EB0000) = (0x7E, fSaturated ||| fInexact))).length = 22 := by decide

/-- 03, the MXFP4 example: 10.0, 3.0 and -0.7 become 0x6, 0x3 and 0x9 under the scale 0x80. -/
theorem test_mxfp4 : let b := encBlock (some e2m1) 2 [.rne, .rne, .rne] [fp32.dec 0x41200000, fp32.dec 0x40400000, fp32.dec 0xBF333333]
    (b.1, b.2.1) = ([0x6, 0x3, 0x9], 0x80) := by decide

/-- 03, the T2 example: byte 0xA7 holds +1, 0, -1, -1, +1. -/
theorem test_t2_byte : (List.range 5).map (t2Digit 0xA7) = [1, 0, -1, -1, 1] := by decide

/-- 03, the VSEED example: lane 3 of logical tile 5. -/
theorem test_vseed : (seedGens 0x1234 5)[3]? = some 0x0005030000001234 := by decide

/-- 07, the interleave example: byte 2,107,152 of a width-3 group lies in frame 100 of stack 4, line 1,643,886. -/
theorem test_interleave : (bufByte ⟨1, 1, 0, 0, 3, 0, 3 * 2097152, 0, [.frame 3 9, .frame 4 100, .frame 5 7]⟩ 2107152).map
    (fun p => (p.1, (frameBytes * 100 + p.2) / 128)) = some (.frame 4 100, 1643886) := by decide

/-- 09, the example of R220: position 5, link 10 reaches position 16, where the wires are link 60. -/
theorem test_far_end : farEnd { boot := { posId := 5 } } 10 = 16 ∧ linkTo { boot := { posId := 16 } } 5 = 60 := by decide

/-- 11, the Bushel example: the largest magnitude 3.0 has the exponent 1. -/
theorem test_bushel_exponent : chunkExp [fp32.dec 0x3F800000, fp32.dec 0xBF800000, fp32.dec 0x40400000] = 1 := by decide

/-- 15, the example request: its slot's eight words. -/
def slotExample : Nat :=
  packBits [(0x70200, 64), (0x400, 64), (0x20, 64), (0, 64), (0x4C4B40, 64), (0x6000000012, 64), (0x3000000013, 64), (0, 64)]
theorem test_request_slot : (let r := decodeReq State.reset { mb := 0 } slotExample;
    [r.opcode, r.seq, r.len, r.ploc, r.part, r.respMax, r.f 0 64, r.f 64 16, r.f 96 32, r.f 128 16, r.f 160 32]) =
      [0x0200, 7, 0, 0, 4, 32, 5000000, 0x12, 96, 0x13, 48] := by decide +kernel

/-- 21, the example's energy: 12.5 mF at 48 V hold 6.3 J over the floor. -/
theorem test_holdup_energy : holdupMJ { boot := { holdupUf := 12500 } } 48000 = 6300 := by decide

/-- 10, the limiter example: an echo at 0 halves 2,000 GB/s, one at 3 us changes nothing, one at 9 us halves again. -/
theorem test_limiter : let s0 : State := setLimiter {} 40 { rate := 2000 }
    let s1 := echoFrom s0 40
    let s2 := echoFrom { s1 with now := 3000 } 40
    let s3 := echoFrom { s2 with now := 9000 } 40
    [s1, s2, s3].map (fun s => (limiterOf s 40).rate) = [1000, 1000, 500] := by decide +kernel

/-! ## The step -/

theorem test_idle : step State.reset = .next State.reset := rfl
theorem test_front_first (c : Instr) (l : List Instr) (s : State) :
    step { s with pending := c :: l } = exec c { s with pending := l } := rfl
theorem test_no_words (n w : Nat) : decodeTableWord n w = none := rfl

/-! ## Ill-formed commands are refused -/

/-! ## Well-formedness: for each check a term it refuses -/

/-- A thirteenth stack. -/
def badMem : MemIn := { errs := [⟨12, 0, []⟩] }

/-- A word beyond the scratchpad. -/
def badSpad : SpadIn := { bad := [327680] }

theorem test_wf_refuses_operand_forms :
    LineErr.wf ⟨0, 0, [72]⟩ = false ∧ MemIn.wf { badSectors := [(4, 0)] } = false ∧ MbxArgs.wf { mb := 0, slot := 2 ^ 512 } = false ∧
    laneOrLocal 254 = false := by decide +kernel

/-- Every mailbox command names one of the seven mailboxes. -/
theorem test_wf_refuses_mailboxes : ([
    .unknownOpcode, .identity, .haywardHealth, .pkgStatus, .tileMap, .stageReport, .configSet, .configGet, .configDone,
    .watchListSet, .netConfig, .ethGidSet, .channelSet, .channelGet, .channelResume, .qpCreate, .qpModify, .qpDestroy,
    .mrReg, .mrDereg, .sessionCreate, .partStart, .partStop, .partFence, .partReset, .sessionEnd, .partStatus, .lptWrite,
    .lptRead, .linkDisable, .linkEnable, .linkRetrain, .quarantineRelease, .laneDisable, .laneEnable, .laneStatus,
    .linkStatus, .routerTelemetry, .partFabric, .grantSet, .modeSet, .powerStateActive, .powerStateIdle, .powerStateFallow,
    .powerStateOff, .powerStatus, .tallyRead, .forecastRead, .minuteReport, .flowReport, .thermalStatus, .bufAlloc, .bufFree,
    .bufQuery, .placementMode, .tileMovable, .frameMove, .placementStatus, .cellarLend, .cellarRelease, .stackHealth,
    .jobJoin, .jobLeave, .groupCreate, .groupDelete, .groupConfig, .groupStatus, .collStatus, .ownerClaim, .tenantBind,
    .baleLoad, .linkEncSet, .cellarKeyRotate, .linkKeyRotate, .keyStatus, .faultLogRead, .flightSampleRead, .replay,
    .violationRead, .jobAbort, .fwActivate, .fwCancel, .fwStatus, .snapshotRead] : List (Nat → MbxArgs → Instr)).all
      (fun c => (c 0 { mb := 6 }).wf && !(c 0 { mb := 7 }).wf) = true := by decide +kernel

theorem test_wf_refuses_0 : ([
    .pinFilterChange 0 3 false 0, .bringupS0 0 128 false 0 0, .bringupS1 0 (some 3) none, .bringupS1 0 none (some 3),
    .bringupS3 0 4 0, .bringupS3 0 0 (2 ^ 12), .bringupS4 0 [312] (List.replicate 8 0), .bringupS4 0 [] [],
    .bringupS5 0 0 [312] [] false, .bringupS5 0 0 [] [12] false, .bringupS6 0 [⟨12, 0, 0, 0, 0⟩] [] (List.replicate 12 0),
    .bringupS6 0 [⟨0, 2304, 0, 0, 0⟩] [] (List.replicate 12 0), .bringupS6 0 [⟨0, 0, 0, 0, 3⟩] [] (List.replicate 12 0),
    .bringupS6 0 [] [(12, 0)] (List.replicate 12 0), .bringupS6 0 [] [(0, 64)] (List.replicate 12 0), .bringupS6 0 [] [] [],
    .bringupS7 0 [], .railPgLoss 0 19, .tickBoundary 0 [], .overrunNotice 0 213 none, .sheafHung 0 4,
    .sequencerWatchdog 0 1152, .engineStall 0 4 0, .engineStall 0 1 288, .fenceDrainEnd 0 4, .flightSampleStore 0 4,
    .wqPush 0 1152 0, .wqPush 0 0 (2 ^ 64), .wqPushaddr 0 1152 0 {}, .wqPushaddr 0 0 (2 ^ 64) {}, .wqPushaddr 0 0 0 badSpad,
    .wqPushUnstall 0 1152, .wqResume 0 1152, .wqFlush 0 1152, .ccValWrite 0 1152 0, .ccAddWrite 0 1152 0,
    .vseedWrite 0 1152 0, .vseedWrite 0 0 (2 ^ 64), .vseedApply 0 1152, .sheafDoneWrite 0 1152 0, .sheafNextRead 0 1152,
    .rcFieldRead 0 (.bar0 5 0 false), .rcFieldRead 0 (.bar0 0 65536 false), .rcFieldRead 0 (.spadEcc 1152),
    .bar0BadAccess 0 5 0 0 false, .registerWrite 0 (.bar0 5 0 0 false), .registerWrite 0 (.bar0 0 65536 0 false),
    .registerWrite 0 (.bar0 0 0 (2 ^ 32) false), .registerWrite 0 (.bar2 5 0 [] false),
    .registerWrite 0 (.bar2 0 65537 [] false), .registerWrite 0 (.csr 1152 0 0), .registerWrite 0 (.csr 0 4096 0),
    .registerWrite 0 (.csr 0 0 (2 ^ 64)), .descriptorIssue 0 288 1, .descriptorIssue 0 0 0, .descriptorIssue 0 0 7,
    .descriptorFail 0 1152 1 0, .descriptorFail 0 0 0 0, .descriptorFail 0 0 7 0, .mmaComplete 0 288 {},
    .mmaComplete 0 0 badSpad, .vopConvert 0 288 {}, .vopConvert 0 0 badSpad, .vopAdd 0 288 {}, .vopAdd 0 0 badSpad,
    .vopSub 0 288 {}, .vopSub 0 0 badSpad, .vopMul 0 288 {}, .vopMul 0 0 badSpad, .vopFma 0 288 {}, .vopFma 0 0 badSpad,
    .vopMin 0 288 {}, .vopMin 0 0 badSpad, .vopMax 0 288 {}, .vopMax 0 0 badSpad] : List Instr).all (fun i => !i.wf) = true := by decide +kernel

theorem test_wf_refuses_1 : ([
    .vopAbs 0 288 {}, .vopAbs 0 0 badSpad, .vopNeg 0 288 {}, .vopNeg 0 0 badSpad, .vopRcp 0 288 {}, .vopRcp 0 0 badSpad,
    .vopRsqrt 0 288 {}, .vopRsqrt 0 0 badSpad, .vopExp2 0 288 {}, .vopExp2 0 0 badSpad, .vopLog2 0 288 {},
    .vopLog2 0 0 badSpad, .vopCmpgt 0 288 {}, .vopCmpgt 0 0 badSpad, .vopCmpeq 0 288 {}, .vopCmpeq 0 0 badSpad,
    .tileDmaCopy 0 1152 0 {} {}, .tileDmaCopy 0 0 0 badMem {}, .tileDmaCopy 0 0 0 {} badSpad, .tileDmaFence 0 1152 0,
    .syncAdd 0 1152 0, .syncSet 0 1152 0, .syncNone 0 1152 0, .streamOutBlockSend 0 1152 0 {} {},
    .streamOutBlockSend 0 0 0 badMem {}, .streamOutBlockSend 0 0 0 {} badSpad, .streamOutComplete 0 1152 0,
    .gleanerDescComplete 0 1152 0, .gleanerFwdTimeout 0 1152 0, .boardLoad 0 1152 0 1 {}, .boardLoad 0 0 0 3 {},
    .boardLoad 0 0 0 1 badMem, .boardStore 0 1152 0 1 0 {}, .boardStore 0 0 0 3 0 {}, .boardStore 0 0 0 1 0 badMem,
    .seqFenceComplete 0 1152, .tileMoveStart 0 288, .tileMoveAbandon 0 288, .wainFetch 0 1024 {} {},
    .wainFetch 0 0 badMem {}, .wainFetch 0 0 {} badSpad, .wainBurstIssue 0 32 {} {}, .wainBurstIssue 0 0 badMem {},
    .wainBurstIssue 0 0 {} badSpad, .wainAgePromote 0 1024, .wainBurstWrite 0 32 {}, .wainBurstWrite 0 0 badMem,
    .wainCopy 0 1024, .wainFence 0 1024, .wainTimeout 0 32 0, .wainStall 0 1024, .gleanerDispatch 0 12 {} {},
    .gleanerDispatch 0 0 badMem {}, .gleanerDispatch 0 0 {} badSpad, .gleanerAgePromote 0 12, .scoreScan 0 12 {} {},
    .scoreScan 0 0 badMem {}, .scoreScan 0 0 {} badSpad, .weightedAcc 0 12 {} {}, .weightedAcc 0 0 badMem {},
    .weightedAcc 0 0 {} badSpad, .accMem 0 12 {} {}, .accMem 0 0 badMem {}, .accMem 0 0 {} badSpad, .optUpdate 0 12 {} {},
    .optUpdate 0 0 badMem {}, .optUpdate 0 0 {} badSpad, .gather 0 12 {} {}, .gather 0 0 badMem {}, .gather 0 0 {} badSpad,
    .scatter 0 12 {} {}, .scatter 0 0 badMem {}, .scatter 0 0 {} badSpad, .unpack 0 12 {} {}, .unpack 0 0 badMem {}] : List Instr).all (fun i => !i.wf) = true := by decide +kernel

theorem test_wf_refuses_2 : ([
    .unpack 0 0 {} badSpad, .gleanerFill 0 12 {} {}, .gleanerFill 0 0 badMem {}, .gleanerFill 0 0 {} badSpad,
    .gleanerCopy 0 12 {} {}, .gleanerCopy 0 0 badMem {}, .gleanerCopy 0 0 {} badSpad, .patternTest 0 12 {} {},
    .patternTest 0 0 badMem {}, .patternTest 0 0 {} badSpad, .gleanerComplete 0 12 0 {}, .gleanerComplete 0 0 0 badMem,
    .gleanerCmdExpire 0 12 {}, .gleanerCmdExpire 0 0 badMem, .memWriteback 0 12 0, .laneMark 0 12 0 0, .laneMark 0 0 64 0,
    .laneMark 0 0 0 36, .readTimingWindow 0 12 0 0 0 0, .readTimingWindow 0 0 64 0 0 0, .readTimingWindow 0 0 0 36 0 0,
    .readTimingWindow 0 0 0 0 16385 0, .readTimingWindow 0 0 0 0 0 16385, .probeRead 0 12 0 [], .probeRead 0 0 64 [],
    .probeRead 0 0 0 [36], .patrolRead 0 12 {}, .patrolRead 0 0 badMem, .patrolLevelUpdate 0 12, .cellarRead 0 4 0,
    .cellarFetchComplete 0 4 0 false, .cellarWrite 0 4 0 0 [] {}, .cellarWrite 0 0 0 4097 [] {},
    .cellarWrite 0 0 0 0 [] badMem, .cellarEvict 0 4 0 false, .migrationCopyEnd 0 12 0 {}, .migrationCopyEnd 0 0 0 badMem,
    .stubRetire 0 12 0, .frameFillDone 0 12 0, .frozenExpire 0 (2 ^ 16), .linkSignalDetect 0 213,
    .linkTrainComplete 0 71 0 0 [] 0 0 (List.replicate 3 none), .linkTrainComplete 0 0 0 0 [] 0 8 (List.replicate 3 none),
    .linkTrainComplete 0 0 0 0 [] 0 0 [], .linkTrainRetry 0 71, .loopbackRetrain 0 [], .codewordReceive 0 213 0 0 [],
    .codewordReceive 0 0 0 0 [2 ^ 256], .laneSignalLost 0 213, .marginWindow 0 213 0 0, .rxAdaptUpdate 0 213 0 0 none,
    .laneRetrainComplete 0 213 0 0, .linkFlitIdle 0 213, .linkFlitStatus 0 213, .linkFlitCredit 0 213, .linkFlitAdapt 0 213,
    .linkOutputSelect 0 71 0, .linkOutputSelect 0 0 3, .vcAgePromote 0 71 1, .vcAgePromote 0 0 0, .vcAgePromote 0 0 6,
    .packetForward 0 213 none, .packetAgedOut 0 71 0, .malformedPacket 0 213 none, .truncate 0 213 none,
    .write 0 213 none 0 {}, .write 0 0 none 0 badMem, .readReq 0 213 none 0 {} {}, .readReq 0 0 none 0 badMem {},
    .readReq 0 0 none 0 {} badSpad, .readResp 0 213 none, .writeAck 0 213 none, .syncAddPacket 0 213 none 0,
    .syncSetPacket 0 213 none 0, .syncAck 0 213 none] : List Instr).all (fun i => !i.wf) = true := by decide +kernel

theorem test_wf_refuses_3 : ([
    .gleanerCmd 0 213 none 0, .gleanerDone 0 213 none, .nack 0 213 none, .abort 0 213 none,
    .keyXchgHello 0 false 213 false 0, .keyXchgReply 0 false 213 false, .keyXchgFinish 0 false 213 false, .keyXchgRetry 0 71,
    .scrubNotice 0 213 none, .linkmap 0 213 none, .haywardMsg 0 213 none false, .markKUpdate 0 71 false, .rateAiPeriod 0 64,
    .collAllReduce 0 (2 ^ 16) 0 0 {} {}, .collAllReduce 0 0 (2 ^ 12) 0 {} {}, .collAllReduce 0 0 0 4 {} {},
    .collAllReduce 0 0 0 0 badMem {}, .collAllReduce 0 0 0 0 {} badSpad, .collReduceScatter 0 (2 ^ 16) 0 0 {} {},
    .collReduceScatter 0 0 (2 ^ 12) 0 {} {}, .collReduceScatter 0 0 0 4 {} {}, .collReduceScatter 0 0 0 0 badMem {},
    .collReduceScatter 0 0 0 0 {} badSpad, .collAllGather 0 (2 ^ 16) 0 0 {} {}, .collAllGather 0 0 (2 ^ 12) 0 {} {},
    .collAllGather 0 0 0 4 {} {}, .collAllGather 0 0 0 0 badMem {}, .collAllGather 0 0 0 0 {} badSpad,
    .collAllToAll 0 (2 ^ 16) 0 0 {} {}, .collAllToAll 0 0 (2 ^ 12) 0 {} {}, .collAllToAll 0 0 0 4 {} {},
    .collAllToAll 0 0 0 0 badMem {}, .collAllToAll 0 0 0 0 {} badSpad, .collBroadcast 0 (2 ^ 16) 0 0 {} {},
    .collBroadcast 0 0 (2 ^ 12) 0 {} {}, .collBroadcast 0 0 0 4 {} {}, .collBroadcast 0 0 0 0 badMem {},
    .collBroadcast 0 0 0 0 {} badSpad, .collReduce 0 (2 ^ 16) 0 0 {} {}, .collReduce 0 0 (2 ^ 12) 0 {} {},
    .collReduce 0 0 0 4 {} {}, .collReduce 0 0 0 0 badMem {}, .collReduce 0 0 0 0 {} badSpad,
    .collBarrier 0 (2 ^ 16) 0 0 {} {}, .collBarrier 0 0 (2 ^ 12) 0 {} {}, .collBarrier 0 0 0 4 {} {},
    .collBarrier 0 0 0 0 badMem {}, .collBarrier 0 0 0 0 {} badSpad, .collChannelFetch 0 64 {} {},
    .collChannelFetch 0 0 badMem {}, .collChannelFetch 0 0 {} badSpad, .collReady 0 213 none 0 {} {},
    .collReady 0 0 none 64 {} {}, .collReady 0 0 none 0 badMem {}, .collReady 0 0 none 0 {} badSpad,
    .collExp 0 213 none 0 {} {}, .collExp 0 0 none 64 {} {}, .collExp 0 0 none 0 badMem {}, .collExp 0 0 none 0 {} badSpad,
    .collAgreed 0 213 none 0 {} {}, .collAgreed 0 0 none 64 {} {}, .collAgreed 0 0 none 0 badMem {},
    .collAgreed 0 0 none 0 {} badSpad, .collContrib 0 213 none 0 {}, .collContrib 0 0 none 64 {},
    .collContrib 0 0 none 0 badMem, .collResult 0 213 none 0 {}, .collResult 0 0 none 64 {}, .collResult 0 0 none 0 badMem,
    .collArrive 0 213 none 0 {}, .collArrive 0 0 none 64 {}, .collArrive 0 0 none 0 badMem, .collFail 0 213 none 0 {},
    .collFail 0 0 none 64 {}, .collFail 0 0 none 0 badMem] : List Instr).all (fun i => !i.wf) = true := by decide +kernel

theorem test_wf_refuses_4 : ([
    .chunkComplete 0 (2 ^ 16) 0 0 0 0 {} {}, .chunkComplete 0 0 (2 ^ 12) 0 0 0 {} {}, .chunkComplete 0 0 0 4 0 0 {} {},
    .chunkComplete 0 0 0 0 0 0 badMem {}, .chunkComplete 0 0 0 0 0 0 {} badSpad, .collComplete 0 (2 ^ 16) 0 0 0 {},
    .collComplete 0 0 (2 ^ 12) 0 0 {}, .collComplete 0 0 0 4 0 {}, .collComplete 0 0 0 0 0 badMem,
    .collTimeout 0 (2 ^ 16) 0 0 0 {}, .collTimeout 0 0 (2 ^ 12) 0 0 {}, .collTimeout 0 0 0 4 0 {},
    .collTimeout 0 0 0 0 0 badMem, .thresherRestart 0 8 {}, .thresherRestart 0 0 badMem, .bar4Read 0 0 0 0 false {},
    .bar4Read 0 5 0 0 false {}, .bar4Read 0 1 0 0 false badMem, .bar4Write 0 0 0 [] false {}, .bar4Write 0 5 0 [] false {},
    .bar4Write 0 1 0 [] false badMem, .flr 0 5, .deviceReadTimeout 0 4 0, .ideIntegrityFail 0 0 0, .ideIntegrityFail 0 5 0,
    .ideIntegrityFail 0 1 2, .ethFrameReceive 0 2 .other, .ethFrameReceive 0 0 (.roce (2 ^ 24) false 0 0 .ack),
    .ethFrameReceive 0 0 (.roce 0 false (2 ^ 24) 0 .ack), .ethFrameReceive 0 0 (.arp (2 ^ 32)),
    .ethFrameReceive 0 0 (.solicit (2 ^ 128)), .rdmaInbound 0 2 {}, .rdmaInbound 0 0 badMem, .qpRingFetch 0 4096 false {} {},
    .qpRingFetch 0 0 false badMem {}, .qpRingFetch 0 0 false {} badSpad, .roceSend 0 4096 {}, .roceSend 0 0 badMem,
    .roceSendImm 0 4096 {}, .roceSendImm 0 0 badMem, .roceWrite 0 4096 {}, .roceWrite 0 0 badMem, .roceWriteImm 0 4096 {},
    .roceWriteImm 0 0 badMem, .roceRead 0 4096, .roceRecv 0 4096, .roceWrComplete 0 4096 false {},
    .roceWrComplete 0 0 false badMem, .roceAckTimeout 0 4096, .roceCnp 0 2, .roceRateIncrease 0 4096,
    .pfcPauseReceive 0 2 0 0, .pfcPauseReceive 0 0 8 0, .pfcPauseReceive 0 0 0 (2 ^ 16), .haywardCheckFail 0 2 1,
    .haywardCheckFail 0 0 0, .haywardCheckFail 0 0 7, .haywardIslandRestart 0 2, .haywardHealthPublish 0 2 0,
    .mbxDoorbell 0 5 0, .mbxRspHeadWrite 0 5 0, .mbxReset 0 5 false, .mbxAgePromote 0 7, .mbxProgressUpdate 0 7 0,
    .mbxProgressUpdate 0 0 (2 ^ 16), .mbxThrottleEnd 0 7, .i3cPrivateWrite 0 (List.replicate 65537 0), .eventDeliver 0 5 0,
    .eventDeliver 0 0 512, .evtPendWrite 0 5 0 0 false, .evtPendWrite 0 0 16 0 false, .evtPendWrite 0 0 1 0 true,
    .evtPendWrite 0 0 0 (2 ^ 64) false, .evtMaskWrite 0 5 0 0 false, .evtMaskWrite 0 0 16 0 false] : List Instr).all (fun i => !i.wf) = true := by decide +kernel

theorem test_wf_refuses_5 : ([
    .evtMaskWrite 0 0 1 0 true, .evtMaskWrite 0 0 0 (2 ^ 64) false, .evtPrivSetWrite 0 5 0 false, .evtPrivClrWrite 0 5 0,
    .partResetComplete 0 4 [] [] [] [], .partResetComplete 0 0 [⟨12, 0, 0, 0, 0⟩] [] [] [],
    .partResetComplete 0 0 [⟨0, 2304, 0, 0, 0⟩] [] [] [], .partResetComplete 0 0 [⟨0, 0, 0, 0, 3⟩] [] [] [],
    .partResetComplete 0 0 [] [(12, 0)] [] [], .partResetComplete 0 0 [] [(0, 64)] [] [],
    .partResetComplete 0 0 [] [] [12] [], .partResetComplete 0 0 [] [] [] [312], .winnowComplete 0 4 1,
    .winnowComplete 0 0 0, .fallowEntryComplete 0 2, .fallowExitComplete 0 2, .modelKeyRelease 0 { mb := 7 } 0 false,
    .cellarRekeyWalk 0 4 false, .cellarOldKeyDestroy 0 4, .linkOldKeyDestroy 0 71, .replaySuspectTimeout 0 4,
    .replayComplete 0 4, .fwStage 0 { mb := 7 } 0, .fwStageComplete 0 3 0 false, .confirmHealth 0 { mb := 7 } 0 false,
    .norOpComplete 0 257 0, .avsCurrentRead 0 4 0, .railLimiterUpdate 0 [], .clockCeilingUpdate 0 0 [], .vfStep 0 8,
    .ageingTrimUpdate 0 8, .droopDetect 0 8, .droopRecover 0 8 0, .droopThresholdUpdate 0 8 0 0, .quadrantGate 0 8,
    .quadrantUngate 0 8, .tallyIntegrate 0 [] [] [], .sensorSample 0 [], .spdmGetVersion 0 5, .spdmGetCapabilities 0 5,
    .spdmNegotiateAlgorithms 0 5, .spdmGetDigests 0 5, .spdmGetCertificate 0 5 0, .spdmChallenge 0 5 0,
    .spdmGetMeasurements 0 5 none false false, .spdmKemOffer 0 5 0, .spdmKeyExchange 0 5 0, .spdmFinish 0 5 0 false,
    .spdmKeyUpdate 0 5, .spdmHeartbeat 0 5, .spdmEndSession 0 5, .ideKmKeyProg 0 5 0 [], .ideKmKeyProg 0 0 2 [],
    .ideKmKeyProg 0 0 0 [(0, 0), (0, 0), (0, 0)], .baleLoadComplete 0 7 0 none {} false,
    .baleLoadComplete 0 0 (2 ^ 16) none {} false, .baleLoadComplete 0 0 0 none badMem false,
    .candidateHolderTimeout 0 7 0 false, .candidateHolderTimeout 0 0 (2 ^ 16) false, .tileCopyEnd 0 288,
    .haywardSelftestEnd 0 2 false 0, .pcieConfigWrite 0 5 false false false, .pcieLinkUp 0 3, .ethLinkDown 0 2, .ethLinkUp 0 2] : List Instr).all (fun i => !i.wf) = true := by decide +kernel

theorem test_wf_accepts_0 : ([
    .powerUp 0, .coldReset 0 false 0, .pinFilterChange 0 0 false 0, .bringupS0 0 0 false 0 0, .bringupS1 0 none none,
    .bringupS2 0 false 0 false 0 0, .bringupS3 0 0 0, .bringupS4 0 [] (List.replicate 8 0), .bringupS5 0 0 [] [] false,
    .bringupS6 0 [] [] (List.replicate 12 0), .memoryTestStep 0 [] [], .bringupS7 0 (List.replicate 3 0), .bringupS8 0,
    .stageLimitExpire 0, .railPgLoss 0 0, .tickSyncEdge 0 0, .tickWindowExpire 0, .syncLost 0, .freeRunTick 0,
    .tickBoundary 0 (List.replicate 4 0), .overrunNotice 0 0 none, .sheafHung 0 0, .sequencerWatchdog 0 0,
    .engineStall 0 1 0, .fenceDrainEnd 0 0, .flightSampleStore 0 0, .wqPush 0 0 0, .wqPushaddr 0 0 0 {}, .wqPushUnstall 0 0,
    .wqResume 0 0, .wqFlush 0 0, .ccValWrite 0 0 0, .ccAddWrite 0 0 0, .vseedWrite 0 0 0, .vseedApply 0 0,
    .sheafDoneWrite 0 0 0, .sheafNextRead 0 0, .rcFieldRead 0 (.spadEcc 0), .bar0BadAccess 0 0 0 0 false,
    .registerWrite 0 (.csr 0 0 0), .descriptorIssue 0 0 1, .descriptorFail 0 0 1 0, .mmaComplete 0 0 {}, .vopConvert 0 0 {},
    .vopAdd 0 0 {}, .vopSub 0 0 {}, .vopMul 0 0 {}, .vopFma 0 0 {}, .vopMin 0 0 {}, .vopMax 0 0 {}, .vopAbs 0 0 {},
    .vopNeg 0 0 {}, .vopRcp 0 0 {}, .vopRsqrt 0 0 {}, .vopExp2 0 0 {}, .vopLog2 0 0 {}, .vopCmpgt 0 0 {}, .vopCmpeq 0 0 {},
    .tileDmaCopy 0 0 0 {} {}, .tileDmaFence 0 0 0, .syncAdd 0 0 0, .syncSet 0 0 0, .syncNone 0 0 0,
    .streamOutBlockSend 0 0 0 {} {}, .streamOutComplete 0 0 0, .gleanerDescComplete 0 0 0, .gleanerFwdTimeout 0 0 0,
    .boardLoad 0 0 0 1 {}, .boardStore 0 0 0 1 0 {}, .seqFenceComplete 0 0, .tileMoveStart 0 0, .tileMoveAbandon 0 0,
    .wainFetch 0 0 {} {}, .wainBurstIssue 0 0 {} {}, .wainAgePromote 0 0, .wainBurstWrite 0 0 {}, .wainCopy 0 0,
    .wainFence 0 0, .wainTimeout 0 0 0, .wainStall 0 0, .gleanerDispatch 0 0 {} {}, .gleanerAgePromote 0 0,
    .scoreScan 0 0 {} {}, .weightedAcc 0 0 {} {}, .accMem 0 0 {} {}, .optUpdate 0 0 {} {}, .gather 0 0 {} {},
    .scatter 0 0 {} {}, .unpack 0 0 {} {}, .gleanerFill 0 0 {} {}, .gleanerCopy 0 0 {} {}, .patternTest 0 0 {} {},
    .gleanerComplete 0 0 0 {}, .gleanerCmdExpire 0 0 {}, .memWriteback 0 0 0, .laneMark 0 0 0 0,
    .readTimingWindow 0 0 0 0 0 0, .probeRead 0 0 0 [], .patrolRead 0 0 {}, .patrolLevelUpdate 0 0, .cellarRead 0 0 0,
    .cellarFetchComplete 0 0 0 false, .cellarWrite 0 0 0 0 [] {}, .cellarEvict 0 0 0 false, .migrationCopyEnd 0 0 0 {},
    .stubRetire 0 0 0, .frameFillDone 0 0 0, .frozenExpire 0 0, .linkSignalDetect 0 0,
    .linkTrainComplete 0 0 0 0 [] 0 0 (List.replicate 3 none), .linkTrainRetry 0 0, .loopbackRetrain 0 (List.replicate 3 0),
    .codewordReceive 0 0 0 0 [], .laneSignalLost 0 0, .marginWindow 0 0 0 0, .rxAdaptUpdate 0 0 0 0 none,
    .laneRetrainComplete 0 0 0 0, .linkFlitIdle 0 0, .linkFlitStatus 0 0, .linkFlitCredit 0 0, .linkFlitAdapt 0 0,
    .packetInject 0 0, .linkOutputSelect 0 0 0, .vcAgePromote 0 0 1, .packetForward 0 0 none, .packetAgedOut 0 0 0,
    .malformedPacket 0 0 none, .truncate 0 0 none, .write 0 0 none 0 {}, .readReq 0 0 none 0 {} {}, .readResp 0 0 none,
    .writeAck 0 0 none, .writeAckSend 0 0, .syncAddPacket 0 0 none 0, .syncSetPacket 0 0 none 0, .syncAck 0 0 none,
    .gleanerCmd 0 0 none 0, .gleanerDone 0 0 none, .nack 0 0 none, .abort 0 0 none] : List Instr).all (fun i => i.wf) = true := by decide +kernel

theorem test_wf_accepts_1 : ([
    .keyXchgHello 0 false 0 false 0, .keyXchgReply 0 false 0 false, .keyXchgFinish 0 false 0 false, .keyXchgRetry 0 0,
    .scrubNotice 0 0 none, .linkmap 0 0 none, .linkmapSend 0, .haywardMsg 0 0 none false, .markKUpdate 0 0 false,
    .rateAiPeriod 0 0, .requestTimeout 0 0 0, .collAllReduce 0 0 0 0 {} {}, .collReduceScatter 0 0 0 0 {} {},
    .collAllGather 0 0 0 0 {} {}, .collAllToAll 0 0 0 0 {} {}, .collBroadcast 0 0 0 0 {} {}, .collReduce 0 0 0 0 {} {},
    .collBarrier 0 0 0 0 {} {}, .collChannelFetch 0 0 {} {}, .collReady 0 0 none 0 {} {}, .collExp 0 0 none 0 {} {},
    .collAgreed 0 0 none 0 {} {}, .collContrib 0 0 none 0 {}, .collResult 0 0 none 0 {}, .collArrive 0 0 none 0 {},
    .collFail 0 0 none 0 {}, .chunkComplete 0 0 0 0 0 0 {} {}, .collComplete 0 0 0 0 0 {}, .collTimeout 0 0 0 0 0 {},
    .thresherRestart 0 0 {}, .bar4Read 0 1 0 0 false {}, .bar4Write 0 1 0 [] false {}, .pcieReset 0, .flr 0 0,
    .deviceReadTimeout 0 0 0, .ideIntegrityFail 0 1 0, .ethFrameReceive 0 0 .other, .rdmaInbound 0 0 {},
    .qpRingFetch 0 0 false {} {}, .roceSend 0 0 {}, .roceSendImm 0 0 {}, .roceWrite 0 0 {}, .roceWriteImm 0 0 {},
    .roceRead 0 0, .roceRecv 0 0, .roceWrComplete 0 0 false {}, .roceAckTimeout 0 0, .roceCnp 0 0, .roceRateIncrease 0 0,
    .pfcPauseReceive 0 0 0 0, .haywardCheckFail 0 0 1, .haywardWatchdogExpire 0 0, .haywardTakeover 0,
    .haywardIslandRestart 0 0, .haywardRevert 0, .haywardHealthPublish 0 0 0, .mbxDoorbell 0 0 0, .mbxRspHeadWrite 0 0 0,
    .mbxReset 0 0 false, .mbxAgePromote 0 0, .mbxProgressUpdate 0 0 0, .mbxThrottleEnd 0 0, .mgmtTlsConnect 0 0 false,
    .mgmtSessionClose 0, .i3cPrivateWrite 0 [], .i3cPrivateRead 0, .eventDeliver 0 0 0, .evtPendWrite 0 0 0 0 false,
    .evtMaskWrite 0 0 0 0 false, .evtPrivSetWrite 0 0 0 false, .evtPrivClrWrite 0 0 0, .partResetComplete 0 0 [] [] [] [],
    .winnowComplete 0 0 1, .fallowEntryComplete 0 0, .fallowExitComplete 0 0, .fallowWake 0,
    .modelKeyRelease 0 { mb := 0 } 0 false, .encGraceEnd 0, .cellarRekeyWalk 0 0 false, .cellarOldKeyDestroy 0 0,
    .linkOldKeyDestroy 0 0, .replaySuspectTimeout 0 0, .replayComplete 0 0, .fwStage 0 { mb := 0 } 0,
    .fwStageComplete 0 0 0 false, .confirmHealth 0 { mb := 0 } 0 false, .confirmWindowExpire 0,
    .holdupEnergyRecheck 0 0 false, .norOpComplete 0 0 0, .leaseExpire 0, .avsCurrentRead 0 0 0,
    .railLimiterUpdate 0 (List.replicate 19 0), .governorUpdate 0, .clockCeilingUpdate 0 0 (List.replicate 8 0), .vfStep 0 0,
    .ageingTrimUpdate 0 0, .droopDetect 0 0, .droopRecover 0 0 0, .droopThresholdUpdate 0 0 0 0, .quadrantGate 0 0,
    .quadrantUngate 0 0, .tallyIntegrate 0 (List.replicate 12 0) [] [], .minuteEnd 0, .sensorSample 0 (List.replicate 116 0),
    .flowReportMissing 0, .flowFallow 0, .flowStop 0, .flowStopEnd 0, .drbgHealthFail 0, .tapExtest 0 false,
    .spdmGetVersion 0 0, .spdmGetCapabilities 0 0, .spdmNegotiateAlgorithms 0 0, .spdmGetDigests 0 0,
    .spdmGetCertificate 0 0 0, .spdmChallenge 0 0 0, .spdmGetMeasurements 0 0 none false false, .spdmKemOffer 0 0 0,
    .spdmKeyExchange 0 0 0, .spdmFinish 0 0 0 false, .spdmKeyUpdate 0 0, .spdmHeartbeat 0 0, .spdmEndSession 0 0,
    .ideKmKeyProg 0 0 0 [], .faultLogFlush 0 0, .baleLoadComplete 0 0 0 none {} false, .candidateHolderTimeout 0 0 0 false,
    .tileCopyEnd 0 0, .haywardSelftestEnd 0 0 false 0, .pcieConfigWrite 0 0 false false false, .pcieLinkDown 0,
    .pcieLinkUp 0 1, .ethLinkDown 0 0, .ethLinkUp 0 0, .seqHoldEnd 0 0 0] : List Instr).all (fun i => i.wf) = true := by decide +kernel

end Sys2Proof.Tests

/-! ## Witnesses: 02 tick -/

namespace Sys2Proof.Tests.C02
open Sys2Proof.Machine

def ts (k : Tick) : State := { inService [(0, wPart .running), (1, wPart .running)] with tick := k }
def k0 : Tick := { running := true, state := .locked, base := 1000, prev := 1000, count := 5, countValid := true }
def k1 : Tick := { k0 with missRun := 8, edgeSeen := true, state := .acquiring }
def k2 (n : Nat) : Tick := { k0 with state := .freeRun, goodRun := n }
def k3 : Tick := { k0 with due := some 51000, sf := { whole := some (99, 1) }, rel := [(0, { out := true, since := 0, seq := 9 }), (1, { out := true, since := 2, seq := 9, late := true })] }
def s3 : State := ts k3
def s4 : State := ts { k3 with state := .acquiring }
def s5 : State := { s3 with tick := { k3 with sf := {} }, sess := { s3.sess with staged := [⟨none, 4, .fwActivate⟩] } }
def actS : State := { inService [(0, wPart .running)] with tick := { running := true, state := .locked, countValid := true, count := 76, due := some 500000, prev := 480000 }, sess := { (inService [(0, wPart .running)]).sess with staged := [⟨some 77, 0, .fwActivate⟩, ⟨none, 0, .lpt []⟩] } }

theorem witness_TickGeneratorFollows_1 : ∃ (t : Nat) (s : State) (k : Tick), s.tick = k ∧ k.running = true ∧ k.state ∈
    [.acquiring, .locked] ∧ (k.edgeSeen = true ∨ k.due ≠ none ∨ max s.now t + 125 * k.periodUs < k.base + 1000 * k.periodUs ∨
    k.base + 1125 * k.periodUs < max s.now t) ∧ k.edgeSeen = false ∧ k.due = none ∧ k.base + 1125 * k.periodUs < max s.now t ∧
    k.missRun < 8 := by
  refine ⟨57251, (ts k0), k0, ?_, ?_, ?_, ?_, ?_, ?_, ?_, ?_⟩ <;> first | with_reducible rfl | decide +kernel

theorem witness_TickGeneratorFollows_2 : ∃ (t : Nat) (s : State) (k : Tick), s.tick = k ∧ k.running = true ∧ k.state = .freeRun
    ∧ k.due = none ∧ k.prev + 1000 * k.periodUs ≤ max s.now t ∧ k.prev + 1000 * k.periodUs ≤ max s.now t + 125 * k.periodUs ∧
    max s.now t ≤ k.prev + 1125 * k.periodUs ∧ 20 ≤ k.periodUs ∧ k.seenLast = true ∧ k.seenNext = false ∧ k.goodRun < 3 := by
  refine ⟨51000, (ts (k2 2)), (k2 2), ?_, ?_, ?_, ?_, ?_, ?_, ?_, ?_, ?_, ?_, ?_⟩ <;> first | with_reducible rfl | decide +kernel

theorem witness_TickGeneratorFollows_3 : ∃ (t : Nat) (s : State) (k : Tick), s.tick = k ∧ k.running = true ∧ k.state ∈
    [.acquiring, .locked] ∧ k.edgeSeen = false ∧ k.due = none ∧ k.base + 1000 * k.periodUs ≤ max s.now t + 125 * k.periodUs ∧
    max s.now t ≤ k.base + 1000 * k.periodUs + 125 * k.periodUs := by
  refine ⟨50500, (ts k0), k0, ?_, ?_, ?_, ?_, ?_, ?_, ?_⟩ <;> first | with_reducible rfl | decide +kernel

theorem witness_TickGeneratorFollows_4 : ∃ (s : State) (k : Tick), s.tick = k ∧ k.running = true ∧ k.state ∈ [.acquiring,
    .locked] ∧ 8 ≤ k.missRun := by
  refine ⟨(ts k1), k1, ?_, ?_, ?_, ?_⟩ <;> first | with_reducible rfl | decide +kernel

theorem witness_TickGeneratorFollows_5 : ∃ (t : Nat) (s : State) (k : Tick), s.tick = k ∧ k.running = true ∧ k.state = .freeRun
    ∧ k.prev + 125 * k.periodUs < max s.now t ∧ max s.now t + 125 * k.periodUs < k.prev + 1000 * k.periodUs := by
  refine ⟨30000, (ts (k2 2)), (k2 2), ?_, ?_, ?_, ?_, ?_⟩ <;> first | with_reducible rfl | decide +kernel

theorem witness_TickGeneratorFollows_6 : ∃ (t : Nat) (s : State) (k : Tick), s.tick = k ∧ k.running = true ∧ k.state = .freeRun
    ∧ k.prev + 1000 * k.periodUs ≤ max s.now t + 125 * k.periodUs ∧ max s.now t ≤ k.prev + 1125 * k.periodUs ∧ 20 ≤ k.periodUs ∧
    k.seenLast = true ∧ k.seenNext = false ∧ k.goodRun = 3 ∧ k.due = none := by
  refine ⟨50500, (ts (k2 3)), (k2 3), ?_, ?_, ?_, ?_, ?_, ?_, ?_, ?_, ?_, ?_⟩ <;> first | with_reducible rfl | decide +kernel

theorem witness_BoundaryRunsItsSteps_1 : ∃ (t : Nat) (b : Nat) (p : Nat) (v : Nat) (causes : List Nat) (s : State) (s2 : State)
    (r : Release), s.tick.due = some b ∧ s.tick.running = true ∧ s.tick.state ≠ .halted ∧ b ≤ max s.now t ∧ s2 = step2 (step1
    (s.clock t) b causes) (b - s.tick.prev) ∧ activationDue b s.tick.countValid s2 = false ∧ s.tick.sf.whole = some (v, 1) ∧
    s.tick.state = .locked ∧ s.tick.count + 1 ≠ BitVec.ofNat 64 (v + 65) ∧ p < 4 ∧ mget {} s.tick.rel p = r ∧ r.out = true ∧
    r.excused = false ∧ refusing s p = false ∧ s.power.idle = false ∧ r.since = 0 := by
  refine ⟨51000, 51000, 0, 99, [1,2], s3, (step2 (step1 (s3.clock 51000) 51000 [1,2]) (51000 - s3.tick.prev)),
    { out := true, since := 0, seq := 9 }, ?_, ?_, ?_, ?_, ?_, ?_, ?_, ?_, ?_, ?_, ?_, ?_, ?_, ?_, ?_, ?_⟩
    <;> first | with_reducible rfl | decide +kernel

theorem witness_BoundaryRunsItsSteps_2 : ∃ (t : Nat) (b : Nat) (p : Nat) (v : Nat) (causes : List Nat) (s : State) (s2 : State)
    (r : Release), s.tick.due = some b ∧ s.tick.running = true ∧ s.tick.state ≠ .halted ∧ b ≤ max s.now t ∧ s2 = step2 (step1
    (s.clock t) b causes) (b - s.tick.prev) ∧ s.tick.sf.whole = some (v, 1) ∧ s.tick.state = .acquiring ∧ p < 4 ∧ mget {}
    s.tick.rel p = r ∧ r.out = true ∧ r.excused = false ∧ refusing s p = false ∧ s.power.idle = false ∧ r.since ≠ 0 := by
  refine ⟨51000, 51000, 1, 99, [1,2], s4, (step2 (step1 (s4.clock 51000) 51000 [1,2]) (51000 - s4.tick.prev)),
    { out := true, since := 2, seq := 9, late := true }, ?_, ?_, ?_, ?_, ?_, ?_, ?_, ?_, ?_, ?_, ?_, ?_, ?_, ?_⟩
    <;> first | with_reducible rfl | decide +kernel

theorem witness_BoundaryRunsItsSteps_3 : ∃ (t : Nat) (b : Nat) (causes : List Nat) (s : State) (s2 : State), s.tick.due = some b
    ∧ s.tick.running = true ∧ s.tick.state ≠ .halted ∧ b ≤ max s.now t ∧ s2 = step2 (step1 (s.clock t) b causes) (b -
    s.tick.prev) ∧ s.tick.sf.whole = none := by
  refine ⟨51000, 51000, [1,2], s5, (step2 (step1 (s5.clock 51000) 51000 [1,2]) (51000 - s5.tick.prev)), ?_, ?_, ?_, ?_, ?_, ?_⟩
    <;> first | with_reducible rfl | decide +kernel

theorem witness_ActivationEndsTheBoundary_1 : ∃ (t : Nat) (b : Nat) (causes : List Nat) (s : State) (s2 : State), s.tick.due =
    some b ∧ s.tick.running = true ∧ s.tick.state ≠ .halted ∧ b ≤ max s.now t ∧ s2 = step2 (step1 (s.clock t) b causes) (b -
    s.tick.prev) ∧ activationDue b s.tick.countValid s2 = true := by
  refine ⟨500000, 500000, [0,0,0,0], actS, (step2 (step1 (actS.clock 500000) 500000 [0,0,0,0]) (500000 - actS.tick.prev)), ?_, ?_,
    ?_, ?_, ?_, ?_⟩ <;> first | with_reducible rfl | decide +kernel

end Sys2Proof.Tests.C02

/-! ## Witnesses: 03 tiles -/

namespace Sys2Proof.Tests.C03
open Sys2Proof.Machine

def B0 := inService [(0, wPart .running)]
def C0 (k : Core) : State := { B0 with cores := [(0, { k with stall := none })] }
def dIdle : Nat := packBits [(4,4),(0,104),(2,2)]
def stg (d : Nat) : SMap Nat := (List.range 7).map (fun n => (n, bits d (64*n) 64))
def K1 : Core := { stage := stg dIdle, stores := [], nextRead := false, done := false }
def S1 : State := { C0 K1 with tick := { rel := [(0, { seq := 4, out := true, late := true, lag := 2 })] } }
def dGood : Nat := packBits [(4,4),(0,104),(0,2)]
def K2 : Core := { stage := stg dGood, queue := [], nextRead := true }
def K3 : Core := { stage := stg dGood, queue := List.replicate 32 dGood }
def M1 : State := { C0 {} with place := { bufs := [(4, ⟨77,9,0,2,1,0x200000,5000,0,[.frame 1 5]⟩)] }, stks := [(1, wStack)] }
def M1r := maRead (M1.clock 5) 0 0x200000 8 {}
def M1w := landMem (M1.clock 5) 0 0x200000 (leBytes 8 8) none {}
def F1 : State := { C0 {} with fab := { lpt := [0x80, 0x81,0x82] } }
def F1s := (sendReq (F1.clock 5) 0 0 .read 1 340 { op := 2, vc := 3, addr := 0, operand := 8 } [] 8
            (.load 0 (0x100000000000 + 2^40) 8) (fabTimeout F1 0)).getD (F1, 0)
def F1t := (sendReq (F1.clock 5) 0 0 .write 1 340 { op := 1, vc := 3, addr := 0, operand := 8 } (leBytes 8 8) 8
            (.store 0 (0x100000000000 + 2^40)) (fabTimeout F1 0)).getD (F1, 0)
def L2 : State := { B0 with cores := [(0, { stall := some (.vseed 8) })] }
def Q1 (d : Nat) : State := C0 { queue := [d, dGood], issued := 7, completed := 7 }
def cpy (n : Nat) : Nat := packBits [(3,4),(1,1),(1,1),(0,2),(5,12),(6,12),(0,32),(0,2),(0,16),(64,48),(0,2),(0,16),(1024,48),(n,24),(1,16)]
def J1 : Issued := { core := 0, index := 7, desc := dGood, fail := some 3 }
def Q2 : State := { C0 { issued := 8, completed := 7 } with tiles := [(0, { sync := { jobs := [J1] } })] }
def J3 (d : Nat) : Issued := { core := 0, index := 7, desc := d }
def T3 (d : Nat) (k : Core := {}) : State := { C0 {k with issued := 8, completed := 7 } with tiles := [(0, { dma := { jobs := [J3 d] }, sync := { jobs := [J3 d] }, stream := { jobs := [J3 d] } })], mem := { spad := [(64, 5),(70,7)] } }
def cpyBad (n : Nat) : Nat := packBits [(3,4),(1,1),(1,1),(0,2),(5,12),(6,12),(0,32),(2,2),(0,16),(64,48),(0,2),(0,16),(1024,48),(n,24),(1,16)]
def fen : Nat := packBits [(3,4),(0,1),(1,1),(0,2),(5,12),(6,12),(0,32),(0,236),(1,2)]
def syn (op rem eid : Nat) : Nat := packBits [(4,4),(0,60),(99,32),(3,12),(op,2),(rem,1),(0,1),(eid,16)]
def TF (d : Nat) : State := { T3 d with fab := { lpt := [0x80, 0x81,0x82] } }
def sf (op d : Nat) := (sendReq ((TF d).clock 5) 0 0 .sync 1 5 { op := op, vc := 0, cc := 3, operand := 99 } [] 0 (.sync 0 7) (fabTimeout (TF d) 0)).getD (B0, 0)
def vec (op n rnd : Nat) (dst := 0) : Nat := packBits [(2,4),(0,1),(1,1),(0,2),(5,12),(6,12),(0,32),(op,6),(0,4),(dst,4),(rnd,2),(0,1),(0,1),(0,22),(256,22),(512,22),(1024,22),(0,22),(2048,22),(n,24)]
def VS (d : Nat) : State := { T3 d with tiles := [(0, { vector := { jobs := [J3 d] } })], mem := { spad := [(2,0x80),(3,0x3f),(6,0x80),(7,0x40),(258,0x80),(259,0x3f)] } }
def VX (d : Nat) := (loadArray (VS d) 0 (vSrc d) (vX d) (vXScale d) (vCount d)).1
def VY (d : Nat) := if namesY (vOp d) then (loadArray (VS d) 0 (vSrc d) (vY d) 0 (vCount d)).1 else List.replicate (vCount d) (FVal.fin false 0 0)
def VZ (d : Nat) := if namesZ (vOp d) then (loadArray (VS d) 0 (vSrc d) (vZ d) 0 (vCount d)).1 else List.replicate (vCount d) (FVal.fin false 0 0)
def mm (g : Nat) : Nat := packBits [(1,4),(0,1),(1,1),(0,2),(5,12),(6,12),(0,32),(0,22),(4096,22),(32,20),(32,20),(0,22),(0,22),(0,22),(65536,22),(512,20),(g,11),(3,4),(3,4),(0,4),(1,2),(0,1),(1,1)]
def MS (g : Nat) : State := { T3 (mm g) with tiles := [(0, { matrix := { jobs := [J3 (mm g)] } })], mem := { spad := (List.range 64).map (fun i => (i, 0x38)) ++ (List.range 96).map (fun i => (4096+i, 0x3c)) } }
def M5 : State := { M1 with stks := [(1, { wStack with bad := [5*16384], poisoned := [5*16384] })] }
def M5w := landMem (M5.clock 5) 0 0x200000 (leBytes 8 8) none {}

theorem witness_CoreAccessesAct_1 : ∃ (t : Nat) (c : Nat) (v : Nat) (b : Nat) (n : Nat) (k : Core) (s : State) (e : State),
    coreOf s c = k ∧ s.clock t = e ∧ coreReady e c = true ∧ v < 2 ^ 22 ∧ v ≤ 0x27FFC0 ∧ v % 8 ≠ 0 ∧ v % 2 = 1 ∧ (mget {}
    s.tick.rel (partOfCore c)).seq ≠ 0 ∧ k.nextRead = false ∧ boardForm b n = true ∧ k.stores = [] ∧ coreLive e c = true := by
  refine ⟨5, 0, 1, 0, 8, (coreOf S1 0), S1, (S1.clock 5), ?_, ?_, ?_, ?_, ?_, ?_, ?_, ?_, ?_, ?_, ?_, ?_⟩
    <;> first | with_reducible rfl | decide +kernel

theorem witness_CoreAccessesAct_2 : ∃ (t : Nat) (c : Nat) (b : Nat) (n : Nat) (k : Core) (mi : MemIn) (s : State) (e : State)
    (s1 : State) (bs : List Byte) (ma : Nat), coreOf s c = k ∧ s.clock t = e ∧ coreReady e c = true ∧ k.nextRead = true ∧
    boardForm b n = true ∧ spaceTgt e (partOfCore c) none false 2 0 b n = .mem ma ∧ rangeReady e ma n = true ∧ maRead e
    (sideOfTile (tileOfCore c)) ma n mi = (s1, bs, []) := by
  refine ⟨5, 0, 0x200000, 8, (coreOf M1 0), ({}:MemIn), M1, (M1.clock 5), M1r.1, M1r.2.1, 0x200000, ?_, ?_, ?_, ?_, ?_, ?_,
    ?_, ?_⟩ <;> first | with_reducible rfl | decide +kernel

theorem witness_CoreAccessesAct_3 : ∃ (t : Nat) (c : Nat) (v : Nat) (k : Core) (s : State) (e : State), coreOf s c = k ∧ s.clock
    t = e ∧ coreReady e c = true ∧ v < 2 ^ 22 ∧ 0x27FFC0 < v := by
  refine ⟨5, 0, 2621400, (coreOf (C0 {}) 0), (C0 {}), ((C0 {}).clock 5), ?_, ?_, ?_, ?_, ?_⟩
    <;> first | with_reducible rfl | decide +kernel

theorem witness_CoreAccessesAct_4 : ∃ (t : Nat) (c : Nat) (v : Nat) (k : Core) (si : SpadIn) (s : State) (e : State) (s1 :
    State), coreOf s c = k ∧ s.clock t = e ∧ coreReady e c = true ∧ v < 2 ^ 22 ∧ v ≤ 0x27FFC0 ∧ v % 8 = 0 ∧ eccCount e
    (tileOfCore c) si = s1 ∧ badIn si v 64 = false := by
  refine ⟨5, 0, 0, (coreOf (C0 K2) 0), ({}:SpadIn), (C0 K2), ((C0 K2).clock 5), (eccCount ((C0 K2).clock 5) (tileOfCore 0)
    ({}:SpadIn)), ?_, ?_, ?_, ?_, ?_, ?_, ?_, ?_⟩ <;> first | with_reducible rfl | decide +kernel

theorem witness_CoreAccessesAct_5 : ∃ (t : Nat) (c : Nat) (v : Nat) (k : Core) (si : SpadIn) (s : State) (e : State) (s1 :
    State), coreOf s c = k ∧ s.clock t = e ∧ coreReady e c = true ∧ v < 2 ^ 22 ∧ v ≤ 0x27FFC0 ∧ v % 8 = 0 ∧ eccCount e
    (tileOfCore c) si = s1 ∧ badIn si v 64 = true := by
  refine ⟨5, 0, 8, (coreOf (C0 K3) 0), ({bad := [1]}:SpadIn), (C0 K3), ((C0 K3).clock 5), (eccCount ((C0 K3).clock 5) (tileOfCore
    0) ({bad := [1]}:SpadIn)), ?_, ?_, ?_, ?_, ?_, ?_, ?_, ?_⟩ <;> first | with_reducible rfl | decide +kernel

theorem witness_CoreAccessesAct_6 : ∃ (t : Nat) (c : Nat) (v : Nat) (b : Nat) (n : Nat) (k : Core) (mi : MemIn) (s : State) (e :
    State) (s1 : State) (ma : Nat), coreOf s c = k ∧ s.clock t = e ∧ coreReady e c = true ∧ boardForm b n = true ∧ spaceTgt e
    (partOfCore c) none true 2 0 b n = .mem ma ∧ rangeReady e ma n = true ∧ landMem e (sideOfTile (tileOfCore c)) ma (leBytes n
    v) none mi = (s1, true) := by
  refine ⟨5, 0, 8, 0x200000, 8, (coreOf M1 0), ({}:MemIn), M1, (M1.clock 5), M1w.1, 0x200000, ?_, ?_, ?_, ?_, ?_, ?_, ?_⟩
    <;> first | with_reducible rfl | decide +kernel

theorem witness_CoreAccessesAct_7 : ∃ (t : Nat) (c : Nat) (b : Nat) (n : Nat) (q : Nat) (k : Core) (s : State) (e : State) (s1 :
    State) (l : Nat) (ep : Nat) (vc : Nat) (addr : Nat), coreOf s c = k ∧ s.clock t = e ∧ coreReady e c = true ∧ boardForm b n =
    true ∧ spaceTgt e (partOfCore c) none false 2 0 b n = .far l ep vc addr ∧ sendReq e (tileOfCore c) (partOfCore c) .read l ep
    { op := 2, vc := vc, addr := addr, operand := n } [] n (.load c (0x100000000000 + b) n) (fabTimeout e (partOfCore c)) = some
    (s1, q) := by
  refine ⟨5, 0, (2^40), 8, F1s.2, (coreOf F1 0), F1, (F1.clock 5), F1s.1, 1, 340, 3, 0, ?_, ?_, ?_, ?_, ?_, ?_⟩
    <;> first | with_reducible rfl | decide +kernel

theorem witness_CoreAccessesAct_8 : ∃ (t : Nat) (c : Nat) (v : Nat) (b : Nat) (n : Nat) (q : Nat) (k : Core) (s : State) (e :
    State) (s1 : State) (l : Nat) (ep : Nat) (vc : Nat) (addr : Nat), coreOf s c = k ∧ s.clock t = e ∧ coreReady e c = true ∧
    boardForm b n = true ∧ spaceTgt e (partOfCore c) none true 2 0 b n = .far l ep vc addr ∧ sendReq e (tileOfCore c)
    (partOfCore c) .write l ep { op := 1, vc := vc, addr := addr, operand := n } (leBytes n v) n (.store c (0x100000000000 + b))
    (fabTimeout e (partOfCore c)) = some (s1, q) := by
  refine ⟨5, 0, 8, (2^40), 8, F1t.2, (coreOf F1 0), F1, (F1.clock 5), F1t.1, 1, 340, 3, 0, ?_, ?_, ?_, ?_, ?_, ?_⟩
    <;> first | with_reducible rfl | decide +kernel

theorem witness_CoreAccessesAct_9 : ∃ (t : Nat) (c : Nat) (v : Nat) (k : Core) (s : State) (e : State), coreOf s c = k ∧ s.clock
    t = e ∧ coreLive e c = true ∧ k.stall = some (.vseed v) ∧ (∀ d ∈ k.queue, dType d ≠ 2) ∧ (∀ j ∈ (tileOf s (tileOfCore
    c)).vector.jobs, j.core ≠ c) := by
  refine ⟨5, 0, 8, (coreOf L2 0), L2, (L2.clock 5), ?_, ?_, ?_, ?_, ?_, ?_⟩ <;> first | with_reducible rfl | decide +kernel

theorem witness_CoreAccessesAct_10 : ∃ (t : Nat) (c : Nat) (v : Nat) (b : Nat) (n : Nat) (k : Core) (mi : MemIn) (s : State) (e
    : State) (s1 : State) (ma : Nat), coreOf s c = k ∧ s.clock t = e ∧ coreReady e c = true ∧ boardForm b n = true ∧ spaceTgt e
    (partOfCore c) none true 2 0 b n = .mem ma ∧ rangeReady e ma n = true ∧ landMem e (sideOfTile (tileOfCore c)) ma (leBytes n
    v) none mi = (s1, false) := by
  refine ⟨5, 0, 8, 0x200000, 8, (coreOf M5 0), ({}:MemIn), M5, (M5.clock 5), M5w.1, 0x200000, ?_, ?_, ?_, ?_, ?_, ?_, ?_⟩
    <;> first | with_reducible rfl | decide +kernel

theorem witness_QueuesIssueAndHalt_1 : ∃ (t : Nat) (i : Nat) (u : Nat) (n : Nat) (d : Nat) (c : Nat) (ds : List Nat) (k : Core)
    (g : Engine) (s : State), nextIssuer (s.clock t) i u = some n ∧ 4 * i + n = c ∧ n < 4 ∧ coreOf s c = k ∧ k.queue = d :: ds ∧
    1 ≤ u ∧ u ≤ 6 ∧ engineOf (tileOf s i) u = g ∧ coreLive (s.clock t) c = true ∧ issueRoom (s.clock t) c d = true ∧ u ≠ 3 ∧ u ≠
    6 := by
  refine ⟨5, 0, 4, 0, dGood, 0, [dGood], (coreOf (Q1 dGood) 0), {}, (Q1 dGood), ?_, ?_, ?_, ?_, ?_, ?_, ?_, ?_, ?_, ?_, ?_, ?_⟩
    <;> first | with_reducible rfl | decide +kernel

theorem witness_QueuesIssueAndHalt_2 : ∃ (t : Nat) (i : Nat) (u : Nat) (n : Nat) (d : Nat) (c : Nat) (ds : List Nat) (k : Core)
    (g : Engine) (s : State), nextIssuer (s.clock t) i u = some n ∧ 4 * i + n = c ∧ n < 4 ∧ coreOf s c = k ∧ k.queue = d :: ds ∧
    1 ≤ u ∧ u ≤ 6 ∧ engineOf (tileOf s i) u = g ∧ coreLive (s.clock t) c = true ∧ issueRoom (s.clock t) c d = true ∧ (u = 3 ∨ u
    = 6) := by
  refine ⟨5, 0, 3, 0, (cpy 100), 0, [dGood], (coreOf (Q1 (cpy 100)) 0), {}, (Q1 (cpy 100)), ?_, ?_, ?_, ?_, ?_, ?_, ?_, ?_,
    ?_, ?_, ?_⟩ <;> first | with_reducible rfl | decide +kernel

theorem witness_QueuesIssueAndHalt_3 : ∃ (t : Nat) (u : Nat) (n : Nat) (x : Nat) (c : Nat) (k : Core) (g : Engine) (j : Issued)
    (s : State), coreOf s c = k ∧ engineOf (tileOf s (tileOfCore c)) u = g ∧ 1 ≤ u ∧ u ≤ 6 ∧ coreLive (s.clock t) c = true ∧
    jobOf s c u n = some j ∧ j.fail = some x := by
  refine ⟨5, 4, 7, 3, 0, (coreOf Q2 0), { jobs := [J1] }, J1, Q2, ?_, ?_, ?_, ?_, ?_, ?_, ?_⟩
    <;> first | with_reducible rfl | decide +kernel

theorem witness_TransfersOfATileAct_1 : ∃ (t : Nat) (c : Nat) (n : Nat) (si : SpadIn) (s : State) (e : State) (j : Issued) (k :
    Core) (d : Nat), s.clock t = e ∧ coreLive e c = true ∧ coreOf s c = k ∧ j.desc = d ∧ j.core = c ∧ j.index = n ∧ j.fail =
    none ∧ jobOf s c 3 n = some j ∧ cOp d = 0 ∧ copyEmpty d = false ∧ j.started = false ∧ copyRefusal e c d = none ∧ copyReady e
    c d = true ∧ cLines d = 1 ∧ cSrcSpace d = 0 ∧ cDstSpace d = 0 ∧ cConv d = 0 ∧ dmaReason d = none ∧ badIn si (cSrc d) (cLen
    d) = false ∧ jobOf s c 4 n = some j ∧ yRemote d = false ∧ yOp d = 0 ∧ jobOf s c 5 n = some j ∧ (j.sent = oBlocks d ∨ oBlock
    d = 0) := by
  refine ⟨5, 0, 7, {}, (T3 (cpy 10)), ((T3 (cpy 10)).clock 5), (J3 (cpy 10)), (coreOf (T3 (cpy 10)) 0), (cpy 10), ?_, ?_, ?_, ?_,
    ?_, ?_, ?_, ?_, ?_, ?_, ?_, ?_, ?_, ?_, ?_, ?_, ?_, ?_, ?_, ?_, ?_, ?_, ?_, ?_⟩
    <;> first | with_reducible rfl | decide +kernel

theorem witness_TransfersOfATileAct_2 : ∃ (t : Nat) (c : Nat) (n : Nat) (s : State) (e : State) (j : Issued) (k : Core) (d :
    Nat), s.clock t = e ∧ coreLive e c = true ∧ coreOf s c = k ∧ j.desc = d ∧ j.core = c ∧ j.index = n ∧ j.fail = none ∧ jobOf s
    c 3 n = some j ∧ cOp d = 0 ∧ (copyEmpty d = true ∨ (j.started = true ∧ j.reqs = [])) ∧ jobOf s c 4 n = some j ∧ j.started =
    false ∧ yRemote d = false ∧ yOp d = 1 := by
  refine ⟨5, 0, 7, (T3 (syn 1 0 0)), ((T3 (syn 1 0 0)).clock 5), (J3 (syn 1 0 0)), (coreOf (T3 (syn 1 0 0)) 0), (syn 1 0 0),
    ?_, ?_, ?_, ?_, ?_, ?_, ?_, ?_, ?_, ?_, ?_, ?_, ?_, ?_⟩ <;> first | with_reducible rfl | decide +kernel

theorem witness_TransfersOfATileAct_3 : ∃ (t : Nat) (c : Nat) (x : Nat) (n : Nat) (s : State) (e : State) (j : Issued) (k :
    Core) (d : Nat), s.clock t = e ∧ coreLive e c = true ∧ coreOf s c = k ∧ j.desc = d ∧ j.core = c ∧ j.index = n ∧ j.fail =
    none ∧ jobOf s c 3 n = some j ∧ cOp d = 0 ∧ copyEmpty d = false ∧ j.started = false ∧ copyRefusal e c d = some x := by
  refine ⟨5, 0, 3, 7, (T3 (cpyBad 10)), ((T3 (cpyBad 10)).clock 5), (J3 (cpyBad 10)), (coreOf (T3 (cpyBad 10)) 0), (cpyBad 10),
    ?_, ?_, ?_, ?_, ?_, ?_, ?_, ?_, ?_, ?_, ?_, ?_⟩ <;> first | with_reducible rfl | decide +kernel

theorem witness_TransfersOfATileAct_4 : ∃ (t : Nat) (c : Nat) (x : Nat) (n : Nat) (s : State) (e : State) (j : Issued) (k :
    Core) (d : Nat) (xs : List Nat), s.clock t = e ∧ coreLive e c = true ∧ coreOf s c = k ∧ j.desc = d ∧ j.core = c ∧ j.index =
    n ∧ j.fail = none ∧ jobOf s c 3 n = some j ∧ cOp d = 1 ∧ k.fails = x :: xs := by
  refine ⟨5, 0, 3, 7, (T3 fen { fails := [3] }), ((T3 fen { fails := [3] }).clock 5), (J3 fen), (coreOf (T3 fen { fails := [3] })
    0), fen, [], ?_, ?_, ?_, ?_, ?_, ?_, ?_, ?_, ?_, ?_⟩ <;> first | with_reducible rfl | decide +kernel

theorem witness_TransfersOfATileAct_5 : ∃ (t : Nat) (c : Nat) (n : Nat) (s : State) (e : State) (j : Issued) (k : Core) (d :
    Nat), s.clock t = e ∧ coreLive e c = true ∧ coreOf s c = k ∧ j.desc = d ∧ j.core = c ∧ j.index = n ∧ j.fail = none ∧ jobOf s
    c 3 n = some j ∧ cOp d = 1 ∧ k.fails = [] ∧ (∀ w ∈ k.writes, issuedBefore w.2 n = false) ∧ (∀ y ∈ (tileOf s (tileOfCore
    c)).dma.jobs, y.core = c → cOp y.desc = 0 → issuedBefore y.index n = false) := by
  refine ⟨5, 0, 7, (T3 fen), ((T3 fen).clock 5), (J3 fen), (coreOf (T3 fen) 0), fen, ?_, ?_, ?_, ?_, ?_, ?_, ?_, ?_, ?_, ?_,
    ?_, ?_⟩ <;> first | with_reducible rfl | decide +kernel

theorem witness_TransfersOfATileAct_6 : ∃ (t : Nat) (c : Nat) (n : Nat) (s : State) (e : State) (j : Issued) (k : Core) (d :
    Nat), s.clock t = e ∧ coreLive e c = true ∧ coreOf s c = k ∧ j.desc = d ∧ j.core = c ∧ j.index = n ∧ j.fail = none ∧ jobOf s
    c 4 n = some j ∧ j.started = false ∧ yOp d = 2 := by
  refine ⟨5, 0, 7, (T3 (syn 2 0 0)), ((T3 (syn 2 0 0)).clock 5), (J3 (syn 2 0 0)), (coreOf (T3 (syn 2 0 0)) 0), (syn 2 0 0),
    ?_, ?_, ?_, ?_, ?_, ?_, ?_, ?_, ?_, ?_⟩ <;> first | with_reducible rfl | decide +kernel

theorem witness_TransfersOfATileAct_7 : ∃ (t : Nat) (c : Nat) (q : Nat) (n : Nat) (s : State) (e : State) (j : Issued) (k :
    Core) (d : Nat), s.clock t = e ∧ coreLive e c = true ∧ coreOf s c = k ∧ j.desc = d ∧ j.core = c ∧ j.index = n ∧ j.fail =
    none ∧ jobOf s c 4 n = some j ∧ j.started = false ∧ yRemote d = true ∧ partOfEp (yEid d % 1024) = some q ∧ yEid d / 1024 =
    ownLpkg s ∧ refuses e (partOfCore c) q = false ∧ related s (partOfCore c) q = true ∧ yOp d = 0 := by
  refine ⟨5, 0, 0, 7, (T3 (syn 0 1 5)), ((T3 (syn 0 1 5)).clock 5), (J3 (syn 0 1 5)), (coreOf (T3 (syn 0 1 5)) 0), (syn 0 1 5),
    ?_, ?_, ?_, ?_, ?_, ?_, ?_, ?_, ?_, ?_, ?_, ?_, ?_, ?_, ?_⟩ <;> first | with_reducible rfl | decide +kernel

theorem witness_TransfersOfATileAct_8 : ∃ (t : Nat) (c : Nat) (q : Nat) (n : Nat) (s : State) (e : State) (j : Issued) (k :
    Core) (d : Nat), s.clock t = e ∧ coreLive e c = true ∧ coreOf s c = k ∧ j.desc = d ∧ j.core = c ∧ j.index = n ∧ j.fail =
    none ∧ jobOf s c 4 n = some j ∧ j.started = false ∧ yRemote d = true ∧ partOfEp (yEid d % 1024) = some q ∧ yEid d / 1024 =
    ownLpkg s ∧ refuses e (partOfCore c) q = false ∧ related s (partOfCore c) q = true ∧ yOp d = 1 := by
  refine ⟨5, 0, 0, 7, (T3 (syn 1 1 5)), ((T3 (syn 1 1 5)).clock 5), (J3 (syn 1 1 5)), (coreOf (T3 (syn 1 1 5)) 0), (syn 1 1 5),
    ?_, ?_, ?_, ?_, ?_, ?_, ?_, ?_, ?_, ?_, ?_, ?_, ?_, ?_, ?_⟩ <;> first | with_reducible rfl | decide +kernel

theorem witness_TransfersOfATileAct_9 : ∃ (t : Nat) (c : Nat) (x : Nat) (q : Nat) (n : Nat) (s : State) (s2 : State) (e : State)
    (j : Issued) (k : Core) (d : Nat), s.clock t = e ∧ coreLive e c = true ∧ coreOf s c = k ∧ j.desc = d ∧ j.core = c ∧ j.index
    = n ∧ j.fail = none ∧ jobOf s c 4 n = some j ∧ j.started = false ∧ yRemote d = true ∧ partOfEp (yEid d % 1024) = some q ∧
    yEid d / 1024 ≠ ownLpkg s ∧ (lptPos s (yEid d / 1024)).isSome = true ∧ yOp d = 0 ∧ sendReq e (tileOfCore c) (partOfCore c)
    .sync (yEid d / 1024) (yEid d % 1024) { op := 5, vc := 0, cc := yCc d, operand := yValue d } [] 0 (.sync c n) (fabTimeout e
    (partOfCore c)) = some (s2, x) := by
  refine ⟨5, 0, (sf 5 (syn 0 1 (1024+5))).2, 0, 7, (TF (syn 0 1 (1024+5))), (sf 5 (syn 0 1 (1024+5))).1, ((TF (syn 0 1
    (1024+5))).clock 5), (J3 (syn 0 1 (1024+5))), (coreOf (TF (syn 0 1 (1024+5))) 0), (syn 0 1 (1024+5)), ?_, ?_, ?_, ?_,
    ?_, ?_, ?_, ?_, ?_, ?_, ?_, ?_, ?_, ?_, ?_⟩ <;> first | with_reducible rfl | decide +kernel

theorem witness_TransfersOfATileAct_10 : ∃ (t : Nat) (c : Nat) (x : Nat) (q : Nat) (n : Nat) (s : State) (s2 : State) (e :
    State) (j : Issued) (k : Core) (d : Nat), s.clock t = e ∧ coreLive e c = true ∧ coreOf s c = k ∧ j.desc = d ∧ j.core = c ∧
    j.index = n ∧ j.fail = none ∧ jobOf s c 4 n = some j ∧ j.started = false ∧ yRemote d = true ∧ partOfEp (yEid d % 1024) =
    some q ∧ yEid d / 1024 ≠ ownLpkg s ∧ (lptPos s (yEid d / 1024)).isSome = true ∧ yOp d = 1 ∧ sendReq e (tileOfCore c)
    (partOfCore c) .sync (yEid d / 1024) (yEid d % 1024) { op := 6, vc := 0, cc := yCc d, operand := yValue d } [] 0 (.sync c n)
    (fabTimeout e (partOfCore c)) = some (s2, x) := by
  refine ⟨5, 0, (sf 6 (syn 1 1 (1024+5))).2, 0, 7, (TF (syn 1 1 (1024+5))), (sf 6 (syn 1 1 (1024+5))).1, ((TF (syn 1 1
    (1024+5))).clock 5), (J3 (syn 1 1 (1024+5))), (coreOf (TF (syn 1 1 (1024+5))) 0), (syn 1 1 (1024+5)), ?_, ?_, ?_, ?_,
    ?_, ?_, ?_, ?_, ?_, ?_, ?_, ?_, ?_, ?_, ?_⟩ <;> first | with_reducible rfl | decide +kernel

theorem witness_VectorOperationsComplete_1 : ∃ (t : Nat) (i : Nat) (d : Nat) (op : Nat) (si : SpadIn) (s : State) (s1 : State)
    (j : Issued) (js : List Issued) (f : FloatFmt) (c : Instr) (xs : List FVal) (ys : List FVal) (zs : List FVal), (op, c) ∈
    [(0x00, .vopConvert t i si), (0x01, .vopAdd t i si), (0x02, .vopSub t i si), (0x03, .vopMul t i si), (0x04, .vopFma t i si),
    (0x05, .vopMin t i si), (0x06, .vopMax t i si), (0x07, .vopAbs t i si), (0x08, .vopNeg t i si), (0x09, .vopRcp t i si),
    (0x0A, .vopRsqrt t i si), (0x0B, .vopExp2 t i si), (0x0C, .vopLog2 t i si), (0x0D, .vopCmpgt t i si), (0x0E, .vopCmpeq t i
    si)] ∧ (tileOf s i).vector.jobs = j :: js ∧ j.desc = d ∧ vOp d = op ∧ unitLive (s.clock t) i = true ∧ eccCount (s.clock t) i
    si = s1 ∧ vCount d ≠ 0 ∧ vecBad si d = false ∧ fmtOf (vDst d) = some f ∧ isMx (vDst d) = false ∧ vecReason d = none ∧
    tileOfCore j.core = i ∧ (loadArray s i (vSrc d) (vX d) (vXScale d) (vCount d)).1 = xs ∧ ((if namesY op = false then
    List.replicate (vCount d) (.fin false 0 0) else if vYImm d = true then List.replicate (vCount d) (fp32.dec (vImm d)) else
    (loadArray s i (vSrc d) (vY d) 0 (vCount d)).1) = ys) ∧ ((if namesZ op = true then (loadArray s i (vSrc d) (vZ d) 0 (vCount
    d)).1 else List.replicate (vCount d) (.fin false 0 0)) = zs) := by
  refine ⟨5, 0, (vec 0 3 0 0), 0, {}, (VS (vec 0 3 0 0)), (eccCount ((VS (vec 0 3 0 0)).clock 5) 0 {}), (J3 (vec 0 3 0 0)), [],
    fp32, (.vopConvert 5 0 {}), (VX (vec 0 3 0 0)), (VY (vec 0 3 0 0)), (VZ (vec 0 3 0 0)), ?_, ?_, ?_, ?_, ?_, ?_, ?_, ?_,
    ?_, ?_, ?_, ?_, ?_, ?_, ?_⟩ <;> first | with_reducible rfl | decide +kernel

theorem witness_VectorOperationsComplete_2 : ∃ (t : Nat) (i : Nat) (d : Nat) (op : Nat) (si : SpadIn) (s : State) (s1 : State)
    (j : Issued) (js : List Issued) (c : Instr), (op, c) ∈ [(0x00, .vopConvert t i si), (0x01, .vopAdd t i si), (0x02, .vopSub t
    i si), (0x03, .vopMul t i si), (0x04, .vopFma t i si), (0x05, .vopMin t i si), (0x06, .vopMax t i si), (0x07, .vopAbs t i
    si), (0x08, .vopNeg t i si), (0x09, .vopRcp t i si), (0x0A, .vopRsqrt t i si), (0x0B, .vopExp2 t i si), (0x0C, .vopLog2 t i
    si), (0x0D, .vopCmpgt t i si), (0x0E, .vopCmpeq t i si)] ∧ (tileOf s i).vector.jobs = j :: js ∧ j.desc = d ∧ vOp d = op ∧
    unitLive (s.clock t) i = true ∧ eccCount (s.clock t) i si = s1 ∧ vCount d ≠ 0 ∧ vecBad si d = true := by
  refine ⟨5, 0, (vec 1 32 0 9), 1, {bad := [3]}, (VS (vec 1 32 0 9)), (eccCount ((VS (vec 1 32 0 9)).clock 5) 0 {bad := [3]}), (J3
    (vec 1 32 0 9)), [], (.vopAdd 5 0 {bad:=[3]}), ?_, ?_, ?_, ?_, ?_, ?_, ?_, ?_⟩
    <;> first | with_reducible rfl | decide +kernel

theorem witness_VectorOperationsComplete_3 : ∃ (t : Nat) (i : Nat) (d : Nat) (op : Nat) (si : SpadIn) (s : State) (s1 : State)
    (j : Issued) (js : List Issued) (c : Instr), (op, c) ∈ [(0x00, .vopConvert t i si), (0x01, .vopAdd t i si), (0x02, .vopSub t
    i si), (0x03, .vopMul t i si), (0x04, .vopFma t i si), (0x05, .vopMin t i si), (0x06, .vopMax t i si), (0x07, .vopAbs t i
    si), (0x08, .vopNeg t i si), (0x09, .vopRcp t i si), (0x0A, .vopRsqrt t i si), (0x0B, .vopExp2 t i si), (0x0C, .vopLog2 t i
    si), (0x0D, .vopCmpgt t i si), (0x0E, .vopCmpeq t i si)] ∧ (tileOf s i).vector.jobs = j :: js ∧ j.desc = d ∧ vOp d = op ∧
    unitLive (s.clock t) i = true ∧ eccCount (s.clock t) i si = s1 ∧ vCount d ≠ 0 ∧ vecBad si d = false ∧ isMx (vDst d) = true
    := by
  refine ⟨5, 0, (vec 1 32 0 9), 1, {bad := [3000]}, (VS (vec 1 32 0 9)), (eccCount ((VS (vec 1 32 0 9)).clock 5) 0
    {bad := [3000]}), (J3 (vec 1 32 0 9)), [], (.vopAdd 5 0 {bad:=[3000]}), ?_, ?_, ?_, ?_, ?_, ?_, ?_, ?_, ?_⟩
    <;> first | with_reducible rfl | decide +kernel

theorem witness_VectorOperationsComplete_4 : ∃ (t : Nat) (i : Nat) (d : Nat) (op : Nat) (si : SpadIn) (s : State) (s1 : State)
    (j : Issued) (js : List Issued) (c : Instr), (op, c) ∈ [(0x00, .vopConvert t i si), (0x01, .vopAdd t i si), (0x02, .vopSub t
    i si), (0x03, .vopMul t i si), (0x04, .vopFma t i si), (0x05, .vopMin t i si), (0x06, .vopMax t i si), (0x07, .vopAbs t i
    si), (0x08, .vopNeg t i si), (0x09, .vopRcp t i si), (0x0A, .vopRsqrt t i si), (0x0B, .vopExp2 t i si), (0x0C, .vopLog2 t i
    si), (0x0D, .vopCmpgt t i si), (0x0E, .vopCmpeq t i si)] ∧ (tileOf s i).vector.jobs = j :: js ∧ j.desc = d ∧ vOp d = op ∧
    unitLive (s.clock t) i = true ∧ eccCount (s.clock t) i si = s1 ∧ vCount d = 0 := by
  refine ⟨5, 0, (vec 1 0 0 9), 1, {bad := [3000]}, (VS (vec 1 0 0 9)), (eccCount ((VS (vec 1 0 0 9)).clock 5) 0 {bad := [3000]}),
    (J3 (vec 1 0 0 9)), [], (.vopAdd 5 0 {bad:=[3000]}), ?_, ?_, ?_, ?_, ?_, ?_, ?_⟩
    <;> first | with_reducible rfl | decide +kernel

theorem witness_MmaAccumulates_1 : ∃ (t : Nat) (i : Nat) (d : Nat) (si : SpadIn) (s : State) (s1 : State) (j : Issued) (js :
    List Issued), (tileOf s i).matrix.jobs = j :: js ∧ j.desc = d ∧ unitLive (s.clock t) i = true ∧ eccCount (s.clock t) i si =
    s1 ∧ mGroups d = 0 := by
  refine ⟨5, 0, (mm 0), {}, (MS 0), (eccCount ((MS 0).clock 5) 0 {}), (J3 (mm 0)), [], ?_, ?_, ?_, ?_, ?_⟩
    <;> first | with_reducible rfl | decide +kernel

theorem witness_MmaAccumulates_2 : ∃ (t : Nat) (i : Nat) (d : Nat) (si : SpadIn) (s : State) (s1 : State) (j : Issued) (js :
    List Issued), (tileOf s i).matrix.jobs = j :: js ∧ j.desc = d ∧ unitLive (s.clock t) i = true ∧ eccCount (s.clock t) i si =
    s1 ∧ mGroups d ≠ 0 ∧ mmaBad si d = true := by
  refine ⟨5, 0, (mm 1), {bad:=[1]}, (MS 1), (eccCount ((MS 1).clock 5) 0 {bad:=[1]}), (J3 (mm 1)), [], ?_, ?_, ?_, ?_, ?_, ?_⟩
    <;> first | with_reducible rfl | decide +kernel

theorem witness_MmaAccumulates_3 : ∃ (t : Nat) (i : Nat) (d : Nat) (si : SpadIn) (s : State) (s1 : State) (j : Issued) (js :
    List Issued), (tileOf s i).matrix.jobs = j :: js ∧ j.desc = d ∧ unitLive (s.clock t) i = true ∧ eccCount (s.clock t) i si =
    s1 ∧ mGroups d ≠ 0 ∧ mmaBad si d = false ∧ mmaReason d = none ∧ tileOfCore j.core = i := by
  refine ⟨5, 0, (mm 1), {}, (MS 1), (eccCount ((MS 1).clock 5) 0 {}), (J3 (mm 1)), [], ?_, ?_, ?_, ?_, ?_, ?_, ?_, ?_⟩
    <;> first | with_reducible rfl | decide +kernel

end Sys2Proof.Tests.C03

/-! ## Witnesses: 03t ternary -/

namespace Sys2Proof.Tests.C03t
open Sys2Proof.Machine

def t2Block : State := spadWrite State.reset 0 0 [0xA7, 121, 121, 121, 121, 121, 121, 0x7E]

theorem witness_TernaryBlocksRead_1 : ∃ (s : State) (i : Nat) (d : Nat) (n : Nat) (g : Nat) (sc : Nat) (dg : List Nat) (bs :
    List Byte), mBFmt d = 11 ∧ dg.length = 35 ∧ (∀ x ∈ dg, x < 3) ∧ sc < 256 ∧ bs = spadRead s i (mB d + n * mBStride d + 8 * g)
    8 ∧ (∀ j < 7, (bs.getD j 0).toNat = dg.getD (5 * j) 0 + 3 * dg.getD (5 * j + 1) 0 + 9 * dg.getD (5 * j + 2) 0 + 27 * dg.getD
    (5 * j + 3) 0 + 81 * dg.getD (5 * j + 4) 0) ∧ (bs.getD 7 0).toNat = sc := by
  refine ⟨t2Block, 0, (11 * 2 ^ 271), 0, 0, 126, ([2, 1, 0, 0, 2] ++ List.replicate 30 1), (spadRead t2Block 0 0 8), ?_, ?_,
    ?_, ?_, ?_, ?_, ?_⟩ <;> first | with_reducible rfl | decide +kernel

end Sys2Proof.Tests.C03t

/-! ## Witnesses: 05 wain -/

namespace Sys2Proof.Tests.C05
open Sys2Proof.Machine

def wc : Chan := { enable := true, ringEntries := 16, ringSpace := 1, ringEid := 2, ringAddr := 0x100 }
def fence : Nat := 2
def cpy : Nat := packBits [(1,4),(0,1),(1,1),(0,2),(0,12),(7,12),(0,32),(1,2),(2,16),(0x400,48),(1,2),(3,16),(0x800,48),(256,24),(1,16),(0,32),(128,24),(1,16),(0,32),(2,3),(1,3),(1,4)]
def wb (d : Nat) (k : ChanWork := {}) (c : Chan := wc) (g : WainEngine := {}) : State :=
  let s := inService [(0, wPart .running)]
  { s with wain := { chans := [(33, c)], works := [(33, k)], engines := [(1, g)] }, ccs := [(0, 1)], power := { quads := [(0, { clkMHz := 1800})]},
           mem := { spad := (leBytes 64 d).zipIdx.map (fun e => (spadBytes * 2 + 0x100 + e.2, e.1)) |>.filter (·.2 != 0) }, stks := (List.range 12).map (fun k => (k, wStack)) }
def rr (s : State) (si : SpadIn) := ringRead (s.clock 9) 0 0 wc 0 {} si
def dr : OutReq := { ep := 309, seq := 5, kind := .read, part := 0, owner := .wainRead 33 0 0 0, at_ := 0, limit := 500, dest := 1, bytes := 4 }
def sib : SpadIn := { bad := [0x100 / 8] }
def bad := setBits cpy 100 30 0x3ffffff0
def cw : WainWork := {desc := cpy, index := 0}
def cb : Burst := {chan := 33, index := 0, desc := cpy, first := 0, count := 64}
def k1 : ChanWork := { work := [cw], tokens := 8192, waitSince := some 0 }
def k2 : ChanWork := { work := [{cw with read := 64, written := 64}] }
def g2 : WainEngine := { full := [{cb with parts := [(0, List.replicate 256 (1:Byte))]}] }
def k3 : ChanWork := { work := [{cw with desc := fence}] }
def k4 : ChanWork := { k3 with fails := [4, 3] }
def g5 : WainEngine := { bursts := [{cb with waits := [0]}] }
def s5 : State := { wb cpy k2 wc g5 with fab := { reqs := [dr] } }

theorem witness_WainStepsAct_1 : ∃ (t : Nat) (ch : Nat) (e : Nat) (i : Nat) (d : Nat) (mi : MemIn) (si : SpadIn) (s : State) (s1
    : State) (c : Chan) (w : ChanWork) (g : WainEngine), chanOf s ch = c ∧ workOf s ch = w ∧ engOfChan ch = e ∧ wainOf s e = g ∧
    engLive (s.clock t) e = true ∧ c.halted = false ∧ i = c.head % c.ringEntries ∧ doorbellAhead s (partOfChan ch) c = true ∧
    ringReady (s.clock t) (partOfChan ch) c i = true ∧ ringRead (s.clock t) (partOfChan ch) (dieOfPart (partOfChan ch)) c i mi
    si = (s1, some d) ∧ s1.wain = s.wain ∧ wainReason d = none ∧ (wOp d = 1 → wCount d ≠ 0 → wainRefusal s1 ch d = none) := by
  refine ⟨9, 33, 1, 0, fence, {}, ({} : SpadIn), (wb fence), (rr (wb fence) {}).1, wc, {}, {}, ?_, ?_, ?_, ?_, ?_, ?_, ?_, ?_,
    ?_, ?_, ?_, ?_, ?_⟩ <;> first | with_reducible rfl | decide +kernel

theorem witness_WainStepsAct_2 : ∃ (t : Nat) (ch : Nat) (e : Nat) (i : Nat) (j : Nat) (s : State) (c : Chan) (w : ChanWork) (g :
    WainEngine) (x : WainWork) (b : Burst), chanOf s ch = c ∧ workOf s ch = w ∧ engOfChan ch = e ∧ wainOf s e = g ∧ engLive
    (s.clock t) e = true ∧ c.halted = false ∧ i = c.head % c.ringEntries ∧ wainSelect (s.clock t) e = some ch ∧ wainNext w.work
    = some x ∧ b = { chan := ch, index := x.index, desc := x.desc, first := x.read, count := burstCount x } ∧ burstReady
    (s.clock t) b = true ∧ w.promotedAt = none ∧ w.waitSince = some j ∧ j + 1000 * c.ageUs ≤ max s.now t := by
  refine ⟨9000, 33, 1, 0, 0, (wb cpy k1), wc, k1, {}, cw, cb, ?_, ?_, ?_, ?_, ?_, ?_, ?_, ?_, ?_, ?_, ?_, ?_, ?_, ?_⟩
    <;> first | with_reducible rfl | decide +kernel

theorem witness_WainStepsAct_3 : ∃ (t : Nat) (ch : Nat) (e : Nat) (i : Nat) (s : State) (c : Chan) (w : ChanWork) (g :
    WainEngine) (x : WainWork) (xs : List WainWork) (b : Burst) (bs : List Burst), chanOf s ch = c ∧ workOf s ch = w ∧ engOfChan
    ch = e ∧ wainOf s e = g ∧ engLive (s.clock t) e = true ∧ c.halted = false ∧ i = c.head % c.ringEntries ∧ g.full = b :: bs ∧
    b.chan = ch ∧ burstWriteReady (s.clock t) b = true ∧ w.work = x :: xs ∧ wOp x.desc = 1 ∧ x.written = wCount x.desc ∧
    headWait s ch x = true ∧ c.enable = true := by
  refine ⟨9000, 33, 1, 0, (wb cpy k2 wc g2), wc, k2, g2, {cw with read := 64, written := 64}, [], (g2.full.headD cb), [], ?_, ?_,
    ?_, ?_, ?_, ?_, ?_, ?_, ?_, ?_, ?_, ?_, ?_, ?_, ?_⟩ <;> first | with_reducible rfl | decide +kernel

theorem witness_WainStepsAct_4 : ∃ (t : Nat) (ch : Nat) (e : Nat) (i : Nat) (mi : MemIn) (si : SpadIn) (s : State) (s1 : State)
    (c : Chan) (w : ChanWork) (g : WainEngine), chanOf s ch = c ∧ workOf s ch = w ∧ engOfChan ch = e ∧ wainOf s e = g ∧ engLive
    (s.clock t) e = true ∧ c.halted = false ∧ i = c.head % c.ringEntries ∧ doorbellAhead s (partOfChan ch) c = true ∧ ringReady
    (s.clock t) (partOfChan ch) c i = true ∧ ringRead (s.clock t) (partOfChan ch) (dieOfPart (partOfChan ch)) c i mi si = (s1,
    none) ∧ s1.wain = s.wain := by
  refine ⟨9, 33, 1, 0, {}, sib, (wb fence), (rr (wb fence) sib).1, wc, {}, {}, ?_, ?_, ?_, ?_, ?_, ?_, ?_, ?_, ?_, ?_, ?_⟩
    <;> first | with_reducible rfl | decide +kernel

theorem witness_WainStepsAct_5 : ∃ (t : Nat) (ch : Nat) (e : Nat) (i : Nat) (s : State) (c : Chan) (w : ChanWork) (g :
    WainEngine) (x : WainWork) (xs : List WainWork), chanOf s ch = c ∧ workOf s ch = w ∧ engOfChan ch = e ∧ wainOf s e = g ∧
    engLive (s.clock t) e = true ∧ c.halted = false ∧ i = c.head % c.ringEntries ∧ w.work = x :: xs ∧ wOp x.desc = 2 ∧ headWait
    s ch x = true ∧ c.enable = true ∧ w.fails = [] ∧ w.writes = [] ∧ slotsOf g ch = 0 := by
  refine ⟨9000, 33, 1, 0, (wb cpy k3), wc, k3, {}, {cw with desc := fence}, [], ?_, ?_, ?_, ?_, ?_, ?_, ?_, ?_, ?_, ?_, ?_, ?_,
    ?_, ?_⟩ <;> first | with_reducible rfl | decide +kernel

theorem witness_WainStepsAct_6 : ∃ (t : Nat) (ch : Nat) (e : Nat) (i : Nat) (k : Nat) (s : State) (c : Chan) (w : ChanWork) (g :
    WainEngine) (x : WainWork) (xs : List WainWork), chanOf s ch = c ∧ workOf s ch = w ∧ engOfChan ch = e ∧ wainOf s e = g ∧
    engLive (s.clock t) e = true ∧ c.halted = false ∧ i = c.head % c.ringEntries ∧ w.work = x :: xs ∧ wOp x.desc = 2 ∧ headWait
    s ch x = true ∧ c.enable = true ∧ w.fails.head? = some k := by
  refine ⟨9000, 33, 1, 0, 4, (wb cpy k4), wc, k4, {}, {cw with desc := fence}, [], ?_, ?_, ?_, ?_, ?_, ?_, ?_, ?_, ?_, ?_, ?_, ?_⟩
    <;> first | with_reducible rfl | decide +kernel

theorem witness_WainStepsAct_7 : ∃ (t : Nat) (ch : Nat) (e : Nat) (q : Nat) (i : Nat) (j : Nat) (k : Nat) (f0 : Nat) (s : State)
    (c : Chan) (w : ChanWork) (g : WainEngine) (b : Burst) (r : OutReq), chanOf s ch = c ∧ workOf s ch = w ∧ engOfChan ch = e ∧
    wainOf s e = g ∧ engLive (s.clock t) e = true ∧ c.halted = false ∧ i = c.head % c.ringEntries ∧ findReq s (epOfEng e) q =
    some r ∧ r.at_ + r.limit ≤ max s.now t ∧ injected s r = true ∧ r.owner = .wainRead ch j f0 k ∧ (g.bursts.find? (fun b =>
    b.chan == ch && b.index == j && b.first == f0) = some b) := by
  refine ⟨9000, 33, 1, 5, 0, 0, 0, 0, s5, wc, k2, g5, {cb with waits := [0]}, dr, ?_, ?_, ?_, ?_, ?_, ?_, ?_, ?_, ?_, ?_, ?_, ?_⟩
    <;> first | with_reducible rfl | decide +kernel

end Sys2Proof.Tests.C05

/-! ## Witnesses: 06 gleaners -/

namespace Sys2Proof.Tests.C06
open Sys2Proof.Machine

def B0 : State := { inService [(0, wPart .running)] with stks := [(0, wStack),(1, wStack)], place := { bufs := [(4, ⟨77,9,0,2,1,0x200000,5000,0,[.frame 1 5]⟩)] } }
def body (op : Nat) (auto prio asp osp a b c d tile count row stride fa fb fo rnd sub q scalar : Nat) (rec : Nat := 0) (en := 0) : Nat :=
  packBits [(0,64),(288,16),(auto,1),(prio,1),(op,4),(asp,1),(osp,1),(a,48),(b,48),(c,48),(d,48),(tile,16),(count,32),(row,20),(stride,32),(fa,4),(fb,4),(fo,4),(rnd,2),(0,1),(sub,3),(q,5),(0,1),(scalar,32),(rec,48),(en,1)]
def cpB : Nat := body 9 0 0 1 1 64 0 0 1024 3 16 0 0 0 0 0 0 0 0 0
def G (b : Nat) (g : GlnCmd → Gleaner) (src : GlnFrom := .firmware) : State × GlnCmd := let c : GlnCmd := ⟨b, src, 0, 9⟩; ({ B0 with glns := [(0, g c)] }, c)
def zo (c : GlnCmd) : GlnOpen := { id := 0, cmd := c }
def zr : OutReq := { ep := 0, seq := 0, kind := .read, dest := 0, part := 0, bytes := 0, owner := .store 0 0, at_ := 0, limit := 0 }
def Q1 := G cpB (fun c => { fw := [c] })
def sel (s : State) (c : GlnCmd) (now : Nat) : Gleaner := ((glnSelect (glnOf s 0) now).getD (c, {})).2
def Q4 := G cpB (fun c => { high := [c] }) (.piece 0 3)
def Q5 := G (body 8 0 0 0 0 0 0 0 0x200000 0 0 0 0 0 0 0 0 0 0 0) (fun c => { high := [c] })
def Q6 := G (body 8 0 0 0 0 0 0 0 0x200000 0 13 0 0 0 0 0 0 0 0 0) (fun c => { high := [c] })
def Q7 := G (body 8 0 0 0 0 0 0 0 0x400000 0 16 0 0 0 0 0 0 0 0 0) (fun c => { high := [c] })
def Q8 := G (body 3 0 0 1 0 0 0 0 0x200000 0 16 0 0 0 0 0 0 0 0 0) (fun c => { high := [c] })
def Q8r := scatterIndices (setGln (Q8.1.clock 5) 0 (sel Q8.1 Q8.2 5)) 0 Q8.2 {} {}
def Q9 := G (body 8 1 0 0 0 0 0 0 0x200000 0 16 0 0 0 0 0 0 0 0 0) (fun c => { high := [c] })
def QA := G cpB (fun c => { normal := [c], headSince := some 0 })
def jb : Issued := { core := 0, index := 0, desc := packBits [(6,4),(0,1),(1,1)], limit := 1000, started := true }
def QB := G cpB (fun c => { opens := [{ id := 0, cmd := c }] }) (.tile 0 0)
def QBs (j : Issued) : State := { QB.1 with cores := [(0, { stall := none })], tiles := [(0, { fwd := { jobs := [j] } })] }
def jr : OutReq := { zr with owner := .forward 0 0, seq := 3 }
def QBr : State := { QBs jb with fab := { reqs := [jr] } }
def jd (n : Nat) := { jb with done := some n}
def QC (src : GlnFrom) := G (body 8 0 0 0 0 0 0 0 0x200000 0 16 0 0 0 0 0 0 0 0 0 0x200040 1) (fun c => { opens := [{ id := 0, cmd := c }] }) src
def vc : Nat := 3
def QE := G cpB (fun c => { high := [c] }) (.vc4 vc)
def QEx := (glnTakeExpired (glnOf QE.1 0) 1001000000).getD (zo QE.2, {})
def RS (b : Nat) : State := (G b (fun c => { running := some c })).1
def b0 : Nat := body 1 0 0 1 1 64 2097152 0 4096 3 2 32 32 1 3 0 0 0 1 0x3f800000
def s0 : State := let s := RS b0; { s with mem := { s.mem with spad := (List.range 24).map (fun i => (3*0x280000+64+i, 0x31#8)) } }
def b1 : Nat := body 2 0 0 1 1 64 2097152 0 4096 3 32 32 32 1 3 0 0 0 1 0
def s1 : State := let s := RS b1; { s with mem := { s.mem with spad := (List.range 24).map (fun i => (3*0x280000+64+i, 0x31#8)) } }
def b2 : Nat := body 3 0 0 1 0 64 0 0 2097152 3 16 0 0 0 0 0 0 0 0 0
def s2 : State := let s := RS b2; { s with mem := { s.mem with spad := (List.range 24).map (fun i => (3*0x280000+64+i, 0x31#8)) } }
def b3 : Nat := body 4 0 0 0 0 2097152 2101248 2105344 2113536 3 4 0 0 0 0 0 0 0 0 0
def s3 : State := let s := RS b3; { s with mem := { s.mem with spad := (List.range 24).map (fun i => (3*0x280000+64+i, 0x31#8)) } }
def b4 : Nat := body 5 0 0 1 1 64 2097152 0 4096 3 2 16 16 0 0 0 0 0 0 5
def s4 : State := let s := RS b4; { s with mem := { s.mem with spad := (List.range 24).map (fun i => (3*0x280000+64+i, 0x31#8)) } }
def b5 : Nat := body 6 0 0 1 1 64 2097152 0 4096 3 2 16 16 0 0 0 0 1 0 5
def s5 : State := let s := RS b5; { s with mem := { s.mem with spad := (List.range 24).map (fun i => (3*0x280000+64+i, 0x31#8)) } }
def b6 : Nat := body 7 0 0 0 1 2097152 0 2101248 4096 3 32 0 0 9 0 1 0 0 0 0
def s6 : State := let s := RS b6; { s with mem := { s.mem with spad := (List.range 24).map (fun i => (3*0x280000+64+i, 0x31#8)) } }
def b7 : Nat := body 8 0 0 0 0 0 0 0 2097152 3 64 0 0 0 0 0 0 0 0 0xdeadbeef
def s7 : State := let s := RS b7; { s with mem := { s.mem with spad := (List.range 24).map (fun i => (3*0x280000+64+i, 0x31#8)) } }
def b8 : Nat := cpB
def s8 : State := let s := RS b8; { s with mem := { s.mem with spad := (List.range 24).map (fun i => (3*0x280000+64+i, 0x31#8)) } }
def b9 : Nat := body 10 0 0 0 0 0 0 0 2097152 3 256 0 0 0 0 0 0 1 0 0xdeadbeef
def s9 : State := let s := RS b9; { s with mem := { s.mem with spad := (List.range 24).map (fun i => (3*0x280000+64+i, 0x31#8)) } }

theorem witness_GleanerQueuesAct_1 : ∃ (t : Nat) (k : Nat) (n : Nat) (s : State) (e : State) (g : Gleaner) (g1 : Gleaner) (c :
    GlnCmd) (cs : List GlnCmd) (o : GlnOpen), s.clock t = e ∧ glnOf s k = g ∧ glnLive e k = true ∧ g.running = none ∧ gAuto
    c.body = false ∧ (∀ i n, c.src ≠ .piece i n) ∧ glnAtOnce c.body = false ∧ glnMalformed e c.body = none ∧ glnRefusal e c.ses
    c.body = none ∧ isSplit c.body = false ∧ g.fw = [] ∧ (g.promoted = false ∨ g.normal = []) ∧ g.high = c :: cs ∧ k < 12 ∧
    glnTakeExpired g (max s.now t) = some (o, g1) := by
  refine ⟨1001000000, 0, 0, QE.1, ((QE.1).clock 1001000000), (glnOf QE.1 0), QEx.2, QE.2, [], QEx.1, ?_, ?_, ?_, ?_, ?_,
    (fun _ _ h => by cases h), ?_, ?_, ?_, ?_, ?_, ?_, ?_, ?_, ?_⟩ <;> first | with_reducible rfl | decide +kernel

theorem witness_GleanerQueuesAct_2 : ∃ (t : Nat) (k : Nat) (id : Nat) (n : Nat) (s : State) (e : State) (g : Gleaner) (o :
    GlnOpen) (j : Issued) (r : GlnRun), s.clock t = e ∧ glnOf s k = g ∧ k < 12 ∧ (g.opens.find? (fun o => o.id == id) = some o)
    ∧ o.pieces = 0 ∧ jobOf s n 6 id = some j ∧ coreLive e n = true ∧ j.done = none ∧ j.fail = none ∧ j.issuedAt + j.limit ≤ max
    s.now t ∧ (s.fab.reqs.find? (fun r => r.owner == .forward n id) = none) := by
  refine ⟨5000, 0, 0, 0, (QBs jb), ((QBs jb).clock 5000), (glnOf (QBs jb) 0), (zo QB.2), jb, Q8r.1, ?_, ?_, ?_, ?_, ?_, ?_,
    ?_, ?_, ?_, ?_, ?_⟩ <;> first | with_reducible rfl | decide +kernel

theorem witness_GleanerQueuesAct_3 : ∃ (t : Nat) (k : Nat) (x : Nat) (n : Nat) (s : State) (e : State) (g : Gleaner) (c :
    GlnCmd) (cs : List GlnCmd), s.clock t = e ∧ glnOf s k = g ∧ glnLive e k = true ∧ g.running = none ∧ gAuto c.body = false ∧
    (∀ i n, c.src ≠ .piece i n) ∧ glnAtOnce c.body = false ∧ glnMalformed e c.body = none ∧ glnRefusal e c.ses c.body = none ∧
    isSplit c.body = false ∧ g.fw = [] ∧ (g.promoted = true ∨ g.high = []) ∧ g.normal = c :: cs ∧ g.normal ≠ [] ∧ g.promoted =
    false ∧ g.headSince = some x ∧ x + 1000 * cfg s 0x51 (partOfStack k) ≤ max s.now t := by
  refine ⟨20000, 0, 0, 0, QA.1, ((QA.1).clock 20000), (glnOf QA.1 0), QA.2, [], ?_, ?_, ?_, ?_, ?_, (fun _ _ h => by cases h),
    ?_, ?_, ?_, ?_, ?_, ?_, ?_, ?_, ?_, ?_, ?_⟩ <;> first | with_reducible rfl | decide +kernel

theorem witness_GleanerQueuesAct_4 : ∃ (t : Nat) (k : Nat) (n : Nat) (s : State) (e : State) (g : Gleaner) (c : GlnCmd) (cs :
    List GlnCmd), s.clock t = e ∧ glnOf s k = g ∧ glnLive e k = true ∧ g.running = none ∧ gAuto c.body = false ∧ (∀ i n, c.src ≠
    .piece i n) ∧ glnAtOnce c.body = false ∧ glnMalformed e c.body = none ∧ glnRefusal e c.ses c.body = none ∧ isSplit c.body =
    false ∧ g.fw = c :: cs := by
  refine ⟨5, 0, 0, Q1.1, ((Q1.1).clock 5), (glnOf Q1.1 0), Q1.2, [], ?_, ?_, ?_, ?_, ?_, (fun _ _ h => by cases h), ?_, ?_,
    ?_, ?_, ?_⟩ <;> first | with_reducible rfl | decide +kernel

theorem witness_GleanerQueuesAct_5 : ∃ (t : Nat) (k : Nat) (n : Nat) (s : State) (e : State) (g : Gleaner) (g1 : Gleaner) (c :
    GlnCmd), s.clock t = e ∧ glnOf s k = g ∧ glnLive e k = true ∧ g.running = none ∧ glnSelect g (max s.now t) = some (c, g1) ∧
    (∃ i n, c.src = .piece i n) := by
  refine ⟨5, 0, 0, Q4.1, ((Q4.1).clock 5), (glnOf Q4.1 0), (sel Q4.1 Q4.2 5), Q4.2, ?_, ?_, ?_, ?_, ?_, ⟨_, _, rfl⟩⟩
    <;> first | with_reducible rfl | decide +kernel

theorem witness_GleanerQueuesAct_6 : ∃ (t : Nat) (k : Nat) (n : Nat) (s : State) (e : State) (g : Gleaner) (g1 : Gleaner) (c :
    GlnCmd), s.clock t = e ∧ glnOf s k = g ∧ glnLive e k = true ∧ g.running = none ∧ glnSelect g (max s.now t) = some (c, g1) ∧
    (∀ i n, c.src ≠ .piece i n) ∧ gAuto c.body = false ∧ glnAtOnce c.body = true := by
  refine ⟨5, 0, 0, Q5.1, ((Q5.1).clock 5), (glnOf Q5.1 0), (sel Q5.1 Q5.2 5), Q5.2, ?_, ?_, ?_, ?_, ?_, (fun _ _ h => by cases h),
    ?_, ?_⟩ <;> first | with_reducible rfl | decide +kernel

theorem witness_GleanerQueuesAct_7 : ∃ (t : Nat) (k : Nat) (x : Nat) (n : Nat) (s : State) (e : State) (g : Gleaner) (g1 :
    Gleaner) (c : GlnCmd), s.clock t = e ∧ glnOf s k = g ∧ glnLive e k = true ∧ g.running = none ∧ glnSelect g (max s.now t) =
    some (c, g1) ∧ (∀ i n, c.src ≠ .piece i n) ∧ gAuto c.body = false ∧ glnAtOnce c.body = false ∧ glnMalformed e c.body = some
    x := by
  refine ⟨5, 0, 3, 0, Q6.1, ((Q6.1).clock 5), (glnOf Q6.1 0), (sel Q6.1 Q6.2 5), Q6.2, ?_, ?_, ?_, ?_, ?_,
    (fun _ _ h => by cases h), ?_, ?_, ?_⟩ <;> first | with_reducible rfl | decide +kernel

theorem witness_GleanerQueuesAct_8 : ∃ (t : Nat) (k : Nat) (x : Nat) (n : Nat) (s : State) (e : State) (g : Gleaner) (g1 :
    Gleaner) (c : GlnCmd), s.clock t = e ∧ glnOf s k = g ∧ glnLive e k = true ∧ g.running = none ∧ glnSelect g (max s.now t) =
    some (c, g1) ∧ (∀ i n, c.src ≠ .piece i n) ∧ gAuto c.body = false ∧ glnAtOnce c.body = false ∧ glnMalformed e c.body = none
    ∧ glnRefusal e c.ses c.body = some x := by
  refine ⟨5, 0, 3, 0, Q7.1, ((Q7.1).clock 5), (glnOf Q7.1 0), (sel Q7.1 Q7.2 5), Q7.2, ?_, ?_, ?_, ?_, ?_,
    (fun _ _ h => by cases h), ?_, ?_, ?_, ?_⟩ <;> first | with_reducible rfl | decide +kernel

theorem witness_GleanerQueuesAct_9 : ∃ (t : Nat) (k : Nat) (n : Nat) (mi : MemIn) (si : SpadIn) (s : State) (e : State) (g :
    Gleaner) (g1 : Gleaner) (c : GlnCmd) (r : GlnRun) (ix : List Nat), s.clock t = e ∧ glnOf s k = g ∧ glnLive e k = true ∧
    g.running = none ∧ glnSelect g (max s.now t) = some (c, g1) ∧ (∀ i n, c.src ≠ .piece i n) ∧ gAuto c.body = false ∧ glnAtOnce
    c.body = false ∧ glnMalformed e c.body = none ∧ glnRefusal e c.ses c.body = none ∧ isSplit c.body = true ∧ scatterIndices
    (setGln e k g1) k c mi si = (r, ix) := by
  refine ⟨5, 0, 0, ({}:MemIn), ({}:SpadIn), Q8.1, ((Q8.1).clock 5), (glnOf Q8.1 0), (sel Q8.1 Q8.2 5), Q8.2, Q8r.1, Q8r.2, ?_, ?_,
    ?_, ?_, ?_, (fun _ _ h => by cases h), ?_, ?_, ?_, ?_, ?_, ?_⟩ <;> first | with_reducible rfl | decide +kernel

theorem witness_GleanerQueuesAct_10 : ∃ (t : Nat) (k : Nat) (x : Nat) (n : Nat) (s : State) (e : State) (g : Gleaner) (g1 :
    Gleaner) (c : GlnCmd), s.clock t = e ∧ glnOf s k = g ∧ glnLive e k = true ∧ g.running = none ∧ glnSelect g (max s.now t) =
    some (c, g1) ∧ (∀ i n, c.src ≠ .piece i n) ∧ gAuto c.body = true ∧ primaryStack e c.body = some x ∧ x ≠ k ∧ glnRoom e x
    c.body = true := by
  refine ⟨5, 0, 1, 0, Q9.1, ((Q9.1).clock 5), (glnOf Q9.1 0), (sel Q9.1 Q9.2 5), Q9.2, ?_, ?_, ?_, ?_, ?_,
    (fun _ _ h => by cases h), ?_, ?_, ?_, ?_⟩ <;> first | with_reducible rfl | decide +kernel

theorem witness_GleanerQueuesAct_11 : ∃ (t : Nat) (k : Nat) (id : Nat) (n : Nat) (s : State) (e : State) (g : Gleaner) (j :
    Issued) (r : GlnRun) (req : OutReq), s.clock t = e ∧ glnOf s k = g ∧ jobOf s n 6 id = some j ∧ j.done = none ∧ j.fail = none
    ∧ j.issuedAt + j.limit ≤ max s.now t ∧ (s.fab.reqs.find? (fun r => r.owner == .forward n id) = some req) := by
  refine ⟨5000, 0, 0, 0, QBr, (QBr.clock 5000), (glnOf QBr 0), jb, Q8r.1, jr, ?_, ?_, ?_, ?_, ?_, ?_, ?_⟩
    <;> first | with_reducible rfl | decide +kernel

theorem witness_GleanerQueuesAct_12 : ∃ (t : Nat) (k : Nat) (id : Nat) (n : Nat) (s : State) (e : State) (g : Gleaner) (j :
    Issued), s.clock t = e ∧ glnOf s k = g ∧ jobOf s n 6 id = some j ∧ coreLive e n = true ∧ j.done = some 0 := by
  refine ⟨5, 0, 0, 0, (QBs (jd 0)), ((QBs (jd 0)).clock 5), (glnOf (QBs (jd 0)) 0), (jd 0), ?_, ?_, ?_, ?_, ?_⟩
    <;> first | with_reducible rfl | decide +kernel

theorem witness_GleanerQueuesAct_13 : ∃ (t : Nat) (k : Nat) (id : Nat) (s : State) (e : State) (g : Gleaner) (o : GlnOpen),
    s.clock t = e ∧ glnOf s k = g ∧ k < 12 ∧ (g.opens.find? (fun o => o.id == id) = some o) ∧ o.pieces = 0 ∧ o.cmd.src =
    .firmware := by
  refine ⟨5, 0, 0, (QC .firmware).1, (((QC .firmware).1).clock 5), (glnOf (QC .firmware).1 0), (zo (QC .firmware).2), ?_, ?_,
    ?_, ?_, ?_, ?_⟩ <;> first | with_reducible rfl | decide +kernel

theorem witness_GleanerOperationsRun_1 : ∃ (t : Nat) (k : Nat) (b : Nat) (mi : MemIn) (si : SpadIn) (s : State) (e : State) (g :
    Gleaner) (c : GlnCmd) (gi : GlnIn) (r0 : GlnRun), glnOf s k = g ∧ g.running = some c ∧ c.body = b ∧ s.clock t = e ∧ glnLive
    e k = true ∧ glnReady e (glnExtents b) = true ∧ gi = { gln := k, tile := gTile b, mi := mi, si := si } ∧ (r0 =
    { st := if usesTile b then eccCount e (gTile b % 1024) si else e }) ∧ gOp b = 9 ∧ gASpad b = true ∧ gOutSpad b = true ∧ (gA
    b + gCount b ≤ gD b ∨ gD b + gCount b + 8 ≤ gA b) ∧ badIn si (gA b) (gCount b) = false ∧ (∀ i n, c.src ≠ .piece i n) ∧ gA b
    + gCount b ≤ spadBytes ∧ gD b + gCount b ≤ spadBytes ∧ (gA b % 8 = 0) ∧ (gD b % 8 = 0) := by
  refine ⟨5, 0, b8, ({}:MemIn), ({}:SpadIn), s8, (s8.clock 5), (glnOf s8 0), ⟨b8, .firmware, 0, 9⟩, ⟨0, gTile b8, {}, {}⟩,
    { st := if usesTile b8 then eccCount (s8.clock 5) (gTile b8 % 1024) {} else s8.clock 5 }, ?_, ?_, ?_, ?_, ?_, ?_, ?_, ?_,
    ?_, ?_, ?_, ?_, ?_, (fun _ _ h => by cases h), ?_, ?_, ?_, ?_⟩ <;> first | with_reducible rfl | decide +kernel

theorem witness_GleanerOperationsRun_2 : ∃ (t : Nat) (k : Nat) (b : Nat) (mi : MemIn) (si : SpadIn) (s : State) (e : State) (g :
    Gleaner) (c : GlnCmd) (gi : GlnIn) (r0 : GlnRun), glnOf s k = g ∧ g.running = some c ∧ c.body = b ∧ s.clock t = e ∧ glnLive
    e k = true ∧ glnReady e (glnExtents b) = true ∧ gi = { gln := k, tile := gTile b, mi := mi, si := si } ∧ (r0 =
    { st := if usesTile b then eccCount e (gTile b % 1024) si else e }) ∧ gOp b = 1 := by
  refine ⟨5, 0, b0, ({}:MemIn), ({}:SpadIn), s0, (s0.clock 5), (glnOf s0 0), ⟨b0, .firmware, 0, 9⟩, ⟨0, gTile b0, {}, {}⟩,
    { st := if usesTile b0 then eccCount (s0.clock 5) (gTile b0 % 1024) {} else s0.clock 5 }, ?_, ?_, ?_, ?_, ?_, ?_, ?_, ?_,
    ?_⟩ <;> first | with_reducible rfl | decide +kernel

theorem witness_GleanerOperationsRun_3 : ∃ (t : Nat) (k : Nat) (b : Nat) (mi : MemIn) (si : SpadIn) (s : State) (e : State) (g :
    Gleaner) (c : GlnCmd) (gi : GlnIn) (r0 : GlnRun), glnOf s k = g ∧ g.running = some c ∧ c.body = b ∧ s.clock t = e ∧ glnLive
    e k = true ∧ glnReady e (glnExtents b) = true ∧ gi = { gln := k, tile := gTile b, mi := mi, si := si } ∧ (r0 =
    { st := if usesTile b then eccCount e (gTile b % 1024) si else e }) ∧ gOp b = 2 := by
  refine ⟨5, 0, b1, ({}:MemIn), ({}:SpadIn), s1, (s1.clock 5), (glnOf s1 0), ⟨b1, .firmware, 0, 9⟩, ⟨0, gTile b1, {}, {}⟩,
    { st := if usesTile b1 then eccCount (s1.clock 5) (gTile b1 % 1024) {} else s1.clock 5 }, ?_, ?_, ?_, ?_, ?_, ?_, ?_, ?_,
    ?_⟩ <;> first | with_reducible rfl | decide +kernel

theorem witness_GleanerOperationsRun_4 : ∃ (t : Nat) (k : Nat) (b : Nat) (mi : MemIn) (si : SpadIn) (s : State) (e : State) (g :
    Gleaner) (c : GlnCmd) (gi : GlnIn) (r0 : GlnRun), glnOf s k = g ∧ g.running = some c ∧ c.body = b ∧ s.clock t = e ∧ glnLive
    e k = true ∧ glnReady e (glnExtents b) = true ∧ gi = { gln := k, tile := gTile b, mi := mi, si := si } ∧ (r0 =
    { st := if usesTile b then eccCount e (gTile b % 1024) si else e }) ∧ gOp b = 3 := by
  refine ⟨5, 0, b2, ({}:MemIn), ({}:SpadIn), s2, (s2.clock 5), (glnOf s2 0), ⟨b2, .firmware, 0, 9⟩, ⟨0, gTile b2, {}, {}⟩,
    { st := if usesTile b2 then eccCount (s2.clock 5) (gTile b2 % 1024) {} else s2.clock 5 }, ?_, ?_, ?_, ?_, ?_, ?_, ?_, ?_,
    ?_⟩ <;> first | with_reducible rfl | decide +kernel

theorem witness_GleanerOperationsRun_5 : ∃ (t : Nat) (k : Nat) (b : Nat) (mi : MemIn) (si : SpadIn) (s : State) (e : State) (g :
    Gleaner) (c : GlnCmd) (gi : GlnIn) (r0 : GlnRun), glnOf s k = g ∧ g.running = some c ∧ c.body = b ∧ s.clock t = e ∧ glnLive
    e k = true ∧ glnReady e (glnExtents b) = true ∧ gi = { gln := k, tile := gTile b, mi := mi, si := si } ∧ (r0 =
    { st := if usesTile b then eccCount e (gTile b % 1024) si else e }) ∧ gOp b = 4 := by
  refine ⟨5, 0, b3, ({}:MemIn), ({}:SpadIn), s3, (s3.clock 5), (glnOf s3 0), ⟨b3, .firmware, 0, 9⟩, ⟨0, gTile b3, {}, {}⟩,
    { st := if usesTile b3 then eccCount (s3.clock 5) (gTile b3 % 1024) {} else s3.clock 5 }, ?_, ?_, ?_, ?_, ?_, ?_, ?_, ?_,
    ?_⟩ <;> first | with_reducible rfl | decide +kernel

theorem witness_GleanerOperationsRun_6 : ∃ (t : Nat) (k : Nat) (b : Nat) (mi : MemIn) (si : SpadIn) (s : State) (e : State) (g :
    Gleaner) (c : GlnCmd) (gi : GlnIn) (r0 : GlnRun), glnOf s k = g ∧ g.running = some c ∧ c.body = b ∧ s.clock t = e ∧ glnLive
    e k = true ∧ glnReady e (glnExtents b) = true ∧ gi = { gln := k, tile := gTile b, mi := mi, si := si } ∧ (r0 =
    { st := if usesTile b then eccCount e (gTile b % 1024) si else e }) ∧ gOp b = 5 := by
  refine ⟨5, 0, b4, ({}:MemIn), ({}:SpadIn), s4, (s4.clock 5), (glnOf s4 0), ⟨b4, .firmware, 0, 9⟩, ⟨0, gTile b4, {}, {}⟩,
    { st := if usesTile b4 then eccCount (s4.clock 5) (gTile b4 % 1024) {} else s4.clock 5 }, ?_, ?_, ?_, ?_, ?_, ?_, ?_, ?_,
    ?_⟩ <;> first | with_reducible rfl | decide +kernel

theorem witness_GleanerOperationsRun_7 : ∃ (t : Nat) (k : Nat) (b : Nat) (mi : MemIn) (si : SpadIn) (s : State) (e : State) (g :
    Gleaner) (c : GlnCmd) (gi : GlnIn) (r0 : GlnRun), glnOf s k = g ∧ g.running = some c ∧ c.body = b ∧ s.clock t = e ∧ glnLive
    e k = true ∧ glnReady e (glnExtents b) = true ∧ gi = { gln := k, tile := gTile b, mi := mi, si := si } ∧ (r0 =
    { st := if usesTile b then eccCount e (gTile b % 1024) si else e }) ∧ gOp b = 6 := by
  refine ⟨5, 0, b5, ({}:MemIn), ({}:SpadIn), s5, (s5.clock 5), (glnOf s5 0), ⟨b5, .firmware, 0, 9⟩, ⟨0, gTile b5, {}, {}⟩,
    { st := if usesTile b5 then eccCount (s5.clock 5) (gTile b5 % 1024) {} else s5.clock 5 }, ?_, ?_, ?_, ?_, ?_, ?_, ?_, ?_,
    ?_⟩ <;> first | with_reducible rfl | decide +kernel

theorem witness_GleanerOperationsRun_8 : ∃ (t : Nat) (k : Nat) (b : Nat) (mi : MemIn) (si : SpadIn) (s : State) (e : State) (g :
    Gleaner) (c : GlnCmd) (gi : GlnIn) (r0 : GlnRun), glnOf s k = g ∧ g.running = some c ∧ c.body = b ∧ s.clock t = e ∧ glnLive
    e k = true ∧ glnReady e (glnExtents b) = true ∧ gi = { gln := k, tile := gTile b, mi := mi, si := si } ∧ (r0 =
    { st := if usesTile b then eccCount e (gTile b % 1024) si else e }) ∧ gOp b = 7 := by
  refine ⟨5, 0, b6, ({}:MemIn), ({}:SpadIn), s6, (s6.clock 5), (glnOf s6 0), ⟨b6, .firmware, 0, 9⟩, ⟨0, gTile b6, {}, {}⟩,
    { st := if usesTile b6 then eccCount (s6.clock 5) (gTile b6 % 1024) {} else s6.clock 5 }, ?_, ?_, ?_, ?_, ?_, ?_, ?_, ?_,
    ?_⟩ <;> first | with_reducible rfl | decide +kernel

theorem witness_GleanerOperationsRun_9 : ∃ (t : Nat) (k : Nat) (b : Nat) (mi : MemIn) (si : SpadIn) (s : State) (e : State) (g :
    Gleaner) (c : GlnCmd) (gi : GlnIn) (r0 : GlnRun), glnOf s k = g ∧ g.running = some c ∧ c.body = b ∧ s.clock t = e ∧ glnLive
    e k = true ∧ glnReady e (glnExtents b) = true ∧ gi = { gln := k, tile := gTile b, mi := mi, si := si } ∧ (r0 =
    { st := if usesTile b then eccCount e (gTile b % 1024) si else e }) ∧ gOp b = 8 := by
  refine ⟨5, 0, b7, ({}:MemIn), ({}:SpadIn), s7, (s7.clock 5), (glnOf s7 0), ⟨b7, .firmware, 0, 9⟩, ⟨0, gTile b7, {}, {}⟩,
    { st := if usesTile b7 then eccCount (s7.clock 5) (gTile b7 % 1024) {} else s7.clock 5 }, ?_, ?_, ?_, ?_, ?_, ?_, ?_, ?_,
    ?_⟩ <;> first | with_reducible rfl | decide +kernel

theorem witness_GleanerOperationsRun_10 : ∃ (t : Nat) (k : Nat) (b : Nat) (mi : MemIn) (si : SpadIn) (s : State) (e : State) (g
    : Gleaner) (c : GlnCmd) (gi : GlnIn) (r0 : GlnRun), glnOf s k = g ∧ g.running = some c ∧ c.body = b ∧ s.clock t = e ∧
    glnLive e k = true ∧ glnReady e (glnExtents b) = true ∧ gi = { gln := k, tile := gTile b, mi := mi, si := si } ∧ (r0 =
    { st := if usesTile b then eccCount e (gTile b % 1024) si else e }) ∧ gOp b = 10 := by
  refine ⟨5, 0, b9, ({}:MemIn), ({}:SpadIn), s9, (s9.clock 5), (glnOf s9 0), ⟨b9, .firmware, 0, 9⟩, ⟨0, gTile b9, {}, {}⟩,
    { st := if usesTile b9 then eccCount (s9.clock 5) (gTile b9 % 1024) {} else s9.clock 5 }, ?_, ?_, ?_, ?_, ?_, ?_, ?_, ?_,
    ?_⟩ <;> first | with_reducible rfl | decide +kernel

end Sys2Proof.Tests.C06

/-! ## Witnesses: 07 memory -/

namespace Sys2Proof.Tests.C07
open Sys2Proof.Machine

def W0 : State := { stks := [(0, { wStack with writeBack := [7], lanes := [(3, { offset := 2 })] })] }
def W1 : State := { stks := [(0, { wStack with corrInterval := 70, lanes := [(1, {marked := 1}), (2, {marked := 1}), (3, { offset := 2 })] })] }
def cel : Cellar := { lent := true, slots := 2, table := [(5, { epoch := 0, count := 3, data := List.replicate 128 7, pmap := 3 })] }
def C0 : State := { cellars := [(1, cel)], host := { linkUp := true, fns := [(2, { bme := true })] } }
def sb : SectorBuf := {sector := 5, data := List.replicate 128 9, pending := true}
def C1 : State := { C0 with cellars := [(1, {cel with buf := [sb]})] }
def sc : SectorBuf := {sector := 5, data := List.replicate 128 9, dirty := true, poison := 16}
def C2 : State := { C0 with cellars := [(1, {cel with buf := [sc]})] }

theorem witness_StackUpkeepActs_1 : ∃ (t : Nat) (k : Nat) (pc : Nat) (lane : Nat) (e : Nat) (lt : Nat) (line : Nat) (lanes :
    List Nat) (mi : MemIn) (s : State) (st : Stack) (a : StkLane), k < 12 ∧ pc < 64 ∧ lane < 36 ∧ stackOf s k = st ∧ stackAwake
    st = true ∧ mget {} st.lanes (36 * pc + lane) = a ∧ line ∈ st.writeBack ∧ a.marked = 0 ∧ markCause st pc lane ≠ 0 ∧
    (markedLanes st pc).length < 2 ∧ e ≤ 16384 ∧ lt ≤ 16384 ∧ (mget {} st.pcs pc).lastRead + 100000 ≤ max s.now t ∧ mi.errs = []
    ∧ st.patrolPos ∉ st.bad ∧ st.patrolPos ∉ st.poisoned ∧ st.patrolAt + 60000000000 ≤ max s.now t := by
  refine ⟨60000000000, 0, 0, 3, 100, 10, 7, [4], ({} : MemIn), W0, (stackOf W0 0), (mget {} (stackOf W0 0).lanes 3), ?_, ?_,
    ?_, ?_, ?_, ?_, ?_, ?_, ?_, ?_, ?_, ?_, ?_, ?_, ?_, ?_, ?_⟩ <;> first | with_reducible rfl | decide +kernel

theorem witness_StackUpkeepActs_2 : ∃ (k : Nat) (pc : Nat) (lane : Nat) (lanes : List Nat) (s : State) (st : Stack) (a :
    StkLane), k < 12 ∧ pc < 64 ∧ lane < 36 ∧ stackOf s k = st ∧ stackAwake st = true ∧ mget {} st.lanes (36 * pc + lane) = a ∧
    a.marked = 0 ∧ markCause st pc lane ≠ 0 ∧ 2 ≤ (markedLanes st pc).length := by
  refine ⟨0, 0, 3, [4], W1, (stackOf W1 0), (mget {} (stackOf W1 0).lanes 3), ?_, ?_, ?_, ?_, ?_, ?_, ?_, ?_, ?_⟩
    <;> first | with_reducible rfl | decide +kernel

theorem witness_CellarStepsAct_1 : ∃ (p : Nat) (g : Nat) (l : Nat) (bs : List Byte) (s : State) (c : Cellar) (b : SectorBuf),
    cellarOf s p = c ∧ c.lent = true ∧ g < 512 * c.slots ∧ cellarBuf s p g = some b ∧ b.pending = false ∧ l < 32 ∧ bs.length =
    128 ∧ (b.dirty = true ∨ nextCount c g < 2 ^ 32) ∧ b.dirty = true ∧ canMaster s (p + 1) = true ∧ c.releasing = false := by
  refine ⟨1, 5, 4, (List.replicate 128 1), C2, (cellarOf C2 1), sc, ?_, ?_, ?_, ?_, ?_, ?_, ?_, ?_, ?_, ?_, ?_⟩
    <;> first | with_reducible rfl | decide +kernel

theorem witness_CellarStepsAct_2 : ∃ (p : Nat) (g : Nat) (s : State) (c : Cellar), cellarOf s p = c ∧ c.lent = true ∧ g < 512 *
    c.slots ∧ cellarBuf s p g = none ∧ c.buf.length < 64 ∧ mfind c.table g = none := by
  refine ⟨1, 6, C0, cel, ?_, ?_, ?_, ?_, ?_, ?_⟩ <;> first | with_reducible rfl | decide +kernel

theorem witness_CellarStepsAct_3 : ∃ (p : Nat) (g : Nat) (s : State) (c : Cellar) (x : Sector), cellarOf s p = c ∧ c.lent = true
    ∧ g < 512 * c.slots ∧ cellarBuf s p g = none ∧ c.buf.length < 64 ∧ mfind c.table g = some x ∧ canMaster s (p + 1) = true :=
    by
  refine ⟨1, 5, C0, cel, (mget {} cel.table 5), ?_, ?_, ?_, ?_, ?_, ?_, ?_⟩ <;> first | with_reducible rfl | decide +kernel

theorem witness_CellarStepsAct_4 : ∃ (p : Nat) (g : Nat) (good : Bool) (s : State) (c : Cellar) (x : Sector) (b : SectorBuf),
    cellarOf s p = c ∧ cellarBuf s p g = some b ∧ b.pending = true ∧ mfind c.table g = some x ∧ good = true ∧ x.poisoned = false
    := by
  refine ⟨1, 5, true, C1, (cellarOf C1 1), (mget {} cel.table 5), sb, ?_, ?_, ?_, ?_, ?_, ?_⟩
    <;> first | with_reducible rfl | decide +kernel

theorem witness_CellarStepsAct_5 : ∃ (p : Nat) (g : Nat) (good : Bool) (s : State) (c : Cellar) (x : Sector) (b : SectorBuf),
    cellarOf s p = c ∧ cellarBuf s p g = some b ∧ b.pending = true ∧ mfind c.table g = some x ∧ good = false := by
  refine ⟨1, 5, false, C1, (cellarOf C1 1), (mget {} cel.table 5), sb, ?_, ?_, ?_, ?_, ?_⟩
    <;> first | with_reducible rfl | decide +kernel

end Sys2Proof.Tests.C07

/-! ## Witnesses: 08 placement -/

namespace Sys2Proof.Tests.C08
open Sys2Proof.Machine

def bq (size attr w : Nat) : Nat := packBits [(77,32),(attr,16),(w,3),(0,13),(0x0001,64),(size,64)]
def nb : Buf := ⟨77,9,0,2,1,0x200000,5000,0,[.frame 1 5]⟩
def nbm : Buf := ⟨77,9,0,2,1,0x200000,5000,0,[.slot 3, .frame 1 5]⟩
def B0 := inService [(0, wPart .running)]
def rq (s : State) := asked s tenArgs
def aq (s : State) := allocReq s (rq s).part (rq s).params
def S3 := tenAsk { B0 with stks := (List.range 3).map (fun k => (k, {failed := true})) } 0x600 0 (bq 5000000 0 0)
def S5 (op : Nat) := tenAsk { B0 with place := { bufs := [(4, nbm)], heat := [(slotHeatKey 0 3, {})] } } op 0 (packBits [(77,32)])
def S6 := tenAsk B0 0x607 0 (packBits [(0x10000,64), (1000, 17)])
def S7 (d : Bool) := tenAsk { B0 with cellars := [(0, { lent := true, tableAt := [7], buf := [{sector := 1, data := [], dirty := d}] })] } 0x608 0 0
def P1 (op params : Nat) := tenAsk { B0 with place := { bufs := [(4, nb)] } } op 0 params
def fm : Nat := packBits [(0,64),(77,32),(0,32),(0,4),(2,4)]
def P2 := tenAsk { B0 with place := { bufs := [(4, nb)], sessions := [(9, {mode := 2})] } } 0x605 0 fm
def P3 := tenAsk { B0 with place := { bufs := [(4, nb)], sessions := [(9, {migrations := 2})] } } 0x606 0 fm
def P4 := { B0 with place := { bufs := [(4, nb)], sessions := [(9, {migrations := 2})] }, stks := [(4, { corrLines := 2})] }
def P5 := let s := tenAsk B0 0x609 1 0; { s with stks := [(1, { corrLines := 2})] }
def mv : Migration := { session := 9, buf := 4, page := 0, srcStack := 1, srcFrame := 0, dstStack := 2, dstFrame := 0 }
def M1 : State := { B0 with place := { moves := [mv] }, stks := [(1, { poisoned := [3], bad := [4]}), (2, {bad := [4,5], poisoned := [9]})], mem := { stk := [(stkKey 1 0, 5), (stkKey 1 0x1fffff, 7),(stkKey 2 0, 7),(stkKey 2 6, 7)] } }
def st0 : Stub := ⟨1,5,2,6,9,0,2⟩
def fl0 : InFlight := { mb := 1, opcode := 0x600, seq := 4, kind := .bufAlloc [1] 0, takenAt := 0 }
def M2 : State := { B0 with place := { stubs := [st0], sessions := [(9, {mode := 1})], filling := [32768+5], tileMoves := [⟨5,12,0,none⟩] }, stks := [(1, { poisoned := [3], bad := [5*16384]}), (2, {bad := [4,5], poisoned := [9]})], mem := { stk := [(stkKey 1 (5*0x200000), 5), (stkKey 2 (5*0x200000), 7)] }, boot := { B0.boot with tileMap := (List.range 12).map (fun i => (i,i)) }, tick := { due := some 10000 } }
def C3 : State := { B0 with mbx := { B0.mbx with flight := [fl0] } }

theorem witness_BufferCommandsAct_1 : ∃ (t : Nat) (a : MbxArgs) (s : State) (r : Req) (q : AllocReq) (c : Cellar), allocReq s
    r.part r.params = q ∧ cellarOf s r.part = c ∧ q.size ≠ 0 ∧ allocBad s q = false ∧ q.pages s ≤ freePages s q.owner ∧ Accepts
    (s.clock t) a { opcode := 0x600, rights := 2, pkg := .c, partUse := .one, parts := some [.assigned, .running], resp := 16 }
    {} r ∧ allocHere s q = none ∧ q.shared = false := by
  refine ⟨0, tenArgs, S3, (rq S3), (aq S3), (cellarOf S3 0), ?_, ?_, ?_, ?_,
    (by rw [freePages_empty (by decide +kernel)]; decide +kernel), ⟨?_, ?_, ?_⟩, ?_, ?_⟩
    <;> first | with_reducible rfl | decide +kernel

theorem witness_BufferCommandsAct_2 : ∃ (t : Nat) (a : MbxArgs) (s : State) (r : Req) (q : AllocReq) (b : Buf) (key : Nat) (c :
    Cellar), allocReq s r.part r.params = q ∧ cellarOf s r.part = c ∧ bufOf s (sessionOf s r.part) (r.f 0 32) = some (key, b) ∧
    Accepts (s.clock t) a
    { opcode := 0x601, rights := 2, pkg := .c, partUse := .one, parts := some [.assigned, .running, .fenced] } {} r := by
  refine ⟨0, tenArgs, (S5 0x601), (rq (S5 0x601)), (aq (S5 0x601)), nbm, 4, (cellarOf (S5 0) 0), ?_, ?_, ?_, ⟨?_, ?_, ?_⟩⟩
    <;> first | with_reducible rfl | decide +kernel

theorem witness_BufferCommandsAct_3 : ∃ (t : Nat) (a : MbxArgs) (s : State) (r : Req) (q : AllocReq) (b : Buf) (key : Nat) (c :
    Cellar), allocReq s r.part r.params = q ∧ cellarOf s r.part = c ∧ bufOf s (sessionOf s r.part) (r.f 0 32) = some (key, b) ∧
    Accepts (s.clock t) a { opcode := 0x602, rights := 3, pkg := .c, partUse := .one, parts := some notFree, resp := 32 } {} r
    := by
  refine ⟨0, tenArgs, (S5 0x602), (rq (S5 0x602)), (aq (S5 0x602)), nbm, 4, (cellarOf (S5 0) 0), ?_, ?_, ?_, ⟨?_, ?_, ?_⟩⟩
    <;> first | with_reducible rfl | decide +kernel

theorem witness_BufferCommandsAct_4 : ∃ (t : Nat) (a : MbxArgs) (s : State) (r : Req) (q : AllocReq) (c : Cellar), allocReq s
    r.part r.params = q ∧ cellarOf s r.part = c ∧ r.f 0 64 % 4096 = 0 ∧ 1 ≤ r.f 64 17 ∧ r.f 64 17 ≤ 65536 ∧ c.lent = false ∧
    tableFrames (r.f 64 17) ≤ (tablePlaces s r.part (tableFrames (r.f 64 17))).length ∧ s.keys.drbgFailed = false ∧ Accepts
    (s.clock t) a { opcode := 0x607, rights := 2, pkg := .c, partUse := .one, parts := some [.assigned, .running] } {} r := by
  refine ⟨0, tenArgs, S6, (rq S6), (aq S6), (cellarOf S6 0), ?_, ?_, ?_, ?_, ?_, ?_, ?_, ?_, ⟨?_, ?_, ?_⟩⟩
    <;> first | with_reducible rfl | decide +kernel

theorem witness_BufferCommandsAct_5 : ∃ (t : Nat) (a : MbxArgs) (s : State) (r : Req) (q : AllocReq) (c : Cellar), allocReq s
    r.part r.params = q ∧ cellarOf s r.part = c ∧ c.lent = true ∧ c.releasing = false ∧ r.part < 4 ∧ c.buf.any (·.dirty) = true
    ∧ canMaster s (r.part + 1) = false ∧ (∀ e ∈ s.place.bufs, e.2.owner = r.part → ∀ p ∈ e.2.pages, (pageFrame p).isSome = true)
    ∧ (∀ p, p ≠ r.part → (cellarOf s p).releasing = false) ∧ Accepts (s.clock t) a
    { opcode := 0x608, rights := 2, pkg := .c, partUse := .one, parts := some [.assigned, .running, .fenced] } {} r := by
  refine ⟨0, tenArgs, (S7 true), (rq (S7 true)), (aq (S7 true)), (cellarOf (S7 true) 0), ?_, ?_, ?_, ?_, ?_, ?_, ?_, ?_,
    (fun p _ => none_releasing _ (by decide +kernel) p), ⟨?_, ?_, ?_⟩⟩ <;> first | with_reducible rfl | decide +kernel

theorem witness_BufferCommandsAct_6 : ∃ (t : Nat) (a : MbxArgs) (s : State) (r : Req) (q : AllocReq) (c : Cellar), allocReq s
    r.part r.params = q ∧ cellarOf s r.part = c ∧ c.lent = true ∧ c.releasing = false ∧ r.part < 4 ∧ c.buf.any (·.dirty) = false
    ∧ (∀ e ∈ s.place.bufs, e.2.owner = r.part → ∀ p ∈ e.2.pages, (pageFrame p).isSome = true) ∧ (∀ p, p ≠ r.part → (cellarOf s
    p).releasing = false) ∧ (∀ f ∈ s.mbx.flight, f.kind ≠ .cellarRelease) ∧ Accepts (s.clock t) a
    { opcode := 0x608, rights := 2, pkg := .c, partUse := .one, parts := some [.assigned, .running, .fenced] } {} r := by
  refine ⟨0, tenArgs, (S7 false), (rq (S7 false)), (aq (S7 false)), (cellarOf (S7 false) 0), ?_, ?_, ?_, ?_, ?_, ?_, ?_,
    (fun p _ => none_releasing _ (by decide +kernel) p), ?_, ⟨?_, ?_, ?_⟩⟩ <;> first | with_reducible rfl | decide +kernel

theorem witness_PlacementCommandsAct_1 : ∃ (t : Nat) (a : MbxArgs) (s : State) (r : Req) (f : Nat), tickBad s (r.f 0 64) = false
    ∧ tickWrong s (r.f 0 64) = false ∧ s.sess.staged.length < 64 ∧ r.f 64 2 ≠ 3 ∧ (r.f 64 2 = 2 → ∀ e ∈ s.place.bufs,
    e.2.session = sessionOf s r.part → bit e.2.attr 3 = true) ∧ Accepts (s.clock t) a
    { opcode := 0x603, rights := 3, pkg := .c, partUse := .one, parts := some [.assigned, .running], resp := 8 } {} r := by
  refine ⟨0, tenArgs, (P1 0x603 (packBits [(0,64), (1,2),(0,14),(5,16)])), (rq (P1 0x603 (packBits [(0,64),
    (1,2),(0,14),(5,16)]))), 0, ?_, ?_, ?_, ?_, ?_, ⟨?_, ?_, ?_⟩⟩ <;> first | with_reducible rfl | decide +kernel

theorem witness_PlacementCommandsAct_2 : ∃ (t : Nat) (a : MbxArgs) (s : State) (r : Req) (f : Nat), tickBad s (r.f 0 64) = false
    ∧ tickWrong s (r.f 0 64) = false ∧ s.sess.staged.length < 64 ∧ (∀ i ∈ span (r.f 64 9) (r.f 73 9), i < 288 ∧ partOfTile i =
    r.part) ∧ Accepts (s.clock t) a
    { opcode := 0x604, rights := 3, pkg := .c, partUse := .one, parts := some [.assigned, .running], resp := 8 } {} r := by
  refine ⟨0, tenArgs, (P1 0x604 (packBits [(0,64), (1,9),(5,9),(1,1)])), (rq (P1 0x604 (packBits [(0,64), (1,9),(5,9),(1,1)]))),
    0, ?_, ?_, ?_, ?_, ⟨?_, ?_, ?_⟩⟩ <;> first | with_reducible rfl | decide +kernel

theorem witness_PlacementCommandsAct_3 : ∃ (t : Nat) (a : MbxArgs) (s : State) (r : Req) (b : Buf) (key : Nat) (src : Nat) (f :
    Nat) (page : Nat), tickBad s (r.f 0 64) = false ∧ tickWrong s (r.f 0 64) = false ∧ bufOf s (sessionOf s r.part) (r.f 64 32)
    = some (key, b) ∧ (mget {} s.place.sessions (sessionOf s r.part) : Placement).mode = 2 ∧ page = r.f 96 32 * b.width + r.f
    128 3 ∧ r.f 128 3 < b.width ∧ candidateStack s b page (r.f 132 4) = true ∧ dieAway s (r.f 132 4) = false ∧ b.pages[page]? =
    some (.frame src f) ∧ dieAway s src = false ∧ Accepts (s.clock t) a
    { opcode := 0x605, rights := 3, pkg := .c, partUse := .one, parts := some [.running, .assigned], resp := 16 } {} r := by
  refine ⟨0, tenArgs, P2, (rq P2), nb, 4, 1, 5, 0, ?_, ?_, ?_, ?_, ?_, ?_, ?_, ?_, ?_, ?_, ⟨?_, ?_, ?_⟩⟩
    <;> first | with_reducible rfl | decide +kernel

theorem witness_PlacementCommandsAct_4 : ∃ (t : Nat) (a : MbxArgs) (s : State) (r : Req), Accepts (s.clock t) a
    { opcode := 0x606, rights := 3, pkg := .c, partUse := .one, parts := some notFree, resp := 32 } {} r := by
  refine ⟨0, tenArgs, P3, (rq P3), ⟨?_, ?_, ?_⟩⟩ <;> first | with_reducible rfl | decide +kernel

theorem witness_PlacementCommandsAct_5 : ∃ (t : Nat) (a : MbxArgs) (s : State) (r : Req), 7 ≤ s.boot.stage.getD 0 ∧ r.op = true
    ∧ Accepts (s.clock t) a { opcode := 0x609, rights := 3, pkg := .any, partUse := .pkg } { resp := some 384 } r := by
  refine ⟨0, (opAsk 0x609 4 0), P4, (asked P4 (opAsk 0x609 4 0)), ?_, ?_, ⟨?_, ?_, ?_⟩⟩
    <;> first | with_reducible rfl | decide +kernel

theorem witness_PlacementCommandsAct_6 : ∃ (t : Nat) (a : MbxArgs) (s : State) (r : Req), 7 ≤ s.boot.stage.getD 0 ∧ r.op = false
    ∧ Accepts (s.clock t) a { opcode := 0x609, rights := 3, pkg := .any, partUse := .pkg } { resp := some 96 } r := by
  refine ⟨0, tenArgs, P5, (rq P5), ?_, ?_, ⟨?_, ?_, ?_⟩⟩ <;> first | with_reducible rfl | decide +kernel

theorem witness_StackerStepsAct_1 : ∃ (k : Nat) (f : Nat) (i : Nat) (ses : Nat) (s : State) (b : Stub) (p : Placement) (x :
    TileMove), (s.place.stubs.find? (fun b => b.stack == k && b.frame == f) = some b) ∧ 2 ≤ b.age ∧ 32768 * k + f ∈
    s.place.filling ∧ (stackOf s k).selfRefresh = false ∧ f < 32768 ∧ mfind s.place.sessions ses = some p ∧ p.mode = 1 ∧ p.left
    = 0 ∧ x ∈ s.place.tileMoves ∧ x.tile = i ∧ x.copyEnd = none := by
  refine ⟨1, 5, 5, 9, M2, st0, (mget {} M2.place.sessions 9), ⟨5,12,0,none⟩, ?_, ?_, ?_, ?_, ?_, ?_, ?_, ?_, ?_, ?_, ?_⟩
    <;> first | with_reducible rfl | decide +kernel

theorem witness_StackerStepsAct_2 : ∃ (t : Nat) (f : Nat) (m : Nat) (seq : Nat) (s : State) (fl : InFlight) (l : List Nat) (w :
    Nat), (s.mbx.flight.find? (fun f => f.mb == m && f.seq == seq) = some fl) ∧ fl.kind = .bufAlloc l w ∧ serving s = true ∧ w +
    10000000 ≤ max s.now t ∧ nextMate s l = none := by
  refine ⟨10000000, 5, 1, 4, C3, fl0, [1], 0, ?_, ?_, ?_, ?_, ?_⟩ <;> first | with_reducible rfl | decide +kernel

/-- A pinned buffer of one page on stack 1 is asked for. -/
def SP := tenAsk { B0 with stks := [(1, wStack)] } 0x600 0 (bq 2000000 8 1)

theorem bases_free (s : State) (r : Nat) (ht : ∀ r i, pageTaken s r i = false) : bases s r 1 1 ≠ [] := fun h => by
  have hm : 0 ∈ bases s r 1 1 := by
    unfold bases
    rw [List.mem_filter]
    exact ⟨List.mem_range.mpr (by omega), by simp [ht]⟩
  rw [h] at hm
  simp at hm

theorem placed_pinned (s : State) (a : AllocReq) (k : Nat) (hn : a.pages s = 1) (hw : a.w s = 1) (hp : a.pinned = true)
    (hk : a.stks = [k]) (hf : freeFrames s k [] ≠ []) (h : s.place.bufs = []) : ∃ s1 b, allocHere s a = some (s1, b) := by
  have ht : ∀ r i, pageTaken s r i = false := fun r i => by simp [pageTaken, bufAt, h]
  have hb : bases s a.owner 1 1 ≠ [] := bases_free s a.owner ht
  obtain ⟨f, h1⟩ : ∃ f, choose s 9 (freeFrames s k []) = some f := ⟨_, choose_some s 9 0 hf⟩
  obtain ⟨i, h2⟩ : ∃ i, choose s 0 (bases s a.owner 1 1) = some i := ⟨_, choose_some s 0 0 hb⟩
  have hg : allocGroup s a 1 [] [] = some [.frame k f] := by simp [allocGroup, hw, hp, hk, groupFrames, h1]
  refine ⟨_, _, (?_ : allocHere s a = allocPlace s a (some [.frame k f]) (some i))⟩
  rw [allocHere, hn, hw, h2, Nat.div_self Nat.one_pos]
  simp only [allocGroups, hg, List.append_nil]

theorem placed_SP : ∃ s1 b, allocHere SP (aq SP) = some (s1, b) :=
  placed_pinned SP (aq SP) 1 (by decide +kernel) (by decide +kernel) (by decide +kernel) (by decide +kernel) (by decide +kernel)
    (by decide +kernel)

theorem witness_AllocationTakesFreePlaces_1 : ∃ (s s1 : State) (q : AllocReq) (b : Buf), allocHere s q = some (s1, b) ∧
    allocBad s q = false ∧ (q.resident = true ∨ q.pinned = true ∨ q.shared = true) := by
  obtain ⟨s1, b, h⟩ := placed_SP
  exact ⟨SP, s1, aq SP, b, h, by decide +kernel, by decide +kernel⟩

theorem witness_BufferCommandsAct_7 : ∃ (t : Nat) (a : MbxArgs) (s s1 : State) (r : Req) (q : AllocReq) (b : Buf),
    allocReq s r.part r.params = q ∧ q.size ≠ 0 ∧ allocBad s q = false ∧ q.pages s ≤ freePages s q.owner ∧
    Accepts (s.clock t) a
      { opcode := 0x600, rights := 2, pkg := .c, partUse := .one, parts := some [.assigned, .running], resp := 16 } {} r ∧
    allocHere s q = some (s1, b) := by
  obtain ⟨s1, b, h⟩ := placed_SP
  exact ⟨0, tenArgs, SP, s1, rq SP, aq SP, b, rfl, by decide +kernel, by decide +kernel,
    by rw [freePages_empty (by decide +kernel)]; decide +kernel, ⟨by decide +kernel, by decide +kernel, by decide +kernel⟩, h⟩

theorem witness_StackerStepsAct_copy : ∃ (k f : Nat) (mi : MemIn) (s : State) (mv : Migration),
    s.place.moves.find? (fun m => m.srcStack == k && m.srcFrame == f && m.endAt.isNone) = some mv ∧ mi.errs = [] ∧
    mv.dstStack ≠ mv.srcStack ∧ (stackOf s k).failed = false := by
  refine ⟨1, 0, {}, M1, mv, ?_, ?_, ?_, ?_⟩ <;> decide +kernel

/-- Spot `q` of die A is hot, every other one cool. -/
def TM (q : Nat) : State := { B0 with
  place := { sessions := [(9, { mode := 0 })] }, tiles := [(5, { movable := true })], tick := { due := some 10000 },
  boot := { B0.boot with tileMap := (List.range 12).map (fun i => (i, i)) },
  cores := (List.range 4).map (fun c => (20 + c, { park := true })),
  heat := { sensors := (List.range 32).map (fun k => (k, { hist := [if k / 2 = q then 900 else 500] })) } }

theorem readings_TM : ∀ q < 16, ∀ r < 16, q ≠ r →
    pairReading ((TM q).clock 5) q = some 900 ∧ pairReading ((TM q).clock 5) r = some 500 := by decide +kernel

/-- Where the package's spots near rows 5 and 12 differ (log 7), a move has its conditions. -/
theorem witness_StackerStepsAct_move (h : Config.nearSpot 5 % 16 ≠ Config.nearSpot 12 % 16) :
    ∃ (t i row : Nat) (s : State), unusedRow s (colOfTile i) = some row ∧ tileMoveOk (s.clock t) i row = true := by
  have hp : ∀ n, Config.nearSpot n % 16 < 16 := fun n => Nat.mod_lt _ (by omega)
  obtain ⟨h1, h2⟩ := readings_TM _ (hp 5) _ (hp 12) h
  refine ⟨5, 5, 12, TM (Config.nearSpot 5 % 16), rfl, ?_⟩
  have e1 : tilePair ((TM (Config.nearSpot 5 % 16)).clock 5) (colOfTile 5) (rowOfTile ((TM (Config.nearSpot 5 % 16)).clock 5) 5)
    = some 900 := by
    refine Eq.trans ?_ h1
    simp [tilePair, colOfTile, show rowOfTile ((TM (Config.nearSpot 5 % 16)).clock 5) 5 = 5 from rfl]
  have e2 : tilePair ((TM (Config.nearSpot 5 % 16)).clock 5) (colOfTile 5) 12 = some 500 := by
    refine Eq.trans ?_ h2
    simp [tilePair, colOfTile]
  unfold tileMoveOk
  simp only [e1, e2]
  rfl

end Sys2Proof.Tests.C08

/-! ## Witnesses: 09 lanes -/

namespace Sys2Proof.Tests.C09
open Sys2Proof.Machine

def B0 : State := { inService [(0, wPart .running)] with fab := { lpt := [0x80, 0x81,0x82] } }
def LL (l : Link) (a : List Lane) (m : MbxArgs → State := fun _ => B0) : State := { B0 with fab := { B0.fab with links := [(3, l)], lanes := a.zipIdx.map (fun e => (9+e.2, e.1)) } }
def zl : Lane := { lstate := .inService, signal := true }
def tl : Link := { state := .training, trainStart := some 0, rxLanes := 0 }
def T1 := LL tl [{lstate := .training, signal := true},{lstate := .training, signal := true},{lstate := .training, signal := true}]
def dl : Link := { state := .down, retryAt := some 7, peerId := 4, attempts := 3 }
def T2 := LL dl [{}, {}, {}]
def ul : Link := { state := .up, rxLanes := 7, txLanes := 7, peerId := 4 }
def T3 (a : Lane := zl) := LL ul [a, zl, zl]
def hh : Nat := ((List.range 4096).map (fun i => sealHdr (i * 16))).find? (fun f => hcrcOk f && hOp f != 0 && hLen f == 0 && !hEnc f && bits f 0 16 != 0xFFFF) |>.getD 0
def z15 : Lane := { zl with winUncorr := 15, belowDrop := 1, rx := some (3,[],2) }
def T4 := LL ul [zl, {zl with signal := false, lostAt := some 0}, {zl with signal := false, lostAt := some 0}]
def zr : Lane := { zl with lstate := .retrain, fails := [1,2] }
def ul2 : Link := { ul with rxLanes := 6 }
def T5 := LL ul2 [zr, zl, zl]
def fl (kind cl body : Nat) : Nat := sealHdr (packBits [(0xFFFF, 16), (kind, 8), (cl, 1), (0, 7), (body, 208)])
def FA (f : Nat) : Lane := { zl with arrived := [{hdr := f}] }
def LF (f : Nat) (l : Link := ul) : State := LL l [FA f, zl, zl]
def st5 := fl 2 0 (packBits [(5,7),(6,7),(5,3)])
def st1 := fl 2 0 (packBits [(5,7),(6,7),(1,3)])
def cr := fl 3 0 (packBits [(70,12),(4095,12),(5,12)])
def ad := fl 4 0 (packBits [(1,2),(2,3),(1,2)])
def ad0 := fl 4 0 (packBits [(1,2),(2,3),(3,2)])
def ulc := { ul with ctrlRun := 1 }
def O (op lane : Nat) := opAsk 0x402 4 (packBits [(op,4),(0,4),(3,7),(0,1),(lane,2)])
def Td := LL { ul with state := .disabled } [{lstate := .disabled}, {lstate := .disabled}, {lstate := .failed}]
def Tq := LL { ul with quarantined := true } [zl, zl, zl]

theorem witness_LanesAndLinksAct_1 : ∃ (t : Nat) (n : Nat) (k : Nat) (i : Nat) (errs : Nat) (heads : Nat) (snr : Nat) (f : Nat)
    (dfe : Int) (m : Int) (s : State) (e : State) (a : Lane) (l : Link), s.clock t = e ∧ n < 213 ∧ n / 3 = k ∧ n % 3 = i ∧
    laneOf s n = a ∧ linkOf s k = l ∧ fabricOn e = true ∧ a.lstate = .inService ∧ errs ≤ 15 ∧ f < 2 ^ 256 ∧ bits f 0 16 ≠ 0xFFFF
    ∧ hcrcOk f = true ∧ hOp f ≠ 0 ∧ hLen f = 0 ∧ hEnc f = false ∧ heads % 2 = 1 ∧ a.rx = none ∧ a.signal = true ∧ (laneOf s (3 *
    k + (i + 1) % 3)).signal = true ∧ l.state = .up ∧ 2 ≤ popcount3 (setBits l.rxLanes i 1 0) ∧ 2 ≤ popcount3 l.txLanes ∧
    a.winAt + 1000000 ≤ max s.now t ∧ -128 ≤ m ∧ m ≤ 127 ∧ snr ≤ 255 ∧ (cfg s 0x26 4 : Int) ≤ m ∧ (cfg s 0x27 4 : Int) ≤ m ∧
    (a.lstate = .inService ∨ a.lstate = .retrain) ∧ -128 ≤ dfe ∧ dfe ≤ 127 := by
  refine ⟨2000000, 9, 3, 0, 3, 1, 20, hh, 3, 20, T3, (T3.clock 2000000), zl, ul, ?_, ?_, ?_, ?_, ?_, ?_, ?_, ?_, ?_, ?_, ?_, ?_,
    ?_, ?_, ?_, ?_, ?_, ?_, ?_, ?_, ?_, ?_, ?_, ?_, ?_, ?_, ?_, ?_, ?_, ?_, ?_⟩ <;> first | with_reducible rfl | decide +kernel

theorem witness_LanesAndLinksAct_2 : ∃ (t : Nat) (n : Nat) (k : Nat) (i : Nat) (f : Nat) (s : State) (e : State) (a : Lane) (l :
    Link), s.clock t = e ∧ n < 213 ∧ n / 3 = k ∧ n % 3 = i ∧ laneOf s n = a ∧ linkOf s k = l ∧ fabricOn e = true ∧ l.state =
    .down ∧ l.retryAt = some f ∧ f ≤ max s.now t ∧ s.fab.loopAt + 10000000000 ≤ max s.now t := by
  refine ⟨10000000000, 9, 3, 0, 7, T2, (T2.clock 10000000000), {}, dl, ?_, ?_, ?_, ?_, ?_, ?_, ?_, ?_, ?_, ?_, ?_⟩
    <;> first | with_reducible rfl | decide +kernel

theorem witness_LanesAndLinksAct_3 : ∃ (t : Nat) (n : Nat) (k : Nat) (i : Nat) (errs : Nat) (snr : Nat) (m : Int) (s : State) (e
    : State) (a : Lane) (l : Link), s.clock t = e ∧ n < 213 ∧ n / 3 = k ∧ n % 3 = i ∧ laneOf s n = a ∧ linkOf s k = l ∧ fabricOn
    e = true ∧ a.lstate = .inService ∧ 15 < errs ∧ (15 ≤ a.winUncorr ∨ 7 ≤ a.runUncorr) ∧ l.state = .up ∧ 2 ≤ popcount3 (setBits
    l.rxLanes i 1 0) ∧ 2 ≤ popcount3 l.txLanes ∧ a.winAt + 1000000 ≤ max s.now t ∧ -128 ≤ m ∧ m ≤ 127 ∧ snr ≤ 255 ∧ m < (cfg s
    0x27 4 : Int) ∧ a.belowDrop = 1 := by
  refine ⟨2000000, 9, 3, 0, 16, 20, 1, (T3 z15), ((T3 z15).clock 2000000), z15, ul, ?_, ?_, ?_, ?_, ?_, ?_, ?_, ?_, ?_, ?_,
    ?_, ?_, ?_, ?_, ?_, ?_, ?_, ?_, ?_⟩ <;> first | with_reducible rfl | decide +kernel

theorem witness_LanesAndLinksAct_4 : ∃ (t : Nat) (n : Nat) (k : Nat) (i : Nat) (errs : Nat) (s : State) (e : State) (a : Lane)
    (l : Link), s.clock t = e ∧ n < 213 ∧ n / 3 = k ∧ n % 3 = i ∧ laneOf s n = a ∧ linkOf s k = l ∧ fabricOn e = true ∧ a.lstate
    = .inService ∧ 15 < errs ∧ a.winUncorr + 1 < 16 ∧ a.runUncorr + 1 < 8 ∧ a.rx = none ∧ a.signal = true ∧ l.state ≠ .disabled
    ∧ l.state ≠ .lost ∧ (∀ j < 3, j ≠ i → (laneOf s (3 * k + j)).signal = false ∧ ∃ w, (laneOf s (3 * k + j)).lostAt = some w ∧
    max s.now t ≤ w + 2000) := by
  refine ⟨2000, 9, 3, 0, 16, T4, (T4.clock 2000), zl, ul, ?_, ?_, ?_, ?_, ?_, ?_, ?_, ?_, ?_, ?_, ?_, ?_, ?_, ?_, ?_, ?_⟩
    <;> first | with_reducible rfl | decide +kernel

theorem witness_LanesAndLinksAct_5 : ∃ (t : Nat) (n : Nat) (k : Nat) (i : Nat) (s : State) (e : State) (a : Lane) (l : Link),
    s.clock t = e ∧ n < 213 ∧ n / 3 = k ∧ n % 3 = i ∧ laneOf s n = a ∧ linkOf s k = l ∧ fabricOn e = true ∧ a.signal = false ∧
    l.state = .lost := by
  refine ⟨2000000, 9, 3, 0, (LL { state := .lost } [{}, {}, {}]), ((LL { state := .lost } [{}, {}, {}]).clock 2000000), {},
    { state := .lost }, ?_, ?_, ?_, ?_, ?_, ?_, ?_, ?_, ?_⟩ <;> first | with_reducible rfl | decide +kernel

theorem witness_LanesAndLinksAct_6 : ∃ (t : Nat) (n : Nat) (k : Nat) (i : Nat) (s : State) (e : State) (a : Lane) (l : Link),
    s.clock t = e ∧ n < 213 ∧ n / 3 = k ∧ n % 3 = i ∧ laneOf s n = a ∧ linkOf s k = l ∧ fabricOn e = true ∧ a.signal = false ∧
    (l.state = .up ∨ l.state = .degraded ∨ l.state = .training ∨ l.state = .disabled) := by
  refine ⟨2000000, 9, 3, 0, (LL { state := .up } [{}, {}, {}]), ((LL { state := .up } [{}, {}, {}]).clock 2000000), {},
    { state := .up }, ?_, ?_, ?_, ?_, ?_, ?_, ?_, ?_, ?_⟩ <;> first | with_reducible rfl | decide +kernel

theorem witness_LanesAndLinksAct_7 : ∃ (t : Nat) (n : Nat) (k : Nat) (i : Nat) (pos : Nat) (link : Nat) (s : State) (e : State)
    (a : Lane) (l : Link), s.clock t = e ∧ n < 213 ∧ n / 3 = k ∧ n % 3 = i ∧ laneOf s n = a ∧ linkOf s k = l ∧ fabricOn e = true
    ∧ l.state = .training ∧ (pos ≠ farEnd s k ∨ link ≠ 70 - k) := by
  refine ⟨2000000, 9, 3, 0, 5, 67, T1, (T1.clock 2000000), {lstate := .training, signal := true}, tl, ?_, ?_, ?_, ?_, ?_, ?_,
    ?_, ?_, ?_⟩ <;> first | with_reducible rfl | decide +kernel

theorem witness_LanesAndLinksAct_8 : ∃ (t : Nat) (n : Nat) (k : Nat) (i : Nat) (pos : Nat) (link : Nat) (far : Nat) (m0 : Int)
    (m1 : Int) (m2 : Int) (ix : List Nat) (ms : List (Option Int)) (s : State) (e : State) (a : Lane) (l : Link), s.clock t = e
    ∧ n < 213 ∧ n / 3 = k ∧ n % 3 = i ∧ laneOf s n = a ∧ linkOf s k = l ∧ fabricOn e = true ∧ l.state = .training ∧ pos = farEnd
    s k ∧ link = 70 - k ∧ (∃ w, l.trainStart = some w ∧ max s.now t ≤ w + 12000000000) ∧ ix = [0, 1, 2] ∧ ms = [some m0, some
    m1, some m2] ∧ (cfg s 0x28 4 : Int) ≤ m0 ∧ (cfg s 0x28 4 : Int) ≤ m1 ∧ (cfg s 0x28 4 : Int) ≤ m2 ∧ far % 8 = 7 ∧ (∀ j < 3,
    (laneOf s (3 * k + j)).lstate ≠ .failed ∧ (laneOf s (3 * k + j)).lstate ≠ .disabled) := by
  refine ⟨2000000, 9, 3, 0, 4, 67, 7, 20, 20, 20, [0,1,2], [some 20, some 20, some 20], T1, (T1.clock 2000000),
    {lstate := .training, signal := true}, tl, ?_, ?_, ?_, ?_, ?_, ?_, ?_, ?_, ?_, ?_, ?_, ?_, ?_, ?_, ?_, ?_, ?_, ?_⟩
    <;> first | with_reducible rfl | decide +kernel

theorem witness_LanesAndLinksAct_9 : ∃ (t : Nat) (n : Nat) (k : Nat) (i : Nat) (pos : Nat) (link : Nat) (far : Nat) (s : State)
    (e : State) (a : Lane) (l : Link), s.clock t = e ∧ n < 213 ∧ n / 3 = k ∧ n % 3 = i ∧ laneOf s n = a ∧ linkOf s k = l ∧
    fabricOn e = true ∧ l.state = .training ∧ pos = farEnd s k ∧ link = 70 - k ∧ far % 8 = 0 := by
  refine ⟨2000000, 9, 3, 0, 4, 67, 0, T1, (T1.clock 2000000), {lstate := .training, signal := true}, tl, ?_, ?_, ?_, ?_, ?_, ?_,
    ?_, ?_, ?_, ?_, ?_⟩ <;> first | with_reducible rfl | decide +kernel

theorem witness_LanesAndLinksAct_10 : ∃ (t : Nat) (n : Nat) (k : Nat) (i : Nat) (peer : Nat) (m : Int) (s : State) (e : State)
    (a : Lane) (l : Link), s.clock t = e ∧ n < 213 ∧ n / 3 = k ∧ n % 3 = i ∧ laneOf s n = a ∧ linkOf s k = l ∧ fabricOn e = true
    ∧ a.lstate = .retrain ∧ peer = l.peerId ∧ (cfg s 0x28 4 : Int) ≤ m ∧ m ≤ 127 ∧ -128 ≤ m ∧ (l.state = .up ∨ l.state =
    .degraded ∨ l.state = .down) ∧ 2 ≤ popcount3 (setBits l.rxLanes i 1 1) ∧ 2 ≤ popcount3 l.txLanes := by
  refine ⟨2000, 9, 3, 0, 4, 20, T5, (T5.clock 2000), zr, ul2, ?_, ?_, ?_, ?_, ?_, ?_, ?_, ?_, ?_, ?_, ?_, ?_, ?_, ?_, ?_⟩
    <;> first | with_reducible rfl | decide +kernel

theorem witness_LanesAndLinksAct_11 : ∃ (t : Nat) (n : Nat) (k : Nat) (i : Nat) (peer : Nat) (s : State) (e : State) (a : Lane)
    (l : Link), s.clock t = e ∧ n < 213 ∧ n / 3 = k ∧ n % 3 = i ∧ laneOf s n = a ∧ linkOf s k = l ∧ fabricOn e = true ∧ a.lstate
    = .retrain ∧ peer ≠ l.peerId := by
  refine ⟨2000, 9, 3, 0, 5, T5, (T5.clock 2000), zr, ul2, ?_, ?_, ?_, ?_, ?_, ?_, ?_, ?_, ?_⟩
    <;> first | with_reducible rfl | decide +kernel

theorem witness_LanesAndLinksAct_12 : ∃ (t : Nat) (n : Nat) (k : Nat) (i : Nat) (peer : Nat) (m : Int) (s : State) (e : State)
    (a : Lane) (l : Link), s.clock t = e ∧ n < 213 ∧ n / 3 = k ∧ n % 3 = i ∧ laneOf s n = a ∧ linkOf s k = l ∧ fabricOn e = true
    ∧ a.lstate = .retrain ∧ peer = l.peerId ∧ m < (cfg s 0x28 4 : Int) := by
  refine ⟨2000, 9, 3, 0, 4, 2, T5, (T5.clock 2000), zr, ul2, ?_, ?_, ?_, ?_, ?_, ?_, ?_, ?_, ?_, ?_⟩
    <;> first | with_reducible rfl | decide +kernel

theorem witness_LinkFlitsAct_1 : ∃ (t : Nat) (n : Nat) (k : Nat) (f : Nat) (p : Pkt) (s : State) (e : State) (e2 : State) (a :
    Lane) (b : Lane) (l : Link) (l2 : Link), s.clock t = e ∧ n < 213 ∧ n / 3 = k ∧ laneOf s n = a ∧ linkOf s k = l ∧ flitHead s
    n = some p ∧ p.hdr = f ∧ hcrcOk f = true ∧ { a with arrived := a.arrived.erase p } = b ∧
    { l with ctrlRun := 0, ctrlLost := false } = l2 ∧ setLink (setLane e n b) k l2 = e2 ∧ bit f 24 = false ∧ bits f 16 8 = 1 :=
    by
  refine ⟨2000, 9, 3, (fl 1 0 0), ⟨fl 1 0 0, []⟩, (LF (fl 1 0 0)), ((LF (fl 1 0 0)).clock 2000), (setLink (setLane ((LF (fl 1 0
    0)).clock 2000) 9 zl) 3 ul), (FA (fl 1 0 0)), zl, ul, ul, ?_, ?_, ?_, ?_, ?_, ?_, ?_, ?_, ?_, ?_, ?_, ?_, ?_⟩
    <;> first | with_reducible rfl | decide +kernel

theorem witness_LinkFlitsAct_2 : ∃ (t : Nat) (n : Nat) (k : Nat) (f : Nat) (p : Pkt) (s : State) (e : State) (e2 : State) (a :
    Lane) (b : Lane) (l : Link) (l2 : Link), s.clock t = e ∧ n < 213 ∧ n / 3 = k ∧ laneOf s n = a ∧ linkOf s k = l ∧ flitHead s
    n = some p ∧ p.hdr = f ∧ hcrcOk f = true ∧ { a with arrived := a.arrived.erase p } = b ∧
    { l with ctrlRun := 0, ctrlLost := false } = l2 ∧ setLink (setLane e n b) k l2 = e2 ∧ bit f 24 = false ∧ bits f 16 8 = 2 ∧
    (l.state = .up ∨ l.state = .degraded ∨ l.state = .down) ∧ 2 ≤ popcount3 l.rxLanes ∧ 2 ≤ popcount3 (bits f 46 3) := by
  refine ⟨2000, 9, 3, st5, ⟨st5, []⟩, (LF st5), ((LF st5).clock 2000), (setLink (setLane ((LF st5).clock 2000) 9 zl) 3 ul), (FA
    st5), zl, ul, ul, ?_, ?_, ?_, ?_, ?_, ?_, ?_, ?_, ?_, ?_, ?_, ?_, ?_, ?_, ?_, ?_⟩
    <;> first | with_reducible rfl | decide +kernel

theorem witness_LinkFlitsAct_3 : ∃ (t : Nat) (n : Nat) (k : Nat) (f : Nat) (p : Pkt) (s : State) (e : State) (e2 : State) (a :
    Lane) (b : Lane) (l : Link) (l2 : Link), s.clock t = e ∧ n < 213 ∧ n / 3 = k ∧ laneOf s n = a ∧ linkOf s k = l ∧ flitHead s
    n = some p ∧ p.hdr = f ∧ hcrcOk f = true ∧ { a with arrived := a.arrived.erase p } = b ∧
    { l with ctrlRun := 0, ctrlLost := false } = l2 ∧ setLink (setLane e n b) k l2 = e2 ∧ bit f 24 = false ∧ bits f 16 8 = 2 ∧
    (l.state = .up ∨ l.state = .degraded) ∧ popcount3 (bits f 46 3) < 2 ∧ noneInService s k = false := by
  refine ⟨2000, 9, 3, st1, ⟨st1, []⟩, (LF st1), ((LF st1).clock 2000), (setLink (setLane ((LF st1).clock 2000) 9 zl) 3 ul), (FA
    st1), zl, ul, ul, ?_, ?_, ?_, ?_, ?_, ?_, ?_, ?_, ?_, ?_, ?_, ?_, ?_, ?_, ?_, ?_⟩
    <;> first | with_reducible rfl | decide +kernel

theorem witness_LinkFlitsAct_4 : ∃ (t : Nat) (n : Nat) (k : Nat) (f : Nat) (p : Pkt) (s : State) (e : State) (e2 : State) (a :
    Lane) (b : Lane) (l : Link) (l2 : Link), s.clock t = e ∧ n < 213 ∧ n / 3 = k ∧ laneOf s n = a ∧ linkOf s k = l ∧ flitHead s
    n = some p ∧ p.hdr = f ∧ hcrcOk f = true ∧ { a with arrived := a.arrived.erase p } = b ∧
    { l with ctrlRun := 0, ctrlLost := false } = l2 ∧ setLink (setLane e n b) k l2 = e2 ∧ bit f 24 = false ∧ bits f 16 8 = 3 :=
    by
  refine ⟨2000, 9, 3, cr, ⟨cr, []⟩, (LF cr), ((LF cr).clock 2000), (setLink (setLane ((LF cr).clock 2000) 9 zl) 3 ul), (FA cr),
    zl, ul, ul, ?_, ?_, ?_, ?_, ?_, ?_, ?_, ?_, ?_, ?_, ?_, ?_, ?_⟩ <;> first | with_reducible rfl | decide +kernel

theorem witness_LinkFlitsAct_5 : ∃ (t : Nat) (n : Nat) (k : Nat) (f : Nat) (v : Nat) (tap : Nat) (j : Nat) (m : Nat) (p : Pkt)
    (s : State) (e : State) (e2 : State) (a : Lane) (b : Lane) (l : Link) (l2 : Link), s.clock t = e ∧ n < 213 ∧ n / 3 = k ∧
    laneOf s n = a ∧ linkOf s k = l ∧ flitHead s n = some p ∧ p.hdr = f ∧ hcrcOk f = true ∧
    { a with arrived := a.arrived.erase p } = b ∧ { l with ctrlRun := 0, ctrlLost := false } = l2 ∧ setLink (setLane e n b) k l2
    = e2 ∧ bit f 24 = false ∧ bits f 16 8 = 4 ∧ bits f 32 2 = j ∧ j < 3 ∧ 3 * k + j = m ∧ bits f 34 3 = tap ∧ tap ≤ 4 ∧ bits f
    37 2 = v ∧ (v = 1 ∨ v = 2) ∧ (laneOf s m).taps.length = 5 ∧ (∀ w, mfind (laneOf s m).tapAt tap = some w → w + 1000000 ≤ max
    s.now t) := by
  refine ⟨2000, 9, 3, ad, 1, 2, 1, 10, ⟨ad, []⟩, (LF ad), ((LF ad).clock 2000), (setLink (setLane ((LF ad).clock 2000) 9 zl) 3
    ul), (FA ad), zl, ul, ul, ?_, ?_, ?_, ?_, ?_, ?_, ?_, ?_, ?_, ?_, ?_, ?_, ?_, ?_, ?_, ?_, ?_, ?_, ?_, ?_, ?_, ?_⟩
    <;> first | with_reducible rfl | decide +kernel

theorem witness_LinkFlitsAct_6 : ∃ (t : Nat) (n : Nat) (k : Nat) (f : Nat) (p : Pkt) (s : State) (e : State) (e2 : State) (a :
    Lane) (b : Lane) (l : Link) (l2 : Link), s.clock t = e ∧ n < 213 ∧ n / 3 = k ∧ laneOf s n = a ∧ linkOf s k = l ∧ flitHead s
    n = some p ∧ p.hdr = f ∧ hcrcOk f = true ∧ { a with arrived := a.arrived.erase p } = b ∧
    { l with ctrlRun := 0, ctrlLost := false } = l2 ∧ setLink (setLane e n b) k l2 = e2 ∧ bit f 24 = false ∧ bits f 16 8 = 4 ∧
    (bits f 37 2 = 0 ∨ bits f 37 2 = 3 ∨ 4 < bits f 34 3 ∨ bits f 32 2 = 3) := by
  refine ⟨2000, 9, 3, ad0, ⟨ad0, []⟩, (LF ad0), ((LF ad0).clock 2000), (setLink (setLane ((LF ad0).clock 2000) 9 zl) 3 ul), (FA
    ad0), zl, ul, ul, ?_, ?_, ?_, ?_, ?_, ?_, ?_, ?_, ?_, ?_, ?_, ?_, ?_, ?_⟩ <;> first | with_reducible rfl | decide +kernel

theorem witness_LinkFlitsAct_7 : ∃ (t : Nat) (n : Nat) (k : Nat) (f : Nat) (p : Pkt) (s : State) (e : State) (e2 : State) (a :
    Lane) (b : Lane) (l : Link) (l2 : Link), s.clock t = e ∧ n < 213 ∧ n / 3 = k ∧ laneOf s n = a ∧ linkOf s k = l ∧ flitHead s
    n = some p ∧ p.hdr = f ∧ hcrcOk f = true ∧ { a with arrived := a.arrived.erase p } = b ∧
    { l with ctrlRun := 0, ctrlLost := false } = l2 ∧ setLink (setLane e n b) k l2 = e2 ∧ bit f 24 = true ∧ bits f 16 8 = 1 ∧
    l.ctrlRun = 0 ∧ l.ctrlLost = false := by
  refine ⟨2000, 9, 3, (fl 1 1 0), ⟨fl 1 1 0, []⟩, (LF (fl 1 1 0)), ((LF (fl 1 1 0)).clock 2000), (setLink (setLane ((LF (fl 1 1
    0)).clock 2000) 9 zl) 3 ul), (FA (fl 1 1 0)), zl, ul, ul, ?_, ?_, ?_, ?_, ?_, ?_, ?_, ?_, ?_, ?_, ?_, ?_, ?_, ?_, ?_⟩
    <;> first | with_reducible rfl | decide +kernel

theorem witness_LinkFlitsAct_8 : ∃ (t : Nat) (n : Nat) (k : Nat) (f : Nat) (p : Pkt) (s : State) (e : State) (e2 : State) (a :
    Lane) (b : Lane) (l : Link) (l2 : Link), s.clock t = e ∧ n < 213 ∧ n / 3 = k ∧ laneOf s n = a ∧ linkOf s k = l ∧ flitHead s
    n = some p ∧ p.hdr = f ∧ hcrcOk f = true ∧ { a with arrived := a.arrived.erase p } = b ∧
    { l with ctrlRun := 0, ctrlLost := false } = l2 ∧ setLink (setLane e n b) k l2 = e2 ∧ bit f 24 = true ∧ bits f 16 8 = 1 ∧ 1
    ≤ l.ctrlRun := by
  refine ⟨2000, 9, 3, (fl 1 1 0), ⟨fl 1 1 0, []⟩, (LF (fl 1 1 0) ulc), ((LF (fl 1 1 0) ulc).clock 2000), (setLink (setLane ((LF
    (fl 1 1 0) ulc).clock 2000) 9 zl) 3 ul), (FA (fl 1 1 0)), zl, ulc, ul, ?_, ?_, ?_, ?_, ?_, ?_, ?_, ?_, ?_, ?_, ?_, ?_,
    ?_, ?_⟩ <;> first | with_reducible rfl | decide +kernel

theorem witness_FabricLinkCommandsAct_1 : ∃ (t : Nat) (k : Nat) (n : Nat) (a : MbxArgs) (s : State) (e : State) (r : Req), take
    (s.clock t) a.mb = e ∧ r.f 8 7 = k ∧ k ≤ 70 ∧ r.f 16 2 < 3 ∧ 3 * k + r.f 16 2 = n ∧ Accepts (s.clock t) a
    { opcode := 0x0402, rights := 1, pkg := .uc, partUse := .pkg } {} r ∧ r.f 0 4 = 0 ∧ (linkOf s k).state ≠ .disabled := by
  refine ⟨5, 3, 9, (O 0 0), T3, (take (T3.clock 5) (O 0 0).mb), (asked T3 (O 0 0)), ?_, ?_, ?_, ?_, ?_, ⟨?_, ?_, ?_⟩, ?_, ?_⟩
    <;> first | with_reducible rfl | decide +kernel

theorem witness_FabricLinkCommandsAct_2 : ∃ (t : Nat) (k : Nat) (n : Nat) (a : MbxArgs) (s : State) (e : State) (r : Req), take
    (s.clock t) a.mb = e ∧ r.f 8 7 = k ∧ k ≤ 70 ∧ r.f 16 2 < 3 ∧ 3 * k + r.f 16 2 = n ∧ Accepts (s.clock t) a
    { opcode := 0x0402, rights := 1, pkg := .uc, partUse := .pkg } {} r ∧ r.f 0 4 = 1 ∧ (linkOf s k).state = .disabled ∧ (∀ j <
    3, (laneOf s (3 * k + j)).signal = false) := by
  refine ⟨5, 3, 9, (O 1 0), Td, (take (Td.clock 5) (O 1 0).mb), (asked Td (O 1 0)), ?_, ?_, ?_, ?_, ?_, ⟨?_, ?_, ?_⟩, ?_, ?_, ?_⟩
    <;> first | with_reducible rfl | decide +kernel

theorem witness_FabricLinkCommandsAct_3 : ∃ (t : Nat) (k : Nat) (n : Nat) (a : MbxArgs) (s : State) (e : State) (r : Req), take
    (s.clock t) a.mb = e ∧ r.f 8 7 = k ∧ k ≤ 70 ∧ r.f 16 2 < 3 ∧ 3 * k + r.f 16 2 = n ∧ Accepts (s.clock t) a
    { opcode := 0x0402, rights := 1, pkg := .uc, partUse := .pkg } {} r ∧ r.f 0 4 = 2 ∧ (linkOf s k).state ≠ .disabled := by
  refine ⟨5, 3, 9, (O 2 0), T3, (take (T3.clock 5) (O 2 0).mb), (asked T3 (O 2 0)), ?_, ?_, ?_, ?_, ?_, ⟨?_, ?_, ?_⟩, ?_, ?_⟩
    <;> first | with_reducible rfl | decide +kernel

theorem witness_FabricLinkCommandsAct_4 : ∃ (t : Nat) (k : Nat) (n : Nat) (a : MbxArgs) (s : State) (e : State) (r : Req), take
    (s.clock t) a.mb = e ∧ r.f 8 7 = k ∧ k ≤ 70 ∧ r.f 16 2 < 3 ∧ 3 * k + r.f 16 2 = n ∧ Accepts (s.clock t) a
    { opcode := 0x0402, rights := 1, pkg := .uc, partUse := .pkg } {} r ∧ r.f 0 4 = 3 ∧ (linkOf s k).quarantined = true := by
  refine ⟨5, 3, 9, (O 3 0), Tq, (take (Tq.clock 5) (O 3 0).mb), (asked Tq (O 3 0)), ?_, ?_, ?_, ?_, ?_, ⟨?_, ?_, ?_⟩, ?_, ?_⟩
    <;> first | with_reducible rfl | decide +kernel

theorem witness_FabricLinkCommandsAct_5 : ∃ (t : Nat) (k : Nat) (n : Nat) (a : MbxArgs) (s : State) (e : State) (r : Req), take
    (s.clock t) a.mb = e ∧ r.f 8 7 = k ∧ k ≤ 70 ∧ r.f 16 2 < 3 ∧ 3 * k + r.f 16 2 = n ∧ Accepts (s.clock t) a
    { opcode := 0x0402, rights := 1, pkg := .uc, partUse := .pkg } {} r ∧ r.f 0 4 = 4 ∧ (laneOf s n).lstate = .inService := by
  refine ⟨5, 3, 9, (O 4 0), T3, (take (T3.clock 5) (O 4 0).mb), (asked T3 (O 4 0)), ?_, ?_, ?_, ?_, ?_, ⟨?_, ?_, ?_⟩, ?_, ?_⟩
    <;> first | with_reducible rfl | decide +kernel

theorem witness_FabricLinkCommandsAct_6 : ∃ (t : Nat) (k : Nat) (n : Nat) (a : MbxArgs) (s : State) (e : State) (r : Req), take
    (s.clock t) a.mb = e ∧ r.f 8 7 = k ∧ k ≤ 70 ∧ r.f 16 2 < 3 ∧ 3 * k + r.f 16 2 = n ∧ Accepts (s.clock t) a
    { opcode := 0x0402, rights := 1, pkg := .uc, partUse := .pkg } {} r ∧ r.f 0 4 = 4 ∧ (laneOf s n).lstate ≠ .inService ∧
    (laneOf s n).lstate ≠ .disabled := by
  refine ⟨5, 3, 9, (O 4 0), T5, (take (T5.clock 5) (O 4 0).mb), (asked T5 (O 4 0)), ?_, ?_, ?_, ?_, ?_, ⟨?_, ?_, ?_⟩, ?_, ?_, ?_⟩
    <;> first | with_reducible rfl | decide +kernel

theorem witness_FabricLinkCommandsAct_7 : ∃ (t : Nat) (k : Nat) (n : Nat) (a : MbxArgs) (s : State) (e : State) (r : Req), take
    (s.clock t) a.mb = e ∧ r.f 8 7 = k ∧ k ≤ 70 ∧ r.f 16 2 < 3 ∧ 3 * k + r.f 16 2 = n ∧ Accepts (s.clock t) a
    { opcode := 0x0402, rights := 1, pkg := .uc, partUse := .pkg } {} r ∧ r.f 0 4 = 5 ∧ ((laneOf s n).lstate = .disabled ∨
    (laneOf s n).lstate = .failed) := by
  refine ⟨5, 3, 9, (O 5 0), Td, (take (Td.clock 5) (O 5 0).mb), (asked Td (O 5 0)), ?_, ?_, ?_, ?_, ?_, ⟨?_, ?_, ?_⟩, ?_, ?_⟩
    <;> first | with_reducible rfl | decide +kernel

theorem witness_FabricLinkCommandsAct_8 : ∃ (t : Nat) (k : Nat) (n : Nat) (a : MbxArgs) (s : State) (e : State) (r : Req), take
    (s.clock t) a.mb = e ∧ r.f 8 7 = k ∧ k ≤ 70 ∧ r.f 16 2 < 3 ∧ 3 * k + r.f 16 2 = n ∧ Accepts (s.clock t) a
    { opcode := 0x0403, rights := 1, pkg := .any, partUse := .pkg, resp := 6816 } {} r := by
  refine ⟨5, 3, 9, (opAsk 0x403 4 0x300), T3, (take (T3.clock 5) (opAsk 0x403 4 0x300).mb), (asked T3 (opAsk 0x403 4 0x300)),
    ?_, ?_, ?_, ?_, ?_, ⟨?_, ?_, ?_⟩⟩ <;> first | with_reducible rfl | decide +kernel

theorem witness_FabricLinkCommandsAct_9 : ∃ (t : Nat) (k : Nat) (n : Nat) (a : MbxArgs) (s : State) (e : State) (r : Req), take
    (s.clock t) a.mb = e ∧ r.f 8 7 = k ∧ k ≤ 70 ∧ r.f 16 2 < 3 ∧ 3 * k + r.f 16 2 = n ∧ Accepts (s.clock t) a
    { opcode := 0x0404, rights := 1, pkg := .any, partUse := .pkg, resp := 1136 } {} r := by
  refine ⟨5, 3, 9, (opAsk 0x404 4 0x300), T3, (take (T3.clock 5) (opAsk 0x404 4 0x300).mb), (asked T3 (opAsk 0x404 4 0x300)),
    ?_, ?_, ?_, ?_, ?_, ⟨?_, ?_, ?_⟩⟩ <;> first | with_reducible rfl | decide +kernel

theorem witness_FabricLinkCommandsAct_10 : ∃ (t : Nat) (k : Nat) (n : Nat) (a : MbxArgs) (s : State) (e : State) (r : Req), take
    (s.clock t) a.mb = e ∧ r.f 8 7 = k ∧ k ≤ 70 ∧ r.f 16 2 < 3 ∧ 3 * k + r.f 16 2 = n ∧ Accepts (s.clock t) a
    { opcode := 0x0405, rights := 1, pkg := .any, partUse := .pkg, resp := 4544 } {} r := by
  refine ⟨5, 3, 9, (opAsk 0x405 4 0x300), T3, (take (T3.clock 5) (opAsk 0x405 4 0x300).mb), (asked T3 (opAsk 0x405 4 0x300)),
    ?_, ?_, ?_, ?_, ?_, ⟨?_, ?_, ?_⟩⟩ <;> first | with_reducible rfl | decide +kernel

theorem witness_FabricLinkCommandsAct_11 : ∃ (t : Nat) (k : Nat) (n : Nat) (a : MbxArgs) (s : State) (e : State) (r : Req), take
    (s.clock t) a.mb = e ∧ r.f 8 7 = k ∧ k ≤ 70 ∧ r.f 16 2 < 3 ∧ 3 * k + r.f 16 2 = n ∧ Accepts (s.clock t) a
    { opcode := 0x0406, rights := 3, pkg := .any, partUse := .one, resp := 32 } {} r := by
  refine ⟨5, 3, 9, (opAsk 0x406 0 0x300), T3, (take (T3.clock 5) (opAsk 0x406 0 0x300).mb), (asked T3 (opAsk 0x406 0 0x300)),
    ?_, ?_, ?_, ?_, ?_, ⟨?_, ?_, ?_⟩⟩ <;> first | with_reducible rfl | decide +kernel

end Sys2Proof.Tests.C09

/-! ## Witnesses: 10 packets -/

namespace Sys2Proof.Tests.C10
open Sys2Proof.Machine

def B0 : State := { inService [(0, wPart .running)] with fab := { lpt := [0x80, 0x81,0x82] } }
def zl : Lane := { lstate := .inService, signal := true }
def ul : Link := { state := .up, rxLanes := 7, txLanes := 7 }
def B1 (l0 : Link := ul) (arr : List Pkt := []) : State := { B0 with fab := { B0.fab with links := [(0, l0), (1, ul)], lanes := [(0, { zl with arrived := arr }), (1, zl), (2, zl)] } }
def zr : OutReq := { ep := 0, seq := 0, kind := .write, dest := 1, part := 0, bytes := 0, owner := .copy 0, at_ := 0, limit := 0 }
def zp : Pkt := ⟨0, []⟩
def za : HeldAck := ⟨5, 1030, 1, [7], true, 0, 0, 0⟩
def W1 := mkPkt B0 { op := 1, vc := 2, destPos := 1, destEid := 1029, srcEid := 0, operand := 32, addr := 64 } (List.replicate 32 7)
def inj (p : Pkt) : State := let s := B1; { s with fab := { s.fab with inject := [(p, 0)], reqs := [zr], acks := [za] } }
def rs (p : Pkt) := (restamp (inj p) p).getD zp
def W9 := mkPkt B0 { op := 1, vc := 2, destPos := 1, destEid := 9*1024, srcEid := 0, operand := 32, addr := 64 } (List.replicate 32 7)
def ulq : Link := { ul with queue := [⟨W1, 0, none, 0⟩] }
def sq := B1 ulq
def pk := (pickVc (sq.clock 5000) (touch (sq.clock 5000) ulq)).getD (0, {})
def ula : Link := { ulq with since := [(2, 0)] }
def F1 := mkPkt { B0 with boot := { B0.boot with posId := 1 } } { op := 1, vc := 2, route := 1, via := 0, destPos := 2, destEid := 2048, srcEid := 1024, operand := 32, addr := 64 } (List.replicate 32 7)
def F2 := mkPkt { B0 with boot := { B0.boot with posId := 1 } } { op := 1, vc := 2, route := 1, via := 0, destPos := 9, destEid := 2048, srcEid := 1024, operand := 32, addr := 64 } (List.replicate 32 7)
def za2 : HeldAck := ⟨5, 1030, 1, [7,9], true, 0, 0, 0⟩
def sa : State := let s := B1; { s with fab := { s.fab with acks := [za2] } }
def mk1 (h : Hdr) (pay : List Byte) := mkPkt { B0 with boot := { B0.boot with posId := 1 } } { h with destPos := 0, srcEid := if h.srcEid = 0 then 1024 else h.srcEid } pay
def S1 (p : Pkt) (f : State → State := id) : State := f (B1 ul [p])
def tk (s : State) (p : Pkt) : State := let e := s.clock 5; let h := p.hdr; freeFlits (countRx (popLane e 0) 0 h) 0 (pairOf h) (pktFlits h)
def jb (s : State) : State := { s with sess := { s.sess with parts := [(0, { wPart .running with jobs := [9], defaultJob := 9 })] }, place := { bufs := [(4, ⟨77,9,0,2,1,0x200000,5000,0,[.frame 1 5]⟩)] }, stks := [(0,wStack),(1, wStack)] }
def w1 := mk1 { op := 1, vc := 2, destEid := 5, job := 9, operand := 30, addr := 64, dcc := true, cc := 3 } (List.replicate 30 7)
def T1 := S1 w1 jb
def w3 := mk1 { op := 1, vc := 3, destEid := 340, operand := 30, addr := 0x200000 } (List.replicate 30 7)
def jbs (s : State) : State := let s := jb s; { s with place := { bufs := [(4, ⟨77,9,0,6,1,0x200000,5000,0,[.frame 1 5]⟩)] } }
def T3 := S1 w3 jbs
def L3 := landMem (tk T3 w3) 2 0x200000 ((clearPay w3 none).take 30) none {}
def r1 (n : Nat) := mk1 { op := 2, vc := 2, destEid := 5, job := 9, operand := n, addr := 64 } []
def r3 := mk1 { op := 2, vc := 3, destEid := 340, operand := 10, addr := 0x200000 } []
def R3 := maRead (tk (S1 r3 jbs) r3) 2 0x200000 10 {}
def y (op job : Nat) := mk1 { op := op, vc := 0, destEid := 5, job := job, operand := 10, cc := 5 } []
def fe (s : State) : State := let s := jb s; { s with sess := { s.sess with parts := [(0, { wPart .fenced with jobs := [9] })] } }
def gb (a : Nat) : Nat := packBits [(0,64),(288,16),(0,2),(8,4),(0,2),(0,48),(0,48),(0,48),(a,48),(0,16),(64,32)]
def g1 (a : Nat) := mk1 { op := 8, vc := 4, destEid := 288 } (leBytes 64 (gb a))
def tr : Pkt := { hdr := sealHdr (packBits [(0,8),(2,3)]), pay := List.replicate 32 0 }
def ab (j : Nat) := mk1 { op := 0x20, vc := 0, destEid := 344, job := j } (List.replicate 32 3)
def ov := mk1 { op := 0x21, vc := 0, destEid := 344, job := 9, srcEid := 1024+344 } (List.replicate 32 3)
def ovc : OverrunEntry := let v := leNat (clearPay ov none); { noticeTick := bits v 64 64, job := 9, lpkg := 1, part := bits v 132 2, lag := bits v 128 4, cause := bits v 134 2 }
def sn (op : Nat) := mk1 { op := op, vc := 5, destEid := 344, srcEid := 1024+344 } (List.replicate 32 3)
def hm := mk1 { op := 0x33, vc := 5, destEid := 344, srcEid := 1024+344 } (HayMsg.bytes { kind := 2, session := 9, handle := 77 })
def jl (s : State) := let s := jb s; { s with mbx := { s.mbx with headless := true } }
def rq (k : ReqKind) (o : ReqOwner) : OutReq := { ep := 5, seq := 7, kind := k, dest := 1, part := 0, bytes := 8, owner := o, at_ := 0, limit := 20000 }
def sr (k : ReqKind) (o : ReqOwner) (s : State) : State := let s := jb s; { s with fab := { s.fab with reqs := [rq k o] } }
def sh (s : State) : State := let s := jb s; { s with fab := { s.fab with holds := [⟨5,7,9,0⟩] } }
def an (op : Nat) (st : Nat := 0) := mk1 { op := op, vc := if op == 3 then 2 else 0, destEid := 5, seq := 7, status := st, srcEid := 1029 } (if op == 3 then List.replicate 32 3 else [])

theorem witness_PacketsAreSent_1 : ∃ (t : Nat) (i : Nat) (k : Nat) (w : Nat) (s : State) (e : State) (p : Pkt) (r : OutReq) (l :
    Link) (x : HeldAck), s.clock t = e ∧ linkOf s k = l ∧ s.fab.inject[i]? = some (p, w) ∧ limiterOpen e p.hdr = true ∧ restamp
    s p = none ∧ reqOf s p = some r ∧ w + 500000 ≤ max s.now t ∧ s.fab.acks[i]? = some x ∧ x.seqs.length = 1 ∧ k < 71 ∧ l.winAt
    + 10000 ≤ max s.now t ∧ k < 64 ∧ (limiterOf s k).aiAt + 1000 * cfg s 0x22 4 ≤ max s.now t := by
  refine ⟨500000, 0, 0, 0, (inj W9), ((inj W9).clock 500000), W9, zr, ul, za, ?_, ?_, ?_, ?_, ?_, ?_, ?_, ?_, ?_, ?_, ?_, ?_, ?_⟩
    <;> first | with_reducible rfl | decide +kernel

theorem witness_PacketsAreSent_2 : ∃ (t : Nat) (i : Nat) (k : Nat) (vc : Nat) (w : Nat) (s : State) (e : State) (l : Link) (o :
    OutPkt), s.clock t = e ∧ linkOf s k = l ∧ k < 71 ∧ 1 ≤ vc ∧ vc ≤ 5 ∧ l.promoted.contains vc = false ∧ mfind (touch e
    l).since vc = some w ∧ w + 1000 * cfg s (0x15 + vc) 4 ≤ max s.now t ∧ l.queue[i]? = some o ∧ o.entered + 500000 ≤ max s.now
    t ∧ o.from_ = none := by
  refine ⟨500000, 0, 0, 2, 0, (B1 ula), ((B1 ula).clock 500000), ula, ⟨W1, 0, none, 0⟩, ?_, ?_, ?_, ?_, ?_, ?_, ?_, ?_, ?_, ?_,
    ?_⟩ <;> first | with_reducible rfl | decide +kernel

theorem witness_PacketsAreSent_3 : ∃ (t : Nat) (i : Nat) (k : Nat) (s : State) (e : State) (l : Link) (x : HeldAck), s.clock t =
    e ∧ linkOf s k = l ∧ s.mbx.headless = false ∧ s.sess.pkg.isSome = true ∧ (s.fab.mapDirty = true ∨ s.fab.mapSent + 1000000 ≤
    max s.now t) ∧ s.fab.acks[i]? = some x ∧ 2 ≤ x.seqs.length := by
  refine ⟨1000000, 0, 0, sa, (sa.clock 1000000), ul, za2, ?_, ?_, ?_, ?_, ?_, ?_, ?_⟩
    <;> first | with_reducible rfl | decide +kernel

theorem witness_PacketsAreSent_4 : ∃ (t : Nat) (i : Nat) (k : Nat) (w : Nat) (s : State) (e : State) (p : Pkt) (q : Pkt) (l :
    Link), s.clock t = e ∧ linkOf s k = l ∧ s.fab.inject[i]? = some (p, w) ∧ limiterOpen e p.hdr = true ∧ restamp s p = some q
    := by
  refine ⟨5000, 0, 0, 0, (inj W1), ((inj W1).clock 5000), W1, (rs W1), ul, ?_, ?_, ?_, ?_, ?_⟩
    <;> first | with_reducible rfl | decide +kernel

theorem witness_PacketsAreSent_5 : ∃ (t : Nat) (k : Nat) (n : Nat) (vc : Nat) (f : Nat) (s : State) (e : State) (l : Link) (l1 :
    Link) (o : OutPkt), s.clock t = e ∧ linkOf s k = l ∧ k < 71 ∧ usable s k = true ∧ n < 3 ∧ bit l.txLanes n = true ∧ pickVc e
    (touch e l) = some (vc, l1) ∧ vcHead e l1 vc = some o ∧ o.from_ = none ∧ linkHeader s k o.pkt.hdr = f := by
  refine ⟨5000, 0, 0, pk.1, (linkHeader sq 0 W1.hdr), sq, (sq.clock 5000), ulq, pk.2, ⟨W1, 0, none, 0⟩, ?_, ?_, ?_, ?_, ?_, ?_,
    ?_, ?_, ?_, ?_⟩ <;> first | with_reducible rfl | decide +kernel

theorem witness_PacketsAreSent_6 : ∃ (t : Nat) (k : Nat) (n : Nat) (f : Nat) (opened : Option (List Byte)) (s : State) (e :
    State) (p : Pkt) (l : Link), s.clock t = e ∧ linkOf s k = l ∧ n < 213 ∧ n / 3 = k ∧ laneHead s n = some p ∧ p.hdr = f ∧
    usable s k = true ∧ bits f 0 16 ≠ 0xFFFF ∧ hDestPos f ≠ s.boot.posId ∧ hOp f ≠ 0 ∧ classify e k f opened = none ∧ quarDrop s
    k f = false ∧ usable s (linkTo s (hDestPos f)) = true := by
  refine ⟨500, 0, 0, F1.hdr, none, (B1 ul [F1]), ((B1 ul [F1]).clock 500), F1, ul, ?_, ?_, ?_, ?_, ?_, ?_, ?_, ?_, ?_, ?_, ?_, ?_,
    ?_⟩ <;> first | with_reducible rfl | decide +kernel

theorem witness_PacketsAreSent_7 : ∃ (t : Nat) (k : Nat) (n : Nat) (f : Nat) (opened : Option (List Byte)) (s : State) (e :
    State) (p : Pkt) (l : Link), s.clock t = e ∧ linkOf s k = l ∧ n < 213 ∧ n / 3 = k ∧ laneHead s n = some p ∧ p.hdr = f ∧
    usable s k = true ∧ bits f 0 16 ≠ 0xFFFF ∧ hDestPos f ≠ s.boot.posId ∧ hOp f ≠ 0 ∧ classify e k f opened = none ∧ quarDrop s
    k f = false ∧ usable s (linkTo s (hDestPos f)) = false := by
  refine ⟨500, 0, 0, F2.hdr, none, (B1 ul [F2]), ((B1 ul [F2]).clock 500), F2, ul, ?_, ?_, ?_, ?_, ?_, ?_, ?_, ?_, ?_, ?_, ?_, ?_,
    ?_⟩ <;> first | with_reducible rfl | decide +kernel

theorem witness_PacketsAreDelivered_1 : ∃ (t : Nat) (n : Nat) (h : Nat) (ep : Nat) (nb : Nat) (ses : Nat) (opened : Option (List
    Byte)) (s : State) (e : State) (s1 : State) (p : Pkt) (pay : List Byte), s.clock t = e ∧ hDestEid h % 1024 = ep ∧ bits
    (hOperand h) 0 11 = nb ∧ Arrives e n 1 opened p s1 h pay ∧ accessReady e h nb = true ∧ accessNack s1 n h ses true nb = none
    ∧ (hDcc h = true → inReach s1 n h ses ((partOfEp ep).getD 0) = true) ∧ ep < 288 ∧ n < 213 ∧ laneHead s n = some p ∧ p.hdr =
    h := by
  refine ⟨5, 0, w1.hdr, 5, 30, 9, none, T1, (T1.clock 5), (tk T1 w1), w1, (clearPay w1 none), ?_, ?_, ?_, ⟨?_, ?_, ?_, ?_,
    ?_, ?_⟩, ?_, ?_, ?_, ?_, ?_, ?_, ?_⟩ <;> first | with_reducible rfl | decide +kernel

theorem witness_PacketsAreDelivered_2 : ∃ (t : Nat) (n : Nat) (h : Nat) (ep : Nat) (nb : Nat) (ses : Nat) (opened : Option (List
    Byte)) (s : State) (e : State) (s1 : State) (p : Pkt) (pay : List Byte), s.clock t = e ∧ hDestEid h % 1024 = ep ∧ bits
    (hOperand h) 0 11 = nb ∧ Arrives e n 2 opened p s1 h pay ∧ accessReady e h nb = true ∧ accessNack s1 n h ses false nb = none
    ∧ nb = 0 := by
  refine ⟨5, 0, (r1 0).hdr, 5, 0, 9, none, (S1 (r1 0) jb), ((S1 (r1 0) jb).clock 5), (tk (S1 (r1 0) jb) (r1 0)), (r1 0), [],
    ?_, ?_, ?_, ⟨?_, ?_, ?_, ?_, ?_, ?_⟩, ?_, ?_, ?_⟩ <;> first | with_reducible rfl | decide +kernel

theorem witness_PacketsAreDelivered_3 : ∃ (t : Nat) (n : Nat) (h : Nat) (ep : Nat) (nb : Nat) (ses : Nat) (b : Bool) (opened :
    Option (List Byte)) (mi : MemIn) (s : State) (e : State) (s1 : State) (s2 : State) (p : Pkt) (pay : List Byte), s.clock t =
    e ∧ hDestEid h % 1024 = ep ∧ bits (hOperand h) 0 11 = nb ∧ Arrives e n 1 opened p s1 h pay ∧ accessReady e h nb = true ∧
    accessNack s1 n h ses true nb = none ∧ (hDcc h = true → inReach s1 n h ses ((partOfEp ep).getD 0) = true) ∧ 340 ≤ ep ∧
    (landMem s1 2 (hAddr h) (pay.take nb) (if hDcc h then some (hCc h) else none) mi = (s2, b)) := by
  refine ⟨5, 0, w3.hdr, 340, 30, 9, L3.2, none, ({}:MemIn), T3, (T3.clock 5), (tk T3 w3), L3.1, w3, (clearPay w3 none), ?_, ?_,
    ?_, ⟨?_, ?_, ?_, ?_, ?_, ?_⟩, ?_, ?_, ?_, ?_, ?_⟩ <;> first | with_reducible rfl | decide +kernel

theorem witness_PacketsAreDelivered_4 : ∃ (t : Nat) (n : Nat) (h : Nat) (ep : Nat) (nb : Nat) (ses : Nat) (opened : Option (List
    Byte)) (si : SpadIn) (s : State) (e : State) (s1 : State) (p : Pkt) (pay : List Byte), s.clock t = e ∧ hDestEid h % 1024 =
    ep ∧ bits (hOperand h) 0 11 = nb ∧ Arrives e n 2 opened p s1 h pay ∧ accessReady e h nb = true ∧ accessNack s1 n h ses false
    nb = none ∧ nb ≠ 0 ∧ ep < 288 ∧ badIn si (hAddr h) nb = false := by
  refine ⟨5, 0, (r1 10).hdr, 5, 10, 9, none, ({}:SpadIn), (S1 (r1 10) jb), ((S1 (r1 10) jb).clock 5), (tk (S1 (r1 10) jb) (r1
    10)), (r1 10), [], ?_, ?_, ?_, ⟨?_, ?_, ?_, ?_, ?_, ?_⟩, ?_, ?_, ?_, ?_, ?_⟩ <;> first | with_reducible rfl | decide +kernel

theorem witness_PacketsAreDelivered_5 : ∃ (t : Nat) (n : Nat) (h : Nat) (ep : Nat) (nb : Nat) (ses : Nat) (opened : Option (List
    Byte)) (mi : MemIn) (s : State) (e : State) (s1 : State) (s2 : State) (p : Pkt) (pay : List Byte) (bs : List Byte), s.clock
    t = e ∧ hDestEid h % 1024 = ep ∧ bits (hOperand h) 0 11 = nb ∧ Arrives e n 2 opened p s1 h pay ∧ accessReady e h nb = true ∧
    accessNack s1 n h ses false nb = none ∧ nb ≠ 0 ∧ 340 ≤ ep ∧ maRead s1 2 (hAddr h) nb mi = (s2, bs, []) := by
  refine ⟨5, 0, r3.hdr, 340, 10, 9, none, ({}:MemIn), (S1 r3 jbs), ((S1 r3 jbs).clock 5), (tk (S1 r3 jbs) r3), R3.1, r3, [],
    R3.2.1, ?_, ?_, ?_, ⟨?_, ?_, ?_, ?_, ?_, ?_⟩, ?_, ?_, ?_, ?_, ?_⟩ <;> first | with_reducible rfl | decide +kernel

theorem witness_PacketsAreDelivered_6 : ∃ (t : Nat) (n : Nat) (h : Nat) (ep : Nat) (nb : Nat) (ses : Nat) (q : Nat) (opened :
    Option (List Byte)) (s : State) (e : State) (s1 : State) (p : Pkt) (pay : List Byte), s.clock t = e ∧ hDestEid h % 1024 = ep
    ∧ bits (hOperand h) 0 11 = nb ∧ Arrives e n 5 opened p s1 h pay ∧ partOfEp ep = some q ∧ endpointShut s1 q = false ∧ inReach
    s1 n h ses q = true := by
  refine ⟨5, 0, (y 5 9).hdr, 5, 10, 9, 0, none, (S1 (y 5 9) jb), ((S1 (y 5 9) jb).clock 5), (tk (S1 (y 5 9) jb) (y 5 9)), (y 5 9),
    [], ?_, ?_, ?_, ⟨?_, ?_, ?_, ?_, ?_, ?_⟩, ?_, ?_, ?_⟩ <;> first | with_reducible rfl | decide +kernel

theorem witness_PacketsAreDelivered_7 : ∃ (t : Nat) (n : Nat) (h : Nat) (ep : Nat) (nb : Nat) (ses : Nat) (q : Nat) (opened :
    Option (List Byte)) (s : State) (e : State) (s1 : State) (p : Pkt) (pay : List Byte), s.clock t = e ∧ hDestEid h % 1024 = ep
    ∧ bits (hOperand h) 0 11 = nb ∧ Arrives e n 5 opened p s1 h pay ∧ partOfEp ep = some q ∧ endpointShut s1 q = false ∧ inReach
    s1 n h ses q = false := by
  refine ⟨5, 0, (y 5 7).hdr, 5, 10, 8, 0, none, (S1 (y 5 7) jb), ((S1 (y 5 7) jb).clock 5), (tk (S1 (y 5 7) jb) (y 5 7)), (y 5 7),
    [], ?_, ?_, ?_, ⟨?_, ?_, ?_, ?_, ?_, ?_⟩, ?_, ?_, ?_⟩ <;> first | with_reducible rfl | decide +kernel

theorem witness_PacketsAreDelivered_8 : ∃ (t : Nat) (n : Nat) (h : Nat) (ep : Nat) (nb : Nat) (q : Nat) (opened : Option (List
    Byte)) (s : State) (e : State) (s1 : State) (p : Pkt) (pay : List Byte), s.clock t = e ∧ hDestEid h % 1024 = ep ∧ bits
    (hOperand h) 0 11 = nb ∧ Arrives e n 5 opened p s1 h pay ∧ partOfEp ep = some q ∧ endpointShut s1 q = true := by
  refine ⟨5, 0, (y 5 9).hdr, 5, 10, 0, none, (S1 (y 5 9) fe), ((S1 (y 5 9) fe).clock 5), (tk (S1 (y 5 9) fe) (y 5 9)), (y 5 9),
    [], ?_, ?_, ?_, ⟨?_, ?_, ?_, ?_, ?_, ?_⟩, ?_, ?_⟩ <;> first | with_reducible rfl | decide +kernel

theorem witness_PacketsAreDelivered_9 : ∃ (t : Nat) (n : Nat) (h : Nat) (ep : Nat) (nb : Nat) (ses : Nat) (q : Nat) (opened :
    Option (List Byte)) (s : State) (e : State) (s1 : State) (p : Pkt) (pay : List Byte), s.clock t = e ∧ hDestEid h % 1024 = ep
    ∧ bits (hOperand h) 0 11 = nb ∧ Arrives e n 6 opened p s1 h pay ∧ partOfEp ep = some q ∧ endpointShut s1 q = false ∧ inReach
    s1 n h ses q = true := by
  refine ⟨5, 0, (y 6 9).hdr, 5, 10, 9, 0, none, (S1 (y 6 9) jb), ((S1 (y 6 9) jb).clock 5), (tk (S1 (y 6 9) jb) (y 6 9)), (y 6 9),
    [], ?_, ?_, ?_, ⟨?_, ?_, ?_, ?_, ?_, ?_⟩, ?_, ?_, ?_⟩ <;> first | with_reducible rfl | decide +kernel

theorem witness_PacketsAreDelivered_10 : ∃ (t : Nat) (n : Nat) (h : Nat) (ep : Nat) (nb : Nat) (ses : Nat) (x : Nat) (ps : Nat)
    (opened : Option (List Byte)) (s : State) (e : State) (s1 : State) (p : Pkt) (pay : List Byte), s.clock t = e ∧ hDestEid h %
    1024 = ep ∧ bits (hOperand h) 0 11 = nb ∧ Arrives e n 8 opened p s1 h pay ∧ 288 ≤ ep ∧ ep < 300 ∧ leNat (pay.take 64) / 2 ^
    64 * 2 ^ 64 = x ∧ ep - 288 = ps ∧ glnRoom e ps (leNat (pay.take 64)) = true ∧ endpointShut s1 (partOfStack ps) = false ∧
    glnAtOnce x = false ∧ glnMalformed s1 x = none ∧ glnRefusal s1 (senderSes s1 n h ses) x = none := by
  refine ⟨5, 0, (g1 0x200000).hdr, 288, 0, 9, (gb 0x200000), 0, none, (S1 (g1 0x200000) jb), ((S1 (g1 0x200000) jb).clock 5), (tk
    (S1 (g1 0x200000) jb) (g1 0x200000)), (g1 0x200000), (clearPay (g1 0x200000) none), ?_, ?_, ?_, ⟨?_, ?_, ?_, ?_, ?_, ?_⟩,
    ?_, ?_, ?_, ?_, ?_, ?_, ?_, ?_, ?_⟩ <;> first | with_reducible rfl | decide +kernel

theorem witness_PacketsAreDelivered_11 : ∃ (t : Nat) (n : Nat) (h : Nat) (ep : Nat) (nb : Nat) (ses : Nat) (x : Nat) (ps : Nat)
    (opened : Option (List Byte)) (s : State) (e : State) (s1 : State) (p : Pkt) (pay : List Byte), s.clock t = e ∧ hDestEid h %
    1024 = ep ∧ bits (hOperand h) 0 11 = nb ∧ Arrives e n 8 opened p s1 h pay ∧ 288 ≤ ep ∧ ep < 300 ∧ leNat (pay.take 64) / 2 ^
    64 * 2 ^ 64 = x ∧ ep - 288 = ps ∧ glnRoom e ps (leNat (pay.take 64)) = true ∧ endpointShut s1 (partOfStack ps) = false ∧
    glnAtOnce x = false ∧ glnMalformed s1 x = none ∧ glnRefusal s1 (senderSes s1 n h ses) x = some 3 := by
  refine ⟨5, 0, (g1 0x400000).hdr, 288, 0, 9, (gb 0x400000), 0, none, (S1 (g1 0x400000) jb), ((S1 (g1 0x400000) jb).clock 5), (tk
    (S1 (g1 0x400000) jb) (g1 0x400000)), (g1 0x400000), (clearPay (g1 0x400000) none), ?_, ?_, ?_, ⟨?_, ?_, ?_, ?_, ?_, ?_⟩,
    ?_, ?_, ?_, ?_, ?_, ?_, ?_, ?_, ?_⟩ <;> first | with_reducible rfl | decide +kernel

theorem witness_PacketsAreDelivered_12 : ∃ (t : Nat) (n : Nat) (h : Nat) (ep : Nat) (nb : Nat) (x : Nat) (ps : Nat) (opened :
    Option (List Byte)) (s : State) (e : State) (s1 : State) (p : Pkt) (pay : List Byte), s.clock t = e ∧ hDestEid h % 1024 = ep
    ∧ bits (hOperand h) 0 11 = nb ∧ Arrives e n 8 opened p s1 h pay ∧ 288 ≤ ep ∧ ep < 300 ∧ leNat (pay.take 64) / 2 ^ 64 * 2 ^
    64 = x ∧ ep - 288 = ps ∧ glnRoom e ps (leNat (pay.take 64)) = true ∧ endpointShut s1 (partOfStack ps) = true := by
  refine ⟨5, 0, (g1 0x400000).hdr, 288, 0, (gb 0x400000), 0, none, (S1 (g1 0x400000) fe), ((S1 (g1 0x400000) fe).clock 5), (tk (S1
    (g1 0x400000) fe) (g1 0x400000)), (g1 0x400000), (clearPay (g1 0x400000) none), ?_, ?_, ?_, ⟨?_, ?_, ?_, ?_, ?_, ?_⟩,
    ?_, ?_, ?_, ?_, ?_, ?_⟩ <;> first | with_reducible rfl | decide +kernel

theorem witness_PacketsAreDelivered_13 : ∃ (t : Nat) (n : Nat) (h : Nat) (ep : Nat) (nb : Nat) (opened : Option (List Byte)) (s
    : State) (e : State) (p : Pkt), s.clock t = e ∧ hDestEid h % 1024 = ep ∧ bits (hOperand h) 0 11 = nb ∧ n < 213 ∧ laneHead s
    n = some p ∧ p.hdr = h ∧ hOp h = 0 ∧ classify e (n / 3) h opened = none := by
  refine ⟨5, 0, tr.hdr, 0, 0, none, (S1 tr jb), ((S1 tr jb).clock 5), tr, ?_, ?_, ?_, ?_, ?_, ?_, ?_, ?_⟩
    <;> first | with_reducible rfl | decide +kernel

theorem witness_PacketsAreDelivered_14 : ∃ (t : Nat) (n : Nat) (h : Nat) (ep : Nat) (nb : Nat) (opened : Option (List Byte)) (s
    : State) (e : State) (s1 : State) (p : Pkt) (pay : List Byte), s.clock t = e ∧ hDestEid h % 1024 = ep ∧ bits (hOperand h) 0
    11 = nb ∧ Arrives e n 0x20 opened p s1 h pay ∧ (∃ p < 4, hJob h ∈ (partOf s p).jobs) := by
  refine ⟨5, 0, (ab 9).hdr, 344, 0, none, (S1 (ab 9) jb), ((S1 (ab 9) jb).clock 5), (tk (S1 (ab 9) jb) (ab 9)), (ab 9), (clearPay
    (ab 9) none), ?_, ?_, ?_, ⟨?_, ?_, ?_, ?_, ?_, ?_⟩, ?_⟩ <;> first | with_reducible rfl | decide +kernel

theorem witness_PacketsAreDelivered_15 : ∃ (t : Nat) (n : Nat) (h : Nat) (ep : Nat) (nb : Nat) (opened : Option (List Byte)) (s
    : State) (e : State) (s1 : State) (p : Pkt) (pay : List Byte), s.clock t = e ∧ hDestEid h % 1024 = ep ∧ bits (hOperand h) 0
    11 = nb ∧ Arrives e n 0x20 opened p s1 h pay ∧ (∀ p < 4, hJob h ∉ (partOf s p).jobs) := by
  refine ⟨5, 0, (ab 8).hdr, 344, 0, none, (S1 (ab 8) jb), ((S1 (ab 8) jb).clock 5), (tk (S1 (ab 8) jb) (ab 8)), (ab 8), (clearPay
    (ab 8) none), ?_, ?_, ?_, ⟨?_, ?_, ?_, ?_, ?_, ?_⟩, ?_⟩ <;> first | with_reducible rfl | decide +kernel

theorem witness_PacketsAreDelivered_16 : ∃ (t : Nat) (n : Nat) (h : Nat) (ep : Nat) (nb : Nat) (q : Nat) (opened : Option (List
    Byte)) (s : State) (e : State) (s1 : State) (p : Pkt) (pay : List Byte) (c : OverrunEntry), s.clock t = e ∧ hDestEid h %
    1024 = ep ∧ bits (hOperand h) 0 11 = nb ∧ Arrives e n 0x21 opened p s1 h pay ∧ q < 4 ∧ hJob h ∈ (partOf s q).jobs ∧
    s.tick.log.length < 64 ∧ c =
    { noticeTick := bits (leNat pay) 64 64, job := hJob h, lpkg := hSrcEid h / 1024, part := bits (leNat pay) 132 2, lag := bits (leNat pay) 128 4, cause := bits (leNat pay) 134 2 }
    := by
  refine ⟨5, 0, ov.hdr, 344, 0, 0, none, (S1 ov jb), ((S1 ov jb).clock 5), (tk (S1 ov jb) ov), ov, (clearPay ov none), ovc,
    ?_, ?_, ?_, ⟨?_, ?_, ?_, ?_, ?_, ?_⟩, ?_, ?_, ?_, ?_⟩ <;> first | with_reducible rfl | decide +kernel

theorem witness_PacketsAreDelivered_17 : ∃ (t : Nat) (n : Nat) (h : Nat) (ep : Nat) (nb : Nat) (opened : Option (List Byte)) (s
    : State) (e : State) (s1 : State) (p : Pkt) (pay : List Byte), s.clock t = e ∧ hDestEid h % 1024 = ep ∧ bits (hOperand h) 0
    11 = nb ∧ Arrives e n 0x31 opened p s1 h pay := by
  refine ⟨5, 0, (sn 0x31).hdr, 344, 0, none, (S1 (sn 0x31) jb), ((S1 (sn 0x31) jb).clock 5), (tk (S1 (sn 0x31) jb) (sn 0x31)), (sn
    0x31), (clearPay (sn 0x31) none), ?_, ?_, ?_, ⟨?_, ?_, ?_, ?_, ?_, ?_⟩⟩ <;> first | with_reducible rfl | decide +kernel

theorem witness_PacketsAreDelivered_18 : ∃ (t : Nat) (n : Nat) (h : Nat) (ep : Nat) (nb : Nat) (opened : Option (List Byte)) (s
    : State) (e : State) (s1 : State) (p : Pkt) (pay : List Byte), s.clock t = e ∧ hDestEid h % 1024 = ep ∧ bits (hOperand h) 0
    11 = nb ∧ Arrives e n 0x32 opened p s1 h pay := by
  refine ⟨5, 0, (sn 0x32).hdr, 344, 0, none, (S1 (sn 0x32) jb), ((S1 (sn 0x32) jb).clock 5), (tk (S1 (sn 0x32) jb) (sn 0x32)), (sn
    0x32), (clearPay (sn 0x32) none), ?_, ?_, ?_, ⟨?_, ?_, ?_, ?_, ?_, ?_⟩⟩ <;> first | with_reducible rfl | decide +kernel

theorem witness_PacketsAreDelivered_19 : ∃ (t : Nat) (n : Nat) (h : Nat) (ep : Nat) (nb : Nat) (opened : Option (List Byte)) (s
    : State) (e : State) (s1 : State) (p : Pkt) (pay : List Byte), s.clock t = e ∧ hDestEid h % 1024 = ep ∧ bits (hOperand h) 0
    11 = nb ∧ Arrives e n 0x33 opened p s1 h pay ∧ (HayMsg.ofBytes pay).kind = 2 ∧ serving s = true := by
  refine ⟨5, 0, hm.hdr, 344, 0, none, (S1 hm jb), ((S1 hm jb).clock 5), (tk (S1 hm jb) hm), hm, (clearPay hm none), ?_, ?_, ?_,
    ⟨?_, ?_, ?_, ?_, ?_, ?_⟩, ?_, ?_⟩ <;> first | with_reducible rfl | decide +kernel

theorem witness_PacketsAreDelivered_20 : ∃ (t : Nat) (n : Nat) (h : Nat) (ep : Nat) (nb : Nat) (opened : Option (List Byte)) (s
    : State) (e : State) (s1 : State) (p : Pkt) (pay : List Byte), s.clock t = e ∧ hDestEid h % 1024 = ep ∧ bits (hOperand h) 0
    11 = nb ∧ Arrives e n 0x33 opened p s1 h pay ∧ (HayMsg.ofBytes pay).kind = 2 ∧ serving s = false := by
  refine ⟨5, 0, hm.hdr, 344, 0, none, (S1 hm jl), ((S1 hm jl).clock 5), (tk (S1 hm jl) hm), hm, (clearPay hm none), ?_, ?_, ?_,
    ⟨?_, ?_, ?_, ?_, ?_, ?_⟩, ?_, ?_⟩ <;> first | with_reducible rfl | decide +kernel

theorem witness_AnswersEndRequests_1 : ∃ (t : Nat) (h : Nat) (ep : Nat) (q : Nat) (s : State) (e : State) (s1 : State) (s2 :
    State) (r : OutReq), s.clock t = e ∧ hDestEid h % 1024 = ep ∧ hSeq h = q ∧ applyEcho s1 h = s2 ∧ findReq s ep q = some r ∧
    r.kind ≠ .gleaner ∧ injected s r = true ∧ r.at_ + r.limit ≤ max s.now t := by
  refine ⟨20000, (an 3).hdr, 5, 7, (S1 (an 3) (sr .write (.copy 20))), ((S1 (an 3) (sr .write (.copy 20))).clock 20000), (tk (S1
    (an 3) (sr .write (.copy 20))) (an 3)), (applyEcho (tk (S1 (an 3) (sr .write (.copy 20))) (an 3)) ((an 3).hdr)), (rq .write
    (.copy 20)), ?_, ?_, ?_, ?_, ?_, ?_, ?_, ?_⟩ <;> first | with_reducible rfl | decide +kernel

theorem witness_AnswersEndRequests_2 : ∃ (t : Nat) (n : Nat) (h : Nat) (ep : Nat) (q : Nat) (opened : Option (List Byte)) (s :
    State) (e : State) (s1 : State) (s2 : State) (p : Pkt) (pay : List Byte) (r : OutReq), s.clock t = e ∧ hDestEid h % 1024 =
    ep ∧ hSeq h = q ∧ applyEcho s1 h = s2 ∧ findReq s2 ep q = some r ∧ Arrives e n 3 opened p s1 h pay ∧ r.kind = .read := by
  refine ⟨5, 0, (an 3 0).hdr, 5, 7, none, (S1 (an 3 0) (sr .read (.load 20 0 8))), ((S1 (an 3 0) (sr .read (.load 20 0 8))).clock
    5), (tk (S1 (an 3 0) (sr .read (.load 20 0 8))) (an 3 0)), (applyEcho (tk (S1 (an 3 0) (sr .read (.load 20 0 8))) (an 3 0))
    ((an 3 0).hdr)), (an 3 0), (clearPay (an 3 0) none), (rq .read (.load 20 0 8)), ?_, ?_, ?_, ?_, ?_, ⟨?_, ?_, ?_, ?_,
    ?_, ?_⟩, ?_⟩ <;> first | with_reducible rfl | decide +kernel

theorem witness_AnswersEndRequests_3 : ∃ (t : Nat) (n : Nat) (h : Nat) (ep : Nat) (q : Nat) (opened : Option (List Byte)) (s :
    State) (e : State) (s1 : State) (s2 : State) (p : Pkt) (pay : List Byte) (x : SeqHold), s.clock t = e ∧ hDestEid h % 1024 =
    ep ∧ hSeq h = q ∧ applyEcho s1 h = s2 ∧ findReq s2 ep q = none ∧ (s2.fab.holds.find? (fun x => x.ep == ep && x.seq == q) =
    some x) ∧ Arrives e n 3 opened p s1 h pay := by
  refine ⟨5, 0, (an 3 0).hdr, 5, 7, none, (S1 (an 3 0) sh), ((S1 (an 3 0) sh).clock 5), (tk (S1 (an 3 0) sh) (an 3 0)), (applyEcho
    (tk (S1 (an 3 0) sh) (an 3 0)) ((an 3 0).hdr)), (an 3 0), (clearPay (an 3 0) none), ⟨5,7,9,0⟩, ?_, ?_, ?_, ?_, ?_, ?_,
    ⟨?_, ?_, ?_, ?_, ?_, ?_⟩⟩ <;> first | with_reducible rfl | decide +kernel

theorem witness_AnswersEndRequests_4 : ∃ (t : Nat) (n : Nat) (h : Nat) (ep : Nat) (q : Nat) (opened : Option (List Byte)) (s :
    State) (e : State) (s1 : State) (s2 : State) (p : Pkt) (pay : List Byte) (r : OutReq), s.clock t = e ∧ hDestEid h % 1024 =
    ep ∧ hSeq h = q ∧ applyEcho s1 h = s2 ∧ findReq s2 ep q = some r ∧ Arrives e n 4 opened p s1 h pay ∧ hLen h = 0 ∧ r.kind =
    .write := by
  refine ⟨5, 0, (an 4 0).hdr, 5, 7, none, (S1 (an 4 0) (sr .write (.store 20 0))), ((S1 (an 4 0) (sr .write (.store 20 0))).clock
    5), (tk (S1 (an 4 0) (sr .write (.store 20 0))) (an 4 0)), (applyEcho (tk (S1 (an 4 0) (sr .write (.store 20 0))) (an 4 0))
    ((an 4 0).hdr)), (an 4 0), (clearPay (an 4 0) none), (rq .write (.store 20 0)), ?_, ?_, ?_, ?_, ?_, ⟨?_, ?_, ?_, ?_,
    ?_, ?_⟩, ?_, ?_⟩ <;> first | with_reducible rfl | decide +kernel

theorem witness_AnswersEndRequests_5 : ∃ (t : Nat) (n : Nat) (h : Nat) (ep : Nat) (q : Nat) (opened : Option (List Byte)) (s :
    State) (e : State) (s1 : State) (s2 : State) (p : Pkt) (pay : List Byte) (x : SeqHold), s.clock t = e ∧ hDestEid h % 1024 =
    ep ∧ hSeq h = q ∧ applyEcho s1 h = s2 ∧ findReq s2 ep q = none ∧ (s2.fab.holds.find? (fun x => x.ep == ep && x.seq == q) =
    some x) ∧ Arrives e n 4 opened p s1 h pay ∧ hLen h = 0 := by
  refine ⟨5, 0, (an 4 0).hdr, 5, 7, none, (S1 (an 4 0) sh), ((S1 (an 4 0) sh).clock 5), (tk (S1 (an 4 0) sh) (an 4 0)), (applyEcho
    (tk (S1 (an 4 0) sh) (an 4 0)) ((an 4 0).hdr)), (an 4 0), (clearPay (an 4 0) none), ⟨5,7,9,0⟩, ?_, ?_, ?_, ?_, ?_, ?_,
    ⟨?_, ?_, ?_, ?_, ?_, ?_⟩, ?_⟩ <;> first | with_reducible rfl | decide +kernel

theorem witness_AnswersEndRequests_6 : ∃ (t : Nat) (n : Nat) (h : Nat) (ep : Nat) (q : Nat) (opened : Option (List Byte)) (s :
    State) (e : State) (s1 : State) (s2 : State) (p : Pkt) (pay : List Byte) (r : OutReq), s.clock t = e ∧ hDestEid h % 1024 =
    ep ∧ hSeq h = q ∧ applyEcho s1 h = s2 ∧ findReq s2 ep q = some r ∧ Arrives e n 7 opened p s1 h pay ∧ r.kind = .sync := by
  refine ⟨5, 0, (an 7 0).hdr, 5, 7, none, (S1 (an 7 0) (sr .sync (.sync 20 0))), ((S1 (an 7 0) (sr .sync (.sync 20 0))).clock 5),
    (tk (S1 (an 7 0) (sr .sync (.sync 20 0))) (an 7 0)), (applyEcho (tk (S1 (an 7 0) (sr .sync (.sync 20 0))) (an 7 0)) ((an 7
    0).hdr)), (an 7 0), (clearPay (an 7 0) none), (rq .sync (.sync 20 0)), ?_, ?_, ?_, ?_, ?_, ⟨?_, ?_, ?_, ?_, ?_, ?_⟩, ?_⟩
    <;> first | with_reducible rfl | decide +kernel

theorem witness_AnswersEndRequests_7 : ∃ (t : Nat) (n : Nat) (h : Nat) (ep : Nat) (q : Nat) (opened : Option (List Byte)) (s :
    State) (e : State) (s1 : State) (s2 : State) (p : Pkt) (pay : List Byte) (x : SeqHold), s.clock t = e ∧ hDestEid h % 1024 =
    ep ∧ hSeq h = q ∧ applyEcho s1 h = s2 ∧ findReq s2 ep q = none ∧ (s2.fab.holds.find? (fun x => x.ep == ep && x.seq == q) =
    some x) ∧ Arrives e n 7 opened p s1 h pay := by
  refine ⟨5, 0, (an 7 0).hdr, 5, 7, none, (S1 (an 7 0) sh), ((S1 (an 7 0) sh).clock 5), (tk (S1 (an 7 0) sh) (an 7 0)), (applyEcho
    (tk (S1 (an 7 0) sh) (an 7 0)) ((an 7 0).hdr)), (an 7 0), (clearPay (an 7 0) none), ⟨5,7,9,0⟩, ?_, ?_, ?_, ?_, ?_, ?_,
    ⟨?_, ?_, ?_, ?_, ?_, ?_⟩⟩ <;> first | with_reducible rfl | decide +kernel

theorem witness_AnswersEndRequests_8 : ∃ (t : Nat) (n : Nat) (h : Nat) (ep : Nat) (q : Nat) (opened : Option (List Byte)) (s :
    State) (e : State) (s1 : State) (s2 : State) (p : Pkt) (pay : List Byte) (r : OutReq), s.clock t = e ∧ hDestEid h % 1024 =
    ep ∧ hSeq h = q ∧ applyEcho s1 h = s2 ∧ findReq s2 ep q = some r ∧ Arrives e n 9 opened p s1 h pay ∧ r.kind = .gleaner := by
  refine ⟨5, 0, (an 9 5).hdr, 5, 7, none, (S1 (an 9 5) (sr .gleaner (.forward 20 0))), ((S1 (an 9 5) (sr .gleaner (.forward 20
    0))).clock 5), (tk (S1 (an 9 5) (sr .gleaner (.forward 20 0))) (an 9 5)), (applyEcho (tk (S1 (an 9 5) (sr .gleaner (.forward
    20 0))) (an 9 5)) ((an 9 5).hdr)), (an 9 5), (clearPay (an 9 5) none), (rq .gleaner (.forward 20 0)), ?_, ?_, ?_, ?_, ?_,
    ⟨?_, ?_, ?_, ?_, ?_, ?_⟩, ?_⟩ <;> first | with_reducible rfl | decide +kernel

theorem witness_AnswersEndRequests_9 : ∃ (t : Nat) (n : Nat) (h : Nat) (ep : Nat) (q : Nat) (opened : Option (List Byte)) (s :
    State) (e : State) (s1 : State) (s2 : State) (p : Pkt) (pay : List Byte) (x : SeqHold), s.clock t = e ∧ hDestEid h % 1024 =
    ep ∧ hSeq h = q ∧ applyEcho s1 h = s2 ∧ findReq s2 ep q = none ∧ (s2.fab.holds.find? (fun x => x.ep == ep && x.seq == q) =
    some x) ∧ Arrives e n 9 opened p s1 h pay := by
  refine ⟨5, 0, (an 9 5).hdr, 5, 7, none, (S1 (an 9 5) sh), ((S1 (an 9 5) sh).clock 5), (tk (S1 (an 9 5) sh) (an 9 5)), (applyEcho
    (tk (S1 (an 9 5) sh) (an 9 5)) ((an 9 5).hdr)), (an 9 5), (clearPay (an 9 5) none), ⟨5,7,9,0⟩, ?_, ?_, ?_, ?_, ?_, ?_,
    ⟨?_, ?_, ?_, ?_, ?_, ?_⟩⟩ <;> first | with_reducible rfl | decide +kernel

theorem witness_AnswersEndRequests_10 : ∃ (t : Nat) (n : Nat) (h : Nat) (ep : Nat) (q : Nat) (opened : Option (List Byte)) (s :
    State) (e : State) (s1 : State) (s2 : State) (p : Pkt) (pay : List Byte) (r : OutReq), s.clock t = e ∧ hDestEid h % 1024 =
    ep ∧ hSeq h = q ∧ applyEcho s1 h = s2 ∧ findReq s2 ep q = some r ∧ Arrives e n 10 opened p s1 h pay := by
  refine ⟨5, 0, (an 10 2).hdr, 5, 7, none, (S1 (an 10 2) (sr .write (.copy 20))), ((S1 (an 10 2) (sr .write (.copy 20))).clock 5),
    (tk (S1 (an 10 2) (sr .write (.copy 20))) (an 10 2)), (applyEcho (tk (S1 (an 10 2) (sr .write (.copy 20))) (an 10 2)) ((an
    10 2).hdr)), (an 10 2), (clearPay (an 10 2) none), (rq .write (.copy 20)), ?_, ?_, ?_, ?_, ?_, ⟨?_, ?_, ?_, ?_, ?_, ?_⟩⟩
    <;> first | with_reducible rfl | decide +kernel

theorem witness_AnswersEndRequests_11 : ∃ (t : Nat) (n : Nat) (h : Nat) (ep : Nat) (q : Nat) (opened : Option (List Byte)) (s :
    State) (e : State) (s1 : State) (s2 : State) (p : Pkt) (pay : List Byte) (x : SeqHold), s.clock t = e ∧ hDestEid h % 1024 =
    ep ∧ hSeq h = q ∧ applyEcho s1 h = s2 ∧ findReq s2 ep q = none ∧ (s2.fab.holds.find? (fun x => x.ep == ep && x.seq == q) =
    some x) ∧ Arrives e n 10 opened p s1 h pay := by
  refine ⟨5, 0, (an 10 2).hdr, 5, 7, none, (S1 (an 10 2) sh), ((S1 (an 10 2) sh).clock 5), (tk (S1 (an 10 2) sh) (an 10 2)),
    (applyEcho (tk (S1 (an 10 2) sh) (an 10 2)) ((an 10 2).hdr)), (an 10 2), (clearPay (an 10 2) none), ⟨5,7,9,0⟩, ?_, ?_,
    ?_, ?_, ?_, ?_, ⟨?_, ?_, ?_, ?_, ?_, ?_⟩⟩ <;> first | with_reducible rfl | decide +kernel

end Sys2Proof.Tests.C10

/-! ## Witnesses: 11 collectives -/

namespace Sys2Proof.Tests.C11
open Sys2Proof.Machine

def zl : Lane := { lstate := .inService, signal := true }
def ul : Link := { state := .up, rxLanes := 7, txLanes := 7 }
def base : State := { inService [(0, { wPart .running with jobs := [9] })] with fab := { lpt := [0x80, 0x81,0x82] }, place := { bufs := [(4, ⟨77,9,0,0x42,1,0x200000,5000,0,[.frame 1 5]⟩)] }, stks := [(0,wStack),(1, wStack)] }
def gr (waiting : List Nat := []) (pend : SMap PendEntry := []) : Group := { job := 9, group := 2, part := 0, rank := 0, members := [(0,0),(1,0)], waiting := waiting, pend := pend }
def grm (s : State) (g : Group) : State := { s with coll := { s.coll with groups := [g] } }
def dsc (kind : Nat) (count : Nat := 64) (bushel := 0) (stream := 0) (inf := 0) (red := 0) : Nat :=
  packBits [(kind,4),(0,1),(1,1),(0,2),(5,12),(6,12),(0,32),(9,16),(2,12),(red,2),(bushel,1),(stream,1),(7,16),(inf,4),(inf,4),(0,1),(0,1),(0,6),(1,2),(1,2),(3,16),(3,16),(0,48),(4096,48),(0x200000,48),(count,32)]
def B0 := grm base (gr)
def zO : OpenColl := { part := 0, job := 9, group := 2, seq := 7, desc := dsc 1, rank := 0, m := 2, launchAt := 0, waitFrom := 0, timeoutNs := 2000000 }
def chn : Chan := { enable := true, ringEntries := 4, ringSpace := 1, ringEid := 3, ringAddr := 0, dbCc := 1, errCause := 2 }
def withRing (d : Nat) (s : State) : State := { s with coll := { s.coll with chans := [(0, chn)] }, ccs := [(1, 2)], mem := { spad := ((leBytes 64 d).zipIdx.map (fun e => (3*0x280000 + e.2, e.1))).filter (fun e => e.2 != 0) } }
def C1 (d : Nat) := withRing d B0
def rr (s : State) := ringRead (s.clock 5) 0 2 chn 0 {} {}
def zg : Group := gr
def rb (s : State) := ringRead (s.clock 5) 0 2 chn 0 {} {bad := [0]}
def C2 : State := let s := C1 (dsc 1); { s with coll := { s.coll with heads := [(0, (dsc 1, 3))] } }
def L (d : Nat) := grm base (gr [d])
def e5 (d : Nat) := (L d).clock 5
def o0 (d : Nat) : OpenColl := { part := 0, job := 9, group := 2, seq := kSeq d, desc := d, rank := 0, m := 2, launchAt := 5, waitFrom := 5, timeoutNs := 2000000, lagRank := some 0 }
def ra (d : Nat) := reserveAll (e5 d) (o0 d)
def s2 (d : Nat) := zeroFallback (ra d).1 (ra d).2 {}
def g1 (d : Nat) : Group := { gr [] with granary := (ra d).2.slots.length, gleaner := (ra d).2.gleaner.length }
def s4 (d : Nat) := (readyTo d (g1 d)).foldl (fun s k => collSend s (g1 d) (kSeq d) k 0x10 0 0 0 (signature d) []) (updGroup (s2 d) (g1 d))
def s5 (d : Nat) := if kKind d = 7 then (otherRanks (g1 d)).foldl (fun s k => collSend s (g1 d) (kSeq d) k 0x15 0 0 0 0 []) (s4 d) else s4 d
def mk1 (h : Hdr) (pay : List Byte) := mkPkt { base with boot := { base.boot with posId := 1 } } { h with destPos := 0, srcEid := 1024 + 302, destEid := 302, job := 9, group := if h.group = 0 then 2 else 0, seq := 7 } pay
def S1 (p : Pkt) (os : List OpenColl) (g : Group := gr) : State := let s := grm base g; { s with fab := { s.fab with links := [(0, ul), (1, ul)], lanes := [(0, { zl with arrived := [p] }), (1, zl), (2, zl)] }, coll := { s.coll with opens := os } }
def tk (s : State) (p : Pkt) : State := let e := s.clock 5; let h := p.hdr; freeFlits (countRx (popLane e 0) 0 h) 0 (pairOf h) (pktFlits h)
def pp (op : Nat) (off operand : Nat) (pay : List Byte) (grp := 0) := mk1 { op := op, vc := if op == 0x10 || op ≥ 0x15 then 0 else 1, group := grp, addr := 2^42 + off, operand := operand } pay
def zj : Issued := { core := 12, index := 0, desc := 0 }
def OE (o : OpenColl) : State := let s := grm base (gr); { s with coll := { s.coll with opens := [o], idle := [(2, 16)] } }
def of_ : OpenColl := { zO with desc := dsc 2 64, chunks := [(0, { got := 64 })] }
def od : OpenColl := { zO with desc := dsc 7, arrived := [1] }
def ot : OpenColl := { zO with desc := dsc 1, slots := [(0,1)] }
def ON : State := let s := grm base (gr); { s with coll := { s.coll with opens := [], idle := [(2, 16)] } }
def so (target dsp deid da : Nat) : Nat := packBits ([(5,4),(0,60),(target,2),(64,22),(128,20),(1,16),(3,12),(0,32)] ++ (if target = 1 then [(dsp,2),(deid,16),(da,48),(0,32),(0,1),(0,12),(0,2),(0,7)] else [(9,16),(2,12),(7,16),(0,32)]))
def SO (d : Nat) (os : List OpenColl) : State := let s := grm base (gr); { s with cores := [(12, { stall := none })], tiles := [(3, { stream := { jobs := [{ zj with desc := d }] } })], ccs := [(3, 1)], coll := { s.coll with opens := os }, mem := { spad := [(3*0x280000+70, 5)] } }
def os_ : OpenColl := { zO with desc := dsc 1 64 0 1, ready := [1] }

theorem witness_CollectivesLaunch_1 : ∃ (t : Nat) (ch : Nat) (p : Nat) (i : Nat) (d : Nat) (job : Nat) (group : Nat) (part :
    Nat) (c : Chan) (g : Group) (mi : MemIn) (si : SpadIn) (s : State) (e : State) (s1 : State) (s2 : State), s.clock t = e ∧
    collChan s ch = c ∧ partOfColl ch = p ∧ partLive e p = true ∧ mfind s.coll.heads ch = none ∧ doorbellAhead e p c = true ∧ i
    = c.head % c.ringEntries ∧ ringReady e p c i = true ∧ ringRead e p 2 c i mi si = (s1, some d) ∧ c.halted = false ∧ s1.coll =
    s.coll ∧ setCollChan s1 ch { c with head := (c.head + 1) % 2 ^ 32 } = s2 ∧ collReason s2 p d = none ∧ groupOfPart s (kJob d)
    (kGroup d) p = some g ∧ (kKind d ≠ 7 → kCount d ≠ 0 → (collExtents s2 p d g.members.length g.rank).findSome? tgtCause =
    none) ∧ (dWaitEn d = true → ccReached s2 p (dWaitCc d) (dWaitVal d) = true) ∧ (kKind d = 7 ∨ kCount d ≠ 0) ∧
    ((s.coll.opens.filter (fun o => o.job == g.job && o.group == g.group && o.part == p)).length + g.waiting.length < 4) := by
  refine ⟨5, 0, 0, 0, (dsc 1), 0, 0, 0, chn, zg, ({}:MemIn), ({}:SpadIn), (C1 (dsc 1)), ((C1 (dsc 1)).clock 5), (rr (C1 (dsc
    1))).1, (setCollChan ((rr (C1 (dsc 1))).1) 0 { chn with head := (chn.head + 1) % 2 ^ 32 }), ?_, ?_, ?_, ?_, ?_, ?_, ?_, ?_,
    ?_, ?_, ?_, ?_, ?_, ?_, ?_, ?_, ?_, ?_⟩ <;> first | with_reducible rfl | decide +kernel

theorem witness_CollectivesLaunch_2 : ∃ (t : Nat) (d : Nat) (kind : Nat) (job : Nat) (group : Nat) (part : Nat) (g : Group) (g1
    : Group) (ins : Instr) (mi : MemIn) (si : SpadIn) (s : State) (e : State) (s1 : State) (s2 : State) (s4 : State) (s5 :
    State) (o0 : OpenColl) (o1 : OpenColl) (ds : List Nat), s.clock t = e ∧ (kind, ins) ∈ [(1, .collAllReduce t job group part
    mi si), (2, .collReduceScatter t job group part mi si), (3, .collAllGather t job group part mi si), (4, .collAllToAll t job
    group part mi si), (5, .collBroadcast t job group part mi si), (6, .collReduce t job group part mi si), (7, .collBarrier t
    job group part mi si)] ∧ groupOfPart s job group part = some g ∧ g.waiting = d :: ds ∧ partLive e part = true ∧ kKind d =
    kind ∧ (∀ a, Tgt.mem a ∈ collExtents e part d g.members.length g.rank → lineReady e a = true) ∧ o0 =
    { part := part, job := job, group := group, seq := kSeq d, desc := d, rank := g.rank, m := g.members.length, launchAt := max s.now t, waitFrom := max s.now t, timeoutNs := 1000 * g.timeoutUs, lagRank := some g.rank }
    ∧ reserveAll e o0 = (s1, o1) ∧ zeroFallback s1 o1 mi = s2 ∧ g1 =
    { g with waiting := ds, granary := satAdd max32 g.granary o1.slots.length, gleaner := satAdd max16 g.gleaner o1.gleaner.length }
    ∧ ((readyTo d g1).foldl (fun s k => collSend s g1 (kSeq d) k 0x10 0 0 0 (signature d) []) (updGroup s2 g1) = s4) ∧ ((if kind
    = 7 then (otherRanks g1).foldl (fun s k => collSend s g1 (kSeq d) k 0x15 0 0 0 0 []) s4 else s4) = s5) ∧ kind = 7 ∧ mfind
    g.pend (kSeq d) = none ∧ openOf s job group part (kSeq d) = none := by
  refine ⟨5, (dsc 7 64 0), 7, 9, 2, 0, (gr [(dsc 7 64 0)]), (g1 (dsc 7 64 0)), (.collBarrier 5 9 2 0 {} {}), ({}:MemIn),
    ({}:SpadIn), (L (dsc 7 64 0)), ((L (dsc 7 64 0)).clock 5), (ra (dsc 7 64 0)).1, (zeroFallback ((ra (dsc 7 64 0)).1) ((ra
    (dsc 7 64 0)).2) ({}:MemIn)), (s4 (dsc 7 64 0)), (s5 (dsc 7 64 0)), (o0 (dsc 7 64 0)), (ra (dsc 7 64 0)).2, [], ?_, ?_,
    ?_, ?_, ?_, ?_, (all_mem (by decide +kernel)), ?_, ?_, ?_, ?_, ?_, ?_, ?_, ?_, ?_⟩
    <;> first | with_reducible rfl | decide +kernel

theorem witness_CollectivesLaunch_3 : ∃ (t : Nat) (ch : Nat) (p : Nat) (i : Nat) (d : Nat) (c : Chan) (g : Group) (mi : MemIn)
    (si : SpadIn) (s : State) (e : State) (s1 : State) (s2 : State), s.clock t = e ∧ collChan s ch = c ∧ partOfColl ch = p ∧
    partLive e p = true ∧ mfind s.coll.heads ch = none ∧ doorbellAhead e p c = true ∧ i = c.head % c.ringEntries ∧ ringReady e p
    c i = true ∧ ringRead e p 2 c i mi si = (s1, some d) ∧ c.halted = false ∧ s1.coll = s.coll ∧ setCollChan s1 ch
    { c with head := (c.head + 1) % 2 ^ 32 } = s2 ∧ collReason s2 p d = none ∧ groupOfPart s (kJob d) (kGroup d) p = some g ∧
    (kKind d ≠ 7 → kCount d ≠ 0 → (collExtents s2 p d g.members.length g.rank).findSome? tgtCause = none) ∧ (dWaitEn d = true →
    ccReached s2 p (dWaitCc d) (dWaitVal d) = true) ∧ kKind d ≠ 7 ∧ kCount d = 0 := by
  refine ⟨5, 0, 0, 0, (dsc 1 0), chn, zg, ({}:MemIn), ({}:SpadIn), (C1 (dsc 1 0)), ((C1 (dsc 1 0)).clock 5), (rr (C1 (dsc 1
    0))).1, (setCollChan ((rr (C1 (dsc 1 0))).1) 0 { chn with head := (chn.head + 1) % 2 ^ 32 }), ?_, ?_, ?_, ?_, ?_, ?_,
    ?_, ?_, ?_, ?_, ?_, ?_, ?_, ?_, ?_, ?_, ?_, ?_⟩ <;> first | with_reducible rfl | decide +kernel

theorem witness_CollectivesLaunch_4 : ∃ (t : Nat) (ch : Nat) (p : Nat) (i : Nat) (c : Chan) (mi : MemIn) (si : SpadIn) (s :
    State) (e : State) (s1 : State), s.clock t = e ∧ collChan s ch = c ∧ partOfColl ch = p ∧ partLive e p = true ∧ mfind
    s.coll.heads ch = none ∧ doorbellAhead e p c = true ∧ i = c.head % c.ringEntries ∧ ringReady e p c i = true ∧ ringRead e p 2
    c i mi si = (s1, none) ∧ c.halted = false ∧ s1.coll = s.coll := by
  refine ⟨5, 0, 0, 0, chn, ({}:MemIn), ({bad := [0]}:SpadIn), (C1 (dsc 8)), ((C1 (dsc 8)).clock 5), (rb (C1 (dsc 8))).1, ?_, ?_,
    ?_, ?_, ?_, ?_, ?_, ?_, ?_, ?_, ?_⟩ <;> first | with_reducible rfl | decide +kernel

theorem witness_CollectivesLaunch_5 : ∃ (t : Nat) (ch : Nat) (p : Nat) (d : Nat) (x : Nat) (c : Chan) (s : State) (e : State),
    s.clock t = e ∧ collChan s ch = c ∧ partOfColl ch = p ∧ partLive e p = true ∧ mfind s.coll.heads ch = some (d, x) ∧ c.enable
    = true ∧ c.halted = false := by
  refine ⟨5, 0, 0, (dsc 1), 3, chn, C2, (C2.clock 5), ?_, ?_, ?_, ?_, ?_, ?_, ?_⟩ <;> first | with_reducible rfl | decide +kernel

theorem witness_CollectivePacketsAct_1 : ∃ (t : Nat) (n : Nat) (h : Nat) (rk : Nat) (op : Nat) (l : Nat) (q : Nat) (opened :
    Option (List Byte)) (s : State) (e : State) (s1 : State) (p : Pkt) (pay : List Byte) (g : Group) (o : OpenColl) (r :
    CollRun), s.clock t = e ∧ Arrives e n op opened p s1 h pay ∧ collLaneReady e n rk = true ∧ groupOfRank s1 (hJob h) (hGroup
    h) rk = some g ∧ g.members[hRank h]? = some (l, q) ∧ l = hSrcEid h / 1024 ∧ hRank h ≠ rk ∧ refusing s1 g.part = false ∧
    openOf s1 g.job g.group g.part (hSeq h) = some o ∧ r = { st := s1, o := o, g := g } ∧ op = 0x10 ∧ hOperand h = signature
    o.desc ∧ hRank h ∉ o.ready ∧ (readyNeeded o.desc g).contains (hRank h) = true := by
  refine ⟨5, 0, (pp 16 0 (signature (dsc 1)) []).hdr, 0, 16, 1, 0, none, (S1 (pp 16 0 (signature (dsc 1)) [])
    [{ zO with desc := (dsc 1) }]), ((S1 (pp 16 0 (signature (dsc 1)) []) [{ zO with desc := (dsc 1) }]).clock 5), (tk (S1 (pp
    16 0 (signature (dsc 1)) []) [{ zO with desc := (dsc 1) }]) (pp 16 0 (signature (dsc 1)) [])), (pp 16 0 (signature (dsc 1))
    []), (clearPay (pp 16 0 (signature (dsc 1)) []) none), zg, { zO with desc := (dsc 1) },
    { st := tk (S1 (pp 16 0 (signature (dsc 1)) []) [{ zO with desc := (dsc 1) }]) (pp 16 0 (signature (dsc 1)) []), o := { zO with desc := (dsc 1) }, g := zg },
    ?_, ⟨?_, ?_, ?_, ?_, ?_, ?_⟩, ?_, ?_, ?_, ?_, ?_, ?_, ?_, ?_, ?_, ?_, ?_, ?_⟩
    <;> first | with_reducible rfl | decide +kernel

theorem witness_CollectivePacketsAct_2 : ∃ (t : Nat) (n : Nat) (h : Nat) (rk : Nat) (op : Nat) (l : Nat) (q : Nat) (opened :
    Option (List Byte)) (s : State) (e : State) (s1 : State) (p : Pkt) (pay : List Byte) (g : Group), s.clock t = e ∧ Arrives e
    n op opened p s1 h pay ∧ collLaneReady e n rk = true ∧ groupOfRank s1 (hJob h) (hGroup h) rk = some g ∧ g.members[hRank h]?
    = some (l, q) ∧ l = hSrcEid h / 1024 ∧ hRank h ≠ rk ∧ refusing s1 g.part = false ∧ openOf s1 g.job g.group g.part (hSeq h) =
    none ∧ closedNow s1 g (hSeq h) = false ∧ mfind g.pend (hSeq h) = none ∧ g.pend.length < 16 ∧ op = 0x10 := by
  refine ⟨5, 0, (pp 16 0 (signature (dsc 1)) []).hdr, 0, 16, 1, 0, none, (S1 (pp 16 0 (signature (dsc 1)) []) []), ((S1 (pp 16 0
    (signature (dsc 1)) []) []).clock 5), (tk (S1 (pp 16 0 (signature (dsc 1)) []) []) (pp 16 0 (signature (dsc 1)) [])), (pp 16
    0 (signature (dsc 1)) []), (clearPay (pp 16 0 (signature (dsc 1)) []) none), zg, ?_, ⟨?_, ?_, ?_, ?_, ?_, ?_⟩, ?_, ?_,
    ?_, ?_, ?_, ?_, ?_, ?_, ?_, ?_, ?_⟩ <;> first | with_reducible rfl | decide +kernel

theorem witness_CollectivePacketsAct_3 : ∃ (t : Nat) (n : Nat) (h : Nat) (rk : Nat) (op : Nat) (ins : Instr) (opened : Option
    (List Byte)) (mi : MemIn) (si : SpadIn) (s : State) (e : State) (s1 : State) (p : Pkt) (pay : List Byte), s.clock t = e ∧
    Arrives e n op opened p s1 h pay ∧ collLaneReady e n rk = true ∧ (op, ins) ∈ [(0x10, .collReady t n opened rk mi si), (0x11,
    .collExp t n opened rk mi si), (0x12, .collAgreed t n opened rk mi si), (0x13, .collContrib t n opened rk mi), (0x14,
    .collResult t n opened rk mi), (0x15, .collArrive t n opened rk mi), (0x16, .collFail t n opened rk mi)] ∧ groupOfRank s1
    (hJob h) (hGroup h) rk = none := by
  refine ⟨5, 0, (pp 16 0 (signature (dsc 1)) [] 3).hdr, 0, 16, (.collReady 5 0 none 0 {} {}), none, ({}:MemIn), ({}:SpadIn), (S1
    (pp 16 0 (signature (dsc 1)) [] 3) []), ((S1 (pp 16 0 (signature (dsc 1)) [] 3) []).clock 5), (tk (S1 (pp 16 0 (signature
    (dsc 1)) [] 3) []) (pp 16 0 (signature (dsc 1)) [] 3)), (pp 16 0 (signature (dsc 1)) [] 3), (clearPay (pp 16 0 (signature
    (dsc 1)) [] 3) none), ?_, ⟨?_, ?_, ?_, ?_, ?_, ?_⟩, ?_, ?_, ?_⟩ <;> first | with_reducible rfl | decide +kernel

theorem witness_CollectivePacketsAct_4 : ∃ (t : Nat) (n : Nat) (h : Nat) (rk : Nat) (op : Nat) (l : Nat) (q : Nat) (opened :
    Option (List Byte)) (s : State) (e : State) (s1 : State) (p : Pkt) (pay : List Byte) (g : Group) (o : OpenColl) (r :
    CollRun), s.clock t = e ∧ Arrives e n op opened p s1 h pay ∧ collLaneReady e n rk = true ∧ groupOfRank s1 (hJob h) (hGroup
    h) rk = some g ∧ g.members[hRank h]? = some (l, q) ∧ l = hSrcEid h / 1024 ∧ hRank h ≠ rk ∧ refusing s1 g.part = false ∧
    openOf s1 g.job g.group g.part (hSeq h) = some o ∧ r = { st := s1, o := o, g := g } ∧ op = 0x11 ∧ bushelSum o.desc = true ∧
    hOff h / 16 < nStripes o.desc o.m o.rank := by
  refine ⟨5, 0, (pp 17 0 1 (List.replicate 32 3)).hdr, 0, 17, 1, 0, none, (S1 (pp 17 0 1 (List.replicate 32 3))
    [{ zO with desc := (dsc 1 64 1) }]), ((S1 (pp 17 0 1 (List.replicate 32 3)) [{ zO with desc := (dsc 1 64 1) }]).clock 5),
    (tk (S1 (pp 17 0 1 (List.replicate 32 3)) [{ zO with desc := (dsc 1 64 1) }]) (pp 17 0 1 (List.replicate 32 3))), (pp 17 0 1
    (List.replicate 32 3)), (clearPay (pp 17 0 1 (List.replicate 32 3)) none), zg, { zO with desc := (dsc 1 64 1) },
    { st := tk (S1 (pp 17 0 1 (List.replicate 32 3)) [{ zO with desc := (dsc 1 64 1) }]) (pp 17 0 1 (List.replicate 32 3)), o := { zO with desc := (dsc 1 64 1) }, g := zg },
    ?_, ⟨?_, ?_, ?_, ?_, ?_, ?_⟩, ?_, ?_, ?_, ?_, ?_, ?_, ?_, ?_, ?_, ?_, ?_⟩ <;> first | with_reducible rfl | decide +kernel

theorem witness_CollectivePacketsAct_5 : ∃ (t : Nat) (n : Nat) (h : Nat) (rk : Nat) (op : Nat) (l : Nat) (q : Nat) (opened :
    Option (List Byte)) (s : State) (e : State) (s1 : State) (p : Pkt) (pay : List Byte) (g : Group), s.clock t = e ∧ Arrives e
    n op opened p s1 h pay ∧ collLaneReady e n rk = true ∧ groupOfRank s1 (hJob h) (hGroup h) rk = some g ∧ g.members[hRank h]?
    = some (l, q) ∧ l = hSrcEid h / 1024 ∧ hRank h ≠ rk ∧ refusing s1 g.part = false ∧ openOf s1 g.job g.group g.part (hSeq h) =
    none ∧ closedNow s1 g (hSeq h) = false ∧ op = 0x11 := by
  refine ⟨5, 0, (pp 17 0 1 (List.replicate 32 3)).hdr, 0, 17, 1, 0, none, (S1 (pp 17 0 1 (List.replicate 32 3)) []), ((S1 (pp 17 0
    1 (List.replicate 32 3)) []).clock 5), (tk (S1 (pp 17 0 1 (List.replicate 32 3)) []) (pp 17 0 1 (List.replicate 32 3))), (pp
    17 0 1 (List.replicate 32 3)), (clearPay (pp 17 0 1 (List.replicate 32 3)) none), zg, ?_, ⟨?_, ?_, ?_, ?_, ?_, ?_⟩, ?_, ?_,
    ?_, ?_, ?_, ?_, ?_, ?_, ?_⟩ <;> first | with_reducible rfl | decide +kernel

theorem witness_CollectivePacketsAct_6 : ∃ (t : Nat) (n : Nat) (h : Nat) (rk : Nat) (op : Nat) (l : Nat) (q : Nat) (opened :
    Option (List Byte)) (s : State) (e : State) (s1 : State) (p : Pkt) (pay : List Byte) (g : Group) (o : OpenColl) (r :
    CollRun), s.clock t = e ∧ Arrives e n op opened p s1 h pay ∧ collLaneReady e n rk = true ∧ groupOfRank s1 (hJob h) (hGroup
    h) rk = some g ∧ g.members[hRank h]? = some (l, q) ∧ l = hSrcEid h / 1024 ∧ hRank h ≠ rk ∧ refusing s1 g.part = false ∧
    openOf s1 g.job g.group g.part (hSeq h) = some o ∧ r = { st := s1, o := o, g := g } ∧ op = 0x12 ∧ bushelSum o.desc = true :=
    by
  refine ⟨5, 0, (pp 18 0 1 (List.replicate 32 3)).hdr, 0, 18, 1, 0, none, (S1 (pp 18 0 1 (List.replicate 32 3))
    [{ zO with desc := (dsc 1 64 1) }]), ((S1 (pp 18 0 1 (List.replicate 32 3)) [{ zO with desc := (dsc 1 64 1) }]).clock 5),
    (tk (S1 (pp 18 0 1 (List.replicate 32 3)) [{ zO with desc := (dsc 1 64 1) }]) (pp 18 0 1 (List.replicate 32 3))), (pp 18 0 1
    (List.replicate 32 3)), (clearPay (pp 18 0 1 (List.replicate 32 3)) none), zg, { zO with desc := (dsc 1 64 1) },
    { st := tk (S1 (pp 18 0 1 (List.replicate 32 3)) [{ zO with desc := (dsc 1 64 1) }]) (pp 18 0 1 (List.replicate 32 3)), o := { zO with desc := (dsc 1 64 1) }, g := zg },
    ?_, ⟨?_, ?_, ?_, ?_, ?_, ?_⟩, ?_, ?_, ?_, ?_, ?_, ?_, ?_, ?_, ?_, ?_⟩ <;> first | with_reducible rfl | decide +kernel

theorem witness_CollectivePacketsAct_7 : ∃ (t : Nat) (n : Nat) (h : Nat) (rk : Nat) (op : Nat) (l : Nat) (q : Nat) (opened :
    Option (List Byte)) (s : State) (e : State) (s1 : State) (p : Pkt) (pay : List Byte) (g : Group), s.clock t = e ∧ Arrives e
    n op opened p s1 h pay ∧ collLaneReady e n rk = true ∧ groupOfRank s1 (hJob h) (hGroup h) rk = some g ∧ g.members[hRank h]?
    = some (l, q) ∧ l = hSrcEid h / 1024 ∧ hRank h ≠ rk ∧ refusing s1 g.part = false ∧ openOf s1 g.job g.group g.part (hSeq h) =
    none ∧ closedNow s1 g (hSeq h) = false ∧ op = 0x12 := by
  refine ⟨5, 0, (pp 18 0 1 (List.replicate 32 3)).hdr, 0, 18, 1, 0, none, (S1 (pp 18 0 1 (List.replicate 32 3)) []), ((S1 (pp 18 0
    1 (List.replicate 32 3)) []).clock 5), (tk (S1 (pp 18 0 1 (List.replicate 32 3)) []) (pp 18 0 1 (List.replicate 32 3))), (pp
    18 0 1 (List.replicate 32 3)), (clearPay (pp 18 0 1 (List.replicate 32 3)) none), zg, ?_, ⟨?_, ?_, ?_, ?_, ?_, ?_⟩, ?_, ?_,
    ?_, ?_, ?_, ?_, ?_, ?_, ?_⟩ <;> first | with_reducible rfl | decide +kernel

theorem witness_CollectivePacketsAct_8 : ∃ (t : Nat) (n : Nat) (h : Nat) (rk : Nat) (op : Nat) (l : Nat) (q : Nat) (opened :
    Option (List Byte)) (s : State) (e : State) (s1 : State) (p : Pkt) (pay : List Byte) (g : Group) (o : OpenColl) (r :
    CollRun), s.clock t = e ∧ Arrives e n op opened p s1 h pay ∧ collLaneReady e n rk = true ∧ groupOfRank s1 (hJob h) (hGroup
    h) rk = some g ∧ g.members[hRank h]? = some (l, q) ∧ l = hSrcEid h / 1024 ∧ hRank h ≠ rk ∧ refusing s1 g.part = false ∧
    openOf s1 g.job g.group g.part (hSeq h) = some o ∧ r = { st := s1, o := o, g := g } ∧ op = 0x13 ∧ reduces o.desc = true ∧
    (shardOf o.desc o.m o.rank).1 * inSize o.desc ≤ hOff h ∧ hOff h % inSize o.desc = 0 ∧ 0 < inSize o.desc ∧ hOff h < ((shardOf
    o.desc o.m o.rank).1 + (shardOf o.desc o.m o.rank).2) * inSize o.desc ∧ hOff h + pay.length ≤ ((chunkOf o.desc o.m o.rank
    ((hOff h / inSize o.desc - (shardOf o.desc o.m o.rank).1) / chunkLen o.desc)).1 + (chunkOf o.desc o.m o.rank ((hOff h /
    inSize o.desc - (shardOf o.desc o.m o.rank).1) / chunkLen o.desc)).2) * inSize o.desc := by
  refine ⟨5, 0, (pp 19 0 0 (List.replicate 128 0x3f)).hdr, 0, 19, 1, 0, none, (S1 (pp 19 0 0 (List.replicate 128 0x3f))
    [{ zO with desc := (dsc 1) }]), ((S1 (pp 19 0 0 (List.replicate 128 0x3f)) [{ zO with desc := (dsc 1) }]).clock 5), (tk (S1
    (pp 19 0 0 (List.replicate 128 0x3f)) [{ zO with desc := (dsc 1) }]) (pp 19 0 0 (List.replicate 128 0x3f))), (pp 19 0 0
    (List.replicate 128 0x3f)), (clearPay (pp 19 0 0 (List.replicate 128 0x3f)) none), zg, { zO with desc := (dsc 1) },
    { st := tk (S1 (pp 19 0 0 (List.replicate 128 0x3f)) [{ zO with desc := (dsc 1) }]) (pp 19 0 0 (List.replicate 128 0x3f)), o := { zO with desc := (dsc 1) }, g := zg },
    ?_, ⟨?_, ?_, ?_, ?_, ?_, ?_⟩, ?_, ?_, ?_, ?_, ?_, ?_, ?_, ?_, ?_, ?_, ?_, ?_, ?_, ?_, ?_⟩
    <;> first | with_reducible rfl | decide +kernel

theorem witness_CollectivePacketsAct_9 : ∃ (t : Nat) (n : Nat) (h : Nat) (rk : Nat) (op : Nat) (l : Nat) (q : Nat) (opened :
    Option (List Byte)) (s : State) (e : State) (s1 : State) (p : Pkt) (pay : List Byte) (g : Group), s.clock t = e ∧ Arrives e
    n op opened p s1 h pay ∧ collLaneReady e n rk = true ∧ groupOfRank s1 (hJob h) (hGroup h) rk = some g ∧ g.members[hRank h]?
    = some (l, q) ∧ l = hSrcEid h / 1024 ∧ hRank h ≠ rk ∧ refusing s1 g.part = false ∧ openOf s1 g.job g.group g.part (hSeq h) =
    none ∧ closedNow s1 g (hSeq h) = false ∧ op = 0x13 := by
  refine ⟨5, 0, (pp 19 0 0 (List.replicate 128 0x3f)).hdr, 0, 19, 1, 0, none, (S1 (pp 19 0 0 (List.replicate 128 0x3f)) []), ((S1
    (pp 19 0 0 (List.replicate 128 0x3f)) []).clock 5), (tk (S1 (pp 19 0 0 (List.replicate 128 0x3f)) []) (pp 19 0 0
    (List.replicate 128 0x3f))), (pp 19 0 0 (List.replicate 128 0x3f)), (clearPay (pp 19 0 0 (List.replicate 128 0x3f)) none),
    zg, ?_, ⟨?_, ?_, ?_, ?_, ?_, ?_⟩, ?_, ?_, ?_, ?_, ?_, ?_, ?_, ?_, ?_⟩ <;> first | with_reducible rfl | decide +kernel

theorem witness_CollectivePacketsAct_10 : ∃ (t : Nat) (n : Nat) (h : Nat) (rk : Nat) (op : Nat) (l : Nat) (q : Nat) (opened :
    Option (List Byte)) (s : State) (e : State) (s1 : State) (p : Pkt) (pay : List Byte) (g : Group) (o : OpenColl) (r :
    CollRun), s.clock t = e ∧ Arrives e n op opened p s1 h pay ∧ collLaneReady e n rk = true ∧ groupOfRank s1 (hJob h) (hGroup
    h) rk = some g ∧ g.members[hRank h]? = some (l, q) ∧ l = hSrcEid h / 1024 ∧ hRank h ≠ rk ∧ refusing s1 g.part = false ∧
    openOf s1 g.job g.group g.part (hSeq h) = some o ∧ r = { st := s1, o := o, g := g } ∧ op = 0x14 ∧ hOff h + pay.length ≤
    resultEnd o (hRank h) (hOff h) := by
  refine ⟨5, 0, (pp 20 128 0 (List.replicate 128 0x3f)).hdr, 0, 20, 1, 0, none, (S1 (pp 20 128 0 (List.replicate 128 0x3f))
    [{ zO with desc := (dsc 1) }]), ((S1 (pp 20 128 0 (List.replicate 128 0x3f)) [{ zO with desc := (dsc 1) }]).clock 5), (tk
    (S1 (pp 20 128 0 (List.replicate 128 0x3f)) [{ zO with desc := (dsc 1) }]) (pp 20 128 0 (List.replicate 128 0x3f))), (pp 20
    128 0 (List.replicate 128 0x3f)), (clearPay (pp 20 128 0 (List.replicate 128 0x3f)) none), zg, { zO with desc := (dsc 1) },
    { st := tk (S1 (pp 20 128 0 (List.replicate 128 0x3f)) [{ zO with desc := (dsc 1) }]) (pp 20 128 0 (List.replicate 128 0x3f)), o := { zO with desc := (dsc 1) }, g := zg },
    ?_, ⟨?_, ?_, ?_, ?_, ?_, ?_⟩, ?_, ?_, ?_, ?_, ?_, ?_, ?_, ?_, ?_, ?_⟩ <;> first | with_reducible rfl | decide +kernel

theorem witness_CollectivePacketsAct_11 : ∃ (t : Nat) (n : Nat) (h : Nat) (rk : Nat) (op : Nat) (l : Nat) (q : Nat) (opened :
    Option (List Byte)) (s : State) (e : State) (s1 : State) (p : Pkt) (pay : List Byte) (g : Group), s.clock t = e ∧ Arrives e
    n op opened p s1 h pay ∧ collLaneReady e n rk = true ∧ groupOfRank s1 (hJob h) (hGroup h) rk = some g ∧ g.members[hRank h]?
    = some (l, q) ∧ l = hSrcEid h / 1024 ∧ hRank h ≠ rk ∧ refusing s1 g.part = false ∧ openOf s1 g.job g.group g.part (hSeq h) =
    none ∧ closedNow s1 g (hSeq h) = false ∧ op = 0x14 := by
  refine ⟨5, 0, (pp 20 128 0 (List.replicate 128 0x3f)).hdr, 0, 20, 1, 0, none, (S1 (pp 20 128 0 (List.replicate 128 0x3f)) []),
    ((S1 (pp 20 128 0 (List.replicate 128 0x3f)) []).clock 5), (tk (S1 (pp 20 128 0 (List.replicate 128 0x3f)) []) (pp 20 128 0
    (List.replicate 128 0x3f))), (pp 20 128 0 (List.replicate 128 0x3f)), (clearPay (pp 20 128 0 (List.replicate 128 0x3f))
    none), zg, ?_, ⟨?_, ?_, ?_, ?_, ?_, ?_⟩, ?_, ?_, ?_, ?_, ?_, ?_, ?_, ?_, ?_⟩ <;> first | with_reducible rfl | decide +kernel

theorem witness_CollectivePacketsAct_12 : ∃ (t : Nat) (n : Nat) (h : Nat) (rk : Nat) (op : Nat) (l : Nat) (q : Nat) (opened :
    Option (List Byte)) (s : State) (e : State) (s1 : State) (p : Pkt) (pay : List Byte) (g : Group) (o : OpenColl) (r :
    CollRun), s.clock t = e ∧ Arrives e n op opened p s1 h pay ∧ collLaneReady e n rk = true ∧ groupOfRank s1 (hJob h) (hGroup
    h) rk = some g ∧ g.members[hRank h]? = some (l, q) ∧ l = hSrcEid h / 1024 ∧ hRank h ≠ rk ∧ refusing s1 g.part = false ∧
    openOf s1 g.job g.group g.part (hSeq h) = some o ∧ r = { st := s1, o := o, g := g } ∧ op = 0x15 ∧ kKind o.desc = 7 ∧ hRank h
    ∉ o.arrived := by
  refine ⟨5, 0, (pp 21 0 0 []).hdr, 0, 21, 1, 0, none, (S1 (pp 21 0 0 []) [{ zO with desc := (dsc 7) }]), ((S1 (pp 21 0 0 [])
    [{ zO with desc := (dsc 7) }]).clock 5), (tk (S1 (pp 21 0 0 []) [{ zO with desc := (dsc 7) }]) (pp 21 0 0 [])), (pp 21 0 0
    []), (clearPay (pp 21 0 0 []) none), zg, { zO with desc := (dsc 7) },
    { st := tk (S1 (pp 21 0 0 []) [{ zO with desc := (dsc 7) }]) (pp 21 0 0 []), o := { zO with desc := (dsc 7) }, g := zg },
    ?_, ⟨?_, ?_, ?_, ?_, ?_, ?_⟩, ?_, ?_, ?_, ?_, ?_, ?_, ?_, ?_, ?_, ?_, ?_⟩ <;> first | with_reducible rfl | decide +kernel

theorem witness_CollectivePacketsAct_13 : ∃ (t : Nat) (n : Nat) (h : Nat) (rk : Nat) (op : Nat) (l : Nat) (q : Nat) (opened :
    Option (List Byte)) (s : State) (e : State) (s1 : State) (p : Pkt) (pay : List Byte) (g : Group), s.clock t = e ∧ Arrives e
    n op opened p s1 h pay ∧ collLaneReady e n rk = true ∧ groupOfRank s1 (hJob h) (hGroup h) rk = some g ∧ g.members[hRank h]?
    = some (l, q) ∧ l = hSrcEid h / 1024 ∧ hRank h ≠ rk ∧ refusing s1 g.part = false ∧ openOf s1 g.job g.group g.part (hSeq h) =
    none ∧ closedNow s1 g (hSeq h) = false ∧ mfind g.pend (hSeq h) = none ∧ g.pend.length < 16 ∧ op = 0x15 := by
  refine ⟨5, 0, (pp 21 0 0 []).hdr, 0, 21, 1, 0, none, (S1 (pp 21 0 0 []) []), ((S1 (pp 21 0 0 []) []).clock 5), (tk (S1 (pp 21 0
    0 []) []) (pp 21 0 0 [])), (pp 21 0 0 []), (clearPay (pp 21 0 0 []) none), zg, ?_, ⟨?_, ?_, ?_, ?_, ?_, ?_⟩, ?_, ?_, ?_, ?_,
    ?_, ?_, ?_, ?_, ?_, ?_, ?_⟩ <;> first | with_reducible rfl | decide +kernel

theorem witness_CollectivePacketsAct_14 : ∃ (t : Nat) (n : Nat) (h : Nat) (rk : Nat) (op : Nat) (l : Nat) (q : Nat) (opened :
    Option (List Byte)) (s : State) (e : State) (s1 : State) (p : Pkt) (pay : List Byte) (g : Group) (o : OpenColl) (r :
    CollRun), s.clock t = e ∧ Arrives e n op opened p s1 h pay ∧ collLaneReady e n rk = true ∧ groupOfRank s1 (hJob h) (hGroup
    h) rk = some g ∧ g.members[hRank h]? = some (l, q) ∧ l = hSrcEid h / 1024 ∧ hRank h ≠ rk ∧ refusing s1 g.part = false ∧
    openOf s1 g.job g.group g.part (hSeq h) = some o ∧ r = { st := s1, o := o, g := g } ∧ op = 0x16 := by
  refine ⟨5, 0, (pp 22 0 18 []).hdr, 0, 22, 1, 0, none, (S1 (pp 22 0 18 []) [{ zO with desc := (dsc 1) }]), ((S1 (pp 22 0 18 [])
    [{ zO with desc := (dsc 1) }]).clock 5), (tk (S1 (pp 22 0 18 []) [{ zO with desc := (dsc 1) }]) (pp 22 0 18 [])), (pp 22 0
    18 []), (clearPay (pp 22 0 18 []) none), zg, { zO with desc := (dsc 1) },
    { st := tk (S1 (pp 22 0 18 []) [{ zO with desc := (dsc 1) }]) (pp 22 0 18 []), o := { zO with desc := (dsc 1) }, g := zg },
    ?_, ⟨?_, ?_, ?_, ?_, ?_, ?_⟩, ?_, ?_, ?_, ?_, ?_, ?_, ?_, ?_, ?_⟩ <;> first | with_reducible rfl | decide +kernel

theorem witness_CollectivePacketsAct_15 : ∃ (t : Nat) (n : Nat) (h : Nat) (rk : Nat) (op : Nat) (l : Nat) (q : Nat) (opened :
    Option (List Byte)) (s : State) (e : State) (s1 : State) (p : Pkt) (pay : List Byte) (g : Group), s.clock t = e ∧ Arrives e
    n op opened p s1 h pay ∧ collLaneReady e n rk = true ∧ groupOfRank s1 (hJob h) (hGroup h) rk = some g ∧ g.members[hRank h]?
    = some (l, q) ∧ l = hSrcEid h / 1024 ∧ hRank h ≠ rk ∧ refusing s1 g.part = false ∧ openOf s1 g.job g.group g.part (hSeq h) =
    none ∧ closedNow s1 g (hSeq h) = false ∧ mfind g.pend (hSeq h) = none ∧ g.pend.length < 16 ∧ op = 0x16 := by
  refine ⟨5, 0, (pp 22 0 18 []).hdr, 0, 22, 1, 0, none, (S1 (pp 22 0 18 []) []), ((S1 (pp 22 0 18 []) []).clock 5), (tk (S1 (pp 22
    0 18 []) []) (pp 22 0 18 [])), (pp 22 0 18 []), (clearPay (pp 22 0 18 []) none), zg, ?_, ⟨?_, ?_, ?_, ?_, ?_, ?_⟩, ?_, ?_,
    ?_, ?_, ?_, ?_, ?_, ?_, ?_, ?_, ?_⟩ <;> first | with_reducible rfl | decide +kernel

theorem witness_CollectivesEnd_1 : ∃ (t : Nat) (job : Nat) (group : Nat) (part : Nat) (seq : Nat) (c : Nat) (n : Nat) (s :
    State) (e : State) (o : OpenColl) (g : Group) (os : List OpenColl), s.clock t = e ∧ openOf s job group part seq = some o ∧
    groupOfPart s job group part = some g ∧ reduces o.desc = true ∧ c < nChunks o.desc o.m o.rank ∧ chunkFull o c = true ∧ (mget
    {} o.chunks c : Chunk).out = none ∧ n < 8 ∧ 16 ≤ mget 0 s.coll.idle n ∧ serving s = true ∧ (s.coll.opens.filter (fun o =>
    servedBy o n) = os) ∧ os = [o] ∧ groupOfPart s o.job o.group o.part = some g := by
  refine ⟨5, 9, 2, 0, 7, 0, 2, (OE of_), ((OE of_).clock 5), of_, zg, [of_], ?_, ?_, ?_, ?_, ?_, ?_, ?_, ?_, ?_, ?_, ?_, ?_, ?_⟩
    <;> first | with_reducible rfl | decide +kernel

theorem witness_CollectivesEnd_2 : ∃ (t : Nat) (c : Nat) (n : Nat) (si : SpadIn) (s : State) (e : State) (s1 : State) (j :
    Issued), s.clock t = e ∧ jobOf s c 5 n = some j ∧ coreLive e c = true ∧ j.fail = none ∧ oBlock j.desc ≠ 0 ∧ blockEligible e
    c j = true ∧ eccCount e (tileOfCore c) si = s1 ∧ badIn si (oSrc j.desc + j.sent * oBlock j.desc) (oBlock j.desc) = false ∧
    oTarget j.desc = 1 := by
  refine ⟨5, 12, 0, ({}:SpadIn), (SO (so 1 1 3 4096) []), ((SO (so 1 1 3 4096) []).clock 5), (eccCount ((SO (so 1 1 3 4096)
    []).clock 5) (tileOfCore 12) ({}:SpadIn)), { zj with desc := so 1 1 3 4096 }, ?_, ?_, ?_, ?_, ?_, ?_, ?_, ?_, ?_⟩
    <;> first | with_reducible rfl | decide +kernel

theorem witness_CollectivesEnd_3 : ∃ (t : Nat) (job : Nat) (group : Nat) (part : Nat) (seq : Nat) (s : State) (e : State) (o :
    OpenColl) (g : Group), s.clock t = e ∧ openOf s job group part seq = some o ∧ groupOfPart s job group part = some g ∧
    collDone o g = true ∧ kRecEn o.desc = false := by
  refine ⟨5, 9, 2, 0, 7, (OE od), ((OE od).clock 5), od, zg, ?_, ?_, ?_, ?_, ?_⟩ <;> first | with_reducible rfl | decide +kernel

theorem witness_CollectivesEnd_4 : ∃ (t : Nat) (job : Nat) (group : Nat) (part : Nat) (seq : Nat) (x : Nat) (s : State) (e :
    State) (o : OpenColl) (g : Group), s.clock t = e ∧ openOf s job group part seq = some o ∧ groupOfPart s job group part =
    some g ∧ o.waitFrom + o.timeoutNs ≤ max s.now t ∧ (missingRanks o g).head? = some x ∧ kRecEn o.desc = false := by
  refine ⟨2000000, 9, 2, 0, 7, 1, (OE ot), ((OE ot).clock 2000000), ot, zg, ?_, ?_, ?_, ?_, ?_, ?_⟩
    <;> first | with_reducible rfl | decide +kernel

theorem witness_CollectivesEnd_5 : ∃ (t : Nat) (n : Nat) (s : State) (e : State) (o : OpenColl) (os : List OpenColl), s.clock t
    = e ∧ n < 8 ∧ 16 ≤ mget 0 s.coll.idle n ∧ serving s = true ∧ (s.coll.opens.filter (fun o => servedBy o n) = os) ∧ os = [] :=
    by
  refine ⟨2000000, 2, ON, (ON.clock 2000000), ot, [], ?_, ?_, ?_, ?_, ?_, ?_⟩ <;> first | with_reducible rfl | decide +kernel

theorem witness_CollectivesEnd_6 : ∃ (t : Nat) (c : Nat) (n : Nat) (si : SpadIn) (s : State) (e : State) (s1 : State) (j :
    Issued), s.clock t = e ∧ jobOf s c 5 n = some j ∧ coreLive e c = true ∧ j.fail = none ∧ oBlock j.desc ≠ 0 ∧ blockEligible e
    c j = true ∧ eccCount e (tileOfCore c) si = s1 ∧ badIn si (oSrc j.desc + j.sent * oBlock j.desc) (oBlock j.desc) = true :=
    by
  refine ⟨5, 12, 0, ({bad := [9]}:SpadIn), (SO (so 1 1 3 4096) []), ((SO (so 1 1 3 4096) []).clock 5), (eccCount ((SO (so 1 1 3
    4096) []).clock 5) (tileOfCore 12) ({bad := [9]}:SpadIn)), { zj with desc := so 1 1 3 4096 }, ?_, ?_, ?_, ?_, ?_, ?_,
    ?_, ?_⟩ <;> first | with_reducible rfl | decide +kernel

theorem witness_CollectivesEnd_7 : ∃ (t : Nat) (c : Nat) (n : Nat) (si : SpadIn) (s : State) (e : State) (s1 : State) (j :
    Issued) (og : OpenColl × Group), s.clock t = e ∧ jobOf s c 5 n = some j ∧ coreLive e c = true ∧ j.fail = none ∧ oBlock
    j.desc ≠ 0 ∧ blockEligible e c j = true ∧ eccCount e (tileOfCore c) si = s1 ∧ badIn si (oSrc j.desc + j.sent * oBlock
    j.desc) (oBlock j.desc) = false ∧ oTarget j.desc = 0 ∧ streamColl e c j (oOffset j.desc + j.sent * oBlock j.desc) = some og
    ∧ kCount og.1.desc * inSize og.1.desc ≥ oOffset j.desc + j.sent * oBlock j.desc + oBlock j.desc := by
  refine ⟨5, 12, 0, ({}:SpadIn), (SO (so 0 0 0 0) [os_]), ((SO (so 0 0 0 0) [os_]).clock 5), (eccCount ((SO (so 0 0 0 0)
    [os_]).clock 5) (tileOfCore 12) ({}:SpadIn)), { zj with desc := so 0 0 0 0 }, (os_, zg), ?_, ?_, ?_, ?_, ?_, ?_, ?_, ?_,
    ?_, ?_, ?_⟩ <;> first | with_reducible rfl | decide +kernel

end Sys2Proof.Tests.C11

/-! ## Witnesses: 12a host -/

namespace Sys2Proof.Tests.C12a
open Sys2Proof.Machine

def hb1 : Buf := { session := 9, handle := 1, owner := 1, attr := 0, size := 2097152, base := 274877906944, width := 1, pages := [.frame 3 5], holder := 0 }
def H0 : State := { inService [(1, {wPart .running with session := 9})] with host := { linkUp := true, fns := [(2, { bme := true, vecs := [(3, {masked := false})] }), (0, {bme := true})] }, place := { bufs := [(1, hb1)], nextBuf := 2 }, stks := [(3, wStack)] }
def H1 : State := { H0 with sess := { H0.sess with parts := [(1, {wPart .fenced with session := 9})] }, mbx := { H0.mbx with boxes := [(2, {reqTail := 4, reqHead := 1, rspTail := 3, irqEn := false})], flight := [{mb := 2, opcode := 0x902, seq := 3, kind := .replay, takenAt := 0}] }, host := { H0.host with sysErr := [(2, 7)], ide := [(4, {secure := true}), (5, {secure := true})] }, keys := { spdm := [(2, {live := true})] }, evt := { bits := [(2*512 + 7, {mask := true})] } }
def sb : SectorBuf := {sector := 5, data := List.replicate 128 9, pending := true}
def cel : Cellar := { lent := true, slots := 2, table := [(5, { epoch := 0, count := 3, data := List.replicate 128 7, pmap := 3 })], buf := [sb] }
def H2 : State := { H0 with host := { H0.host with sysErr := [(2, 7)] }, mbx := { H0.mbx with boxes := [(2, {violCount := 9})] }, evt := {pins := [(1, {glitches := 5})] }, tick := { rc := [(2, {oow := 3, loss := 5})], overruns := [(4*2+1, 6), (4*3+2,1)] }, boot := { H0.boot with mapBuilt := true } , tiles := [(72, { eccCorr := 4, eccUncorr := 2 })], cores := [(288, {stall := none})] }

theorem witness_Bar4RequestsAct_1 : ∃ (t : Nat) (f : Nat) (off : Nat) (n : Nat) (c : Nat) (ins : Bool) (data : List Byte) (s :
    State) (e : State), s.host.linkUp = true ∧ 1 ≤ f ∧ f ≤ 4 ∧ 0 < n ∧ (c = if (fnOf s f).d3 = true then 1 else if pstate s (f -
    1) ∈ [.fenced, .resetting, .winnowing, .dormant] ∨ (fenceOf s (f - 1)).isSome = true then 2 else if ideOutside s f off ins =
    true then 1 else if ideFailed s f = true then 2 else if bar4Mapped s f off n = false then 1 else 0) ∧ (e = (if (fnOf s f).d3
    = false ∧ pstate s (f - 1) ∉ [.fenced, .resetting, .winnowing, .dormant] ∧ (fenceOf s (f - 1)).isSome = false ∧ ideOutside s
    f off ins = true then setPartRec (s.clock t) (f - 1)
    { partRec s (f - 1) with ideViol := satAdd max16 (partRec s (f - 1)).ideViol 1 } else s.clock t)) ∧ c = 0 ∧ rangeReady
    (s.clock t) (274877906944 * (f - 1) + off) n = true ∧ data.length = n := by
  refine ⟨5, 2, 64, 4, 0, false, [1,2,3,4], H0, ((if (fnOf H0 2).d3 = false ∧ pstate H0 (2 - 1) ∉ [.fenced, .resetting,
    .winnowing, .dormant] ∧ (fenceOf H0 (2 - 1)).isSome = false ∧ ideOutside H0 2 64 false = true then setPartRec (H0.clock 5)
    (2 - 1) { partRec H0 (2 - 1) with ideViol := satAdd max16 (partRec H0 (2 - 1)).ideViol 1 } else H0.clock 5)), ?_, ?_,
    ?_, ?_, ?_, ?_, ?_, ?_, ?_⟩ <;> first | with_reducible rfl | decide +kernel

theorem witness_Bar4RequestsAct_2 : ∃ (t : Nat) (f : Nat) (off : Nat) (n : Nat) (c : Nat) (ins : Bool) (data : List Byte) (s :
    State) (e : State), s.host.linkUp = true ∧ 1 ≤ f ∧ f ≤ 4 ∧ 0 < n ∧ (c = if (fnOf s f).d3 = true then 1 else if pstate s (f -
    1) ∈ [.fenced, .resetting, .winnowing, .dormant] ∨ (fenceOf s (f - 1)).isSome = true then 2 else if ideOutside s f off ins =
    true then 1 else if ideFailed s f = true then 2 else if bar4Mapped s f off n = false then 1 else 0) ∧ (e = (if (fnOf s f).d3
    = false ∧ pstate s (f - 1) ∉ [.fenced, .resetting, .winnowing, .dormant] ∧ (fenceOf s (f - 1)).isSome = false ∧ ideOutside s
    f off ins = true then setPartRec (s.clock t) (f - 1)
    { partRec s (f - 1) with ideViol := satAdd max16 (partRec s (f - 1)).ideViol 1 } else s.clock t)) ∧ c ≠ 0 ∧ data.length = n
    := by
  refine ⟨5, 2, 64, 4, 1, false, [1,2,3,4],
    { H0 with host := { H0.host with ide := [(4, {secure := true, assoc := [(0, 128)]})]} }, (setPartRec (H0.clock 5) 1
    { ideViol := 1 } |> fun s => { s with host := { H0.host with ide := [(4, {secure := true, assoc := [(0, 128)]})]} } ),
    ?_, ?_, ?_, ?_, ?_, ?_, ?_, ?_⟩ <;> first | with_reducible rfl | decide +kernel

theorem witness_HostPortChanges_1 : ∃ (t : Nat) (f : Nat) (g : Nat) (p : Nat) (i : Nat) (width : Nat) (s : State) (b :
    SectorBuf), s.host.linkUp = true ∧ f < 5 ∧ width ∈ [1, 2, 4, 8, 16] ∧ s.sess.pkg.isSome = true ∧ p < 4 ∧ (cellarOf s p).lent
    = true ∧ (mfind (cellarOf s p).table g).isSome = true ∧ (cellarBuf s p g = none ∨ cellarBuf s p g = some b ∧ b.pending =
    true) ∧ (mfind s.host.blockedSince (p + 1) = none ∨ mfind s.host.blockedSince (p + 1) = some i ∧ i + 10000000 ≤ max s.now t)
    ∧ (((cellarOf s p).buf.filter (fun x => x.sector != g)).length < 64) ∧ 1 ≤ f ∧ f ≤ 4 ∧ i < 2 := by
  refine ⟨5, 2, 5, 1, 0, 8, { H1 with cellars := [(1, cel)] }, sb, ?_, ?_, ?_, ?_, ?_, ?_, ?_, ?_, ?_, ?_, ?_, ?_, ?_⟩
    <;> first | with_reducible rfl | decide +kernel

theorem witness_RegistersAct_1 : ∃ (f : Nat) (off : Nat) (c : Nat) (ins : Bool) (bs : List Byte) (s : State), barOpen s f off =
    true ∧ rcOffset f off = true ∧ off % 4 = 0 ∧ (rcOffset f off = true ∨ rcOffset f (off + 4) = true) ∧ off % 8 = 0 ∧ coreReady
    s c = true ∧ s.host.linkUp = true ∧ f < 5 ∧ off + bs.length ≤ 65536 ∧ (f = 0 ∨ ideOutside s f off ins = false) := by
  refine ⟨2, 0x1018, 288, false, [1,2], H2, ?_, ?_, ?_, ?_, ?_, ?_, ?_, ?_, ?_, ?_⟩
    <;> first | with_reducible rfl | decide +kernel

theorem witness_RegistersAct_2 : ∃ (f : Nat) (off : Nat) (n : Nat) (c : Nat) (s : State), barOpen s f off = true ∧ ((n ≠ 4 ∧ n ≠
    8) ∨ off % n ≠ 0 ∨ (8 ≤ off ∧ off < 0x1000) ∨ (0x5000 ≤ off ∧ off < 0x8000) ∨ (0x8400 ≤ off ∧ off < 0x9000) ∨ 0x9008 ≤ off)
    ∧ coreReady s c = true ∧ 0x7C0 ≤ off ∧ off ≤ 0x7C6 := by
  refine ⟨2, 0x7C3, 3, 288, H2, ?_, ?_, ?_, ?_, ?_⟩ <;> first | with_reducible rfl | decide +kernel

theorem witness_RegistersAct_3 : ∃ (f : Nat) (off : Nat) (s : State), s.host.linkUp = true ∧ f < 5 ∧ barOpen s f off = false :=
    by
  refine ⟨2, 0x2300, H1, ?_, ?_, ?_⟩ <;> first | with_reducible rfl | decide +kernel

theorem witness_RegistersAct_4 : ∃ (f : Nat) (off : Nat) (data : Nat) (s : State), barOpen s f off = true ∧ off % 4 = 0 ∧ off =
    0x1014 ∧ bit data 0 = false ∧ data < 4294967296 := by
  refine ⟨2, 0x1014, 6, H2, ?_, ?_, ?_, ?_, ?_⟩ <;> first | with_reducible rfl | decide +kernel

theorem witness_RegistersAct_5 : ∃ (f : Nat) (off : Nat) (s : State), barOpen s f off = true ∧ off % 4 = 0 ∧ 0x2100 ≤ off ∧ off
    < 0x2300 := by
  refine ⟨2, 0x2104, H2, ?_, ?_, ?_, ?_⟩ <;> first | with_reducible rfl | decide +kernel

theorem witness_RegistersAct_6 : ∃ (f : Nat) (off : Nat) (data : Nat) (s : State), barOpen s f off = true ∧ off % 4 = 0 ∧ 0x8000
    ≤ off ∧ off < 0x8400 ∧ data < 4294967296 := by
  refine ⟨2, 0x803C, 0x0A0B0C0D, H2, ?_, ?_, ?_, ?_, ?_⟩ <;> first | with_reducible rfl | decide +kernel

theorem witness_RegistersAct_7 : ∃ (f : Nat) (off : Nat) (ins : Bool) (bs : List Byte) (s : State), s.host.linkUp = true ∧ 1 ≤ f
    ∧ f < 5 ∧ off + bs.length ≤ 65536 ∧ ideOutside s f off ins = true := by
  refine ⟨2, 64, false, [1,2], { H0 with host := { H0.host with ide := [(4, {secure := true, assoc := [(0, 128)]})]} }, ?_, ?_,
    ?_, ?_, ?_⟩ <;> first | with_reducible rfl | decide +kernel

end Sys2Proof.Tests.C12a

/-! ## Witnesses: 12b ethernet -/

namespace Sys2Proof.Tests.C12b
open Sys2Proof.Machine

def wr (op len la : Nat) (sig : Bool := true) : Nat := packBits [(op,4),(0,1),(b2n sig,1),(1,1),(0,1),(0,12),(3,12)] + la * 2^64 + len * 2^112 + 5 * 2^208
def ebuf : Buf := { session := 9, handle := 1, owner := 0, attr := 0, size := 2097152, base := 0x200000, width := 1, pages := [.frame 1 5], holder := 0 }
def ch0 : Chan := { enable := true, dbCc := 9, ringEntries := 4, ringSpace := 2, ringAddr := 0x200000, head := 5 }
def q0 : Qp := { part := 0, port := 1, gid := 2, pmtu := 1024, st := .rts, send := ch0, recv := ch0, retry := 3 , ackN := 1, rqPsn := 100}
def E0 (q : Qp) (rx : List EthFrame := []) : State := { inService [(0, wPart .running)] with place := { bufs := [(4, ebuf)] }, stks := [(1, wStack)], ccs := [(9, 6)], eth := { qps := [(7, q)], ports := [(1, {linkUp := true, rx := rx})], gids := [(16+3, {addr := 77, owner := 0})], mrs := [(5, { part := 0, session := 9, buf := 4, base := 0x200000, len := 256, rights := 3})] } }
def put (s : State) (a : Nat) (bs : List Byte) : State := (maWrite s 2 a bs {}).1
def w0 : QpWork := {desc := wr 1 8 0x200040, index := 3}
def Ef := put (E0 q0) 0x200040 (leBytes 64 (wr 1 8 0x200040))
def rr := ringRead (Ef.clock 5) 0 2 ch0 1 {} {}
def mie : MemIn := { errs := [⟨1, 81920, [0,1,2,3,5,8]⟩] }
def q1 (d : Nat) : Qp := { q0 with sendWork := [{desc := d, index := 3}], recvWork := [{desc := d, index := 2}], timer := some 1, tries := 3 }
def S1 (d : Nat) := E0 (q1 d)
def mr (d : Nat) (mi : MemIn := {}) := maRead ((S1 d).clock 50000) 2 (rLocal d) (rLen d) mi
def w5 : QpWork := {desc := wr 5 8 0x200040, index := 3}
def w4 : QpWork := {desc := wr 4 0 0x200040, index := 3}
def w8 : QpWork := {desc := wr 8 8 0x200040, index := 2}
def q2 (e : Nat) (sent : Bool := false): Qp := { q0 with sendWork := [{w0 with ends := some (e,8,0)}, {w5 with index := 4}], recvWork := [{w8 with ends := some (e,4,77)}, {w8 with sent := sent}], timer := some 1 }
def q3 (tr : Nat) : Qp := { q0 with sendWork := [{w0 with sent := true, psn := 44}, {w5 with index := 4}], timer := some 1, tries := tr }
def EA (m : RoceMsg) (q : Qp := q0) (ce : Bool := false) (psn : Nat := 100) (n : Nat := 64) := E0 q [.roce 7 ce psn n m, .other]
def pf (m : RoceMsg) (q : Qp := q0) := popFrame ((EA m q).clock 5) 1
def ms1 : RoceMsg := .write none 0x200000 5 [1,2,3]
def ms2 : RoceMsg := .read 0x200000 5 4
def ms3 : RoceMsg := .read 0x200000 6 4
def ms4 : RoceMsg := .write none 0x200000 6 [1,2]
def ms5 : RoceMsg := .send (some 7) [1,2]
def w8s : QpWork := {w8 with sent := true}
def q5 : Qp := { q0 with recvWork := [w8s] }
def ms6 : RoceMsg := .send none [1,2,3,4,5,6,7,8,9]
def Ff : State := { EA .absent q5 with sess := { pkg := some .configured, parts := [(0, wPart .fenced)] } }
def ac := opAsk 0x230 0 (1 + 16*3 + 256)
def mw (st : Nat) : Nat := packBits [(5,128),(9,24),(11,24),(13,24),(st,3),(3,5),(2,3),(1,3),(0,2),(99,48),(6,12),(1,1)]
def mo (_ : Nat) (st : QpState) : State := E0 {q0 with st := st, sendWork := [w0], timer := some 4}
def am (n : Nat) := opAsk 0x231 0 7 (leBytes 64 (mw n))
def ad := opAsk 0x232 0 7
def ag (len : Nat) := opAsk 0x234 0 (1 + 3*2^32 + 64*2^64 + len*2^128)
def ax := opAsk 0x235 0 5

theorem witness_QpsAct_1 : ∃ (t : Nat) (q : Nat) (d : Nat) (n : Nat) (rv : Bool) (mi : MemIn) (si : SpadIn) (s : State) (s1 :
    State) (v : Qp) (c : Chan) (w : QpWork) (e : Nat × Nat × Nat), qpOf s q = some v ∧ (c = (if rv = true then v.recv else
    v.send)) ∧ v.st ≠ .reset ∧ refusing s v.part = false ∧ doorbellAhead s v.part c = true ∧ ringReady (s.clock t) v.part c
    (c.head % c.ringEntries) = true ∧ s1.eth = s.eth ∧ ringRead (s.clock t) v.part 2 c (c.head % c.ringEntries) mi si = (s1,
    some d) ∧ n = (c.head + 1) % 4294967296 ∧ wrReason rv d = none ∧ (w =
    { desc := d, index := c.head, ends := if v.st = .error then some (0x13, 0, 0) else (wrRefusal s1 v.part d).map (fun e => (e, 0, 0)) })
    := by
  refine ⟨5, 7, (rr.2.getD 0), 6, false, ({}:MemIn), ({}:SpadIn), Ef, rr.1, q0, ch0, { desc := rr.2.getD 0, index := 5 }, (0,0,0),
    ?_, ?_, ?_, ?_, ?_, ?_, ?_, ?_, ?_, ?_, ?_⟩ <;> first | with_reducible rfl | decide +kernel

theorem witness_QpsAct_2 : ∃ (t : Nat) (q : Nat) (op : Nat) (rv : Bool) (mi : MemIn) (si : SpadIn) (s : State) (s1 : State) (v :
    Qp) (c : Chan) (w : QpWork) (bs : List Byte) (bad : List Nat) (x : Instr), qpOf s q = some v ∧ (c = (if rv = true then
    v.recv else v.send)) ∧ v.st ≠ .reset ∧ refusing s v.part = false ∧ doorbellAhead s v.part c = true ∧ ringReady (s.clock t)
    v.part c (c.head % c.ringEntries) = true ∧ s1.eth = s.eth ∧ ringRead (s.clock t) v.part 2 c (c.head % c.ringEntries) mi si =
    (s1, none) ∧ (op, x) ∈ [(1, Instr.roceSend t q mi), (2, .roceSendImm t q mi), (3, .roceWrite t q mi), (4, .roceWriteImm t q
    mi), (5, .roceRead t q)] ∧ nextSend v.sendWork = some w ∧ rOp w.desc = op ∧ v.st = .rts ∧ wrWait s v.part w.desc = true ∧
    rLen w.desc ≠ 0 ∧ maySend (s.clock t) v = true ∧ op < 5 ∧ rangeReady (s.clock t) (rLocal w.desc) (rLen w.desc) = true ∧
    s1.now = max s.now t ∧ maRead (s.clock t) 2 (rLocal w.desc) (rLen w.desc) mi = (s1, bs, bad) ∧ bad ≠ [] := by
  refine ⟨50000, 7, 1, false, mie, ({}:SpadIn), (S1 w0.desc), (mr w0.desc mie).1, (q1 w0.desc), ch0, w0, (mr w0.desc mie).2.1, (mr
    w0.desc mie).2.2, (.roceSend 50000 7 mie), ?_, ?_, ?_, ?_, ?_, ?_, ?_, ?_, ?_, ?_, ?_, ?_, ?_, ?_, ?_, ?_, ?_, ?_, ?_, ?_⟩
    <;> first | with_reducible rfl | decide +kernel

theorem witness_QpsAct_3 : ∃ (t : Nat) (q : Nat) (n : Nat) (s : State) (v : Qp) (w : QpWork), qpOf s q = some v ∧ v.timer = some
    n ∧ v.st = .rts ∧ n + 4096 * 2 ^ v.ackN < max s.now t ∧ v.sendWork.find? awaiting = some w ∧ v.tries < v.retry ∧ v.rateAt +
    55000 ≤ max s.now t := by
  refine ⟨60000, 7, 1, (E0 (q3 2)), (q3 2), {w0 with sent := true, psn := 44}, ?_, ?_, ?_, ?_, ?_, ?_, ?_⟩
    <;> first | with_reducible rfl | decide +kernel

theorem witness_QpsAct_4 : ∃ (t : Nat) (q : Nat) (op : Nat) (mi : MemIn) (s : State) (s1 : State) (v : Qp) (w : QpWork) (bs :
    List Byte) (bad : List Nat) (x : Instr), qpOf s q = some v ∧ (op, x) ∈ [(1, Instr.roceSend t q mi), (2, .roceSendImm t q
    mi), (3, .roceWrite t q mi), (4, .roceWriteImm t q mi), (5, .roceRead t q)] ∧ nextSend v.sendWork = some w ∧ rOp w.desc = op
    ∧ v.st = .rts ∧ wrWait s v.part w.desc = true ∧ rLen w.desc ≠ 0 ∧ maySend (s.clock t) v = true ∧ op < 5 ∧ rangeReady
    (s.clock t) (rLocal w.desc) (rLen w.desc) = true ∧ s1.eth = s.eth ∧ s1.now = max s.now t ∧ maRead (s.clock t) 2 (rLocal
    w.desc) (rLen w.desc) mi = (s1, bs, bad) ∧ bad = [] := by
  refine ⟨50000, 7, 1, ({}:MemIn), (S1 w0.desc), (mr w0.desc).1, (q1 w0.desc), w0, (mr w0.desc).2.1, (mr w0.desc).2.2, (.roceSend
    50000 7 {}), ?_, ?_, ?_, ?_, ?_, ?_, ?_, ?_, ?_, ?_, ?_, ?_, ?_, ?_⟩ <;> first | with_reducible rfl | decide +kernel

theorem witness_QpsAct_5 : ∃ (t : Nat) (q : Nat) (op : Nat) (mi : MemIn) (s : State) (v : Qp) (w : QpWork) (x : Instr), qpOf s q
    = some v ∧ (op, x) ∈ [(1, Instr.roceSend t q mi), (2, .roceSendImm t q mi), (3, .roceWrite t q mi), (4, .roceWriteImm t q
    mi), (5, .roceRead t q)] ∧ nextSend v.sendWork = some w ∧ rOp w.desc = op ∧ v.st = .rts ∧ wrWait s v.part w.desc = true ∧
    rLen w.desc ≠ 0 ∧ maySend (s.clock t) v = true ∧ op = 5 := by
  refine ⟨50000, 7, 5, ({}:MemIn), (S1 w5.desc), (q1 w5.desc), w5, (.roceRead 50000 7), ?_, ?_, ?_, ?_, ?_, ?_, ?_, ?_, ?_⟩
    <;> first | with_reducible rfl | decide +kernel

theorem witness_QpsAct_6 : ∃ (t : Nat) (q : Nat) (op : Nat) (mi : MemIn) (s : State) (v : Qp) (w : QpWork) (x : Instr), qpOf s q
    = some v ∧ (op, x) ∈ [(1, Instr.roceSend t q mi), (2, .roceSendImm t q mi), (3, .roceWrite t q mi), (4, .roceWriteImm t q
    mi), (5, .roceRead t q)] ∧ nextSend v.sendWork = some w ∧ rOp w.desc = op ∧ v.st = .rts ∧ wrWait s v.part w.desc = true ∧
    rLen w.desc = 0 := by
  refine ⟨50000, 7, 4, ({}:MemIn), (S1 w4.desc), (q1 w4.desc), w4, (.roceWriteImm 50000 7 {}), ?_, ?_, ?_, ?_, ?_, ?_, ?_⟩
    <;> first | with_reducible rfl | decide +kernel

theorem witness_QpsAct_7 : ∃ (q : Nat) (s : State) (v : Qp) (w : QpWork), qpOf s q = some v ∧ (v.recvWork.find? (fun w =>
    w.ends.isNone && !w.sent) = some w) ∧ v.st ∉ [.reset, .error] ∧ wrWait s v.part w.desc = true := by
  refine ⟨7, (S1 w8.desc), (q1 w8.desc), w8, ?_, ?_, ?_, ?_⟩ <;> first | with_reducible rfl | decide +kernel

theorem witness_QpsAct_8 : ∃ (q : Nat) (rv : Bool) (s : State) (v : Qp) (w : QpWork) (l : List QpWork) (e : Nat × Nat × Nat),
    qpOf s q = some v ∧ ((if rv = true then v.recvWork else v.sendWork) = w :: l) ∧ w.ends = some e := by
  refine ⟨7, false, (E0 (q2 0)), (q2 0), {w0 with ends := some (0,8,0)}, [{w5 with index := 4}], (0,8,0), ?_, ?_, ?_⟩
    <;> first | with_reducible rfl | decide +kernel

theorem witness_QpsAct_9 : ∃ (t : Nat) (q : Nat) (n : Nat) (s : State) (v : Qp) (w : QpWork), qpOf s q = some v ∧ v.timer = some
    n ∧ v.st = .rts ∧ n + 4096 * 2 ^ v.ackN < max s.now t ∧ v.sendWork.find? awaiting = some w ∧ v.retry ≤ v.tries := by
  refine ⟨60000, 7, 1, (E0 (q3 3)), (q3 3), {w0 with sent := true, psn := 44}, ?_, ?_, ?_, ?_, ?_, ?_⟩
    <;> first | with_reducible rfl | decide +kernel

theorem witness_QpsAct_10 : ∃ (q : Nat) (d : Nat) (n : Nat) (rv : Bool) (s : State) (v : Qp) (fs : List EthFrame), qpOf s q =
    some v ∧ (portOf s v.port).rx = .roce q rv n d .cnp :: fs := by
  refine ⟨7, 64, 8, true, (E0 {q0 with lastCut := some 0} [.roce 7 true 8 64 .cnp, .other]), {q0 with lastCut := some 0},
    [.other], ?_, ?_⟩ <;> first | with_reducible rfl | decide +kernel

theorem witness_EthernetPortsAct_1 : ∃ (t : Nat) (p : Nat) (a : Nat) (q : Nat) (psn : Nat) (n : Nat) (va : Nat) (key : Nat) (k :
    Nat) (m : RoceMsg) (bs : List Byte) (mi : MemIn) (s : State) (s1 : State) (v : EthPort) (y : Qp) (fs : List EthFrame) (bad :
    List Nat), p < 2 ∧ portOf s p = v ∧ v.linkUp = true ∧ ownAddr s p a = true ∧ rxBytes v + n ≤ 8 * 2 ^ 20 ∧ k < 8 ∧
    s.sess.pkg.isSome = true ∧ v.rx = .roce q false psn n m :: fs ∧ qpOf s q = some y ∧ y.port = p ∧ isAnswer m = false ∧ m ≠
    .cnp ∧ inboundReady (popFrame (s.clock t) p) y m = true ∧ inboundReady (s.clock t) y m = true ∧ refusing s y.part = false ∧
    (y.st = .rtr ∨ y.st = .rts) ∧ psn = y.rqPsn ∧ m = .write none va key bs ∧ bs ≠ [] ∧ regionOk s y key va bs.length 1 = true ∧
    maWrite (popFrame (s.clock t) p) 2 va bs mi = (s1, bad) := by
  refine ⟨5, 1, 77, 7, 100, 64, 0x200000, 5, 3, ms1, [1,2,3], ({}:MemIn), (EA ms1), (maWrite (pf ms1) 2 0x200000 [1,2,3] {}).1,
    (portOf (EA ms1) 1), q0, [.other], [], ?_, ?_, ?_, ?_, ?_, ?_, ?_, ?_, ?_, ?_, ?_, ?_, ?_, ?_, ?_, ?_, ?_, ?_, ?_, ?_, ?_⟩
    <;> first | with_reducible rfl | decide +kernel

theorem witness_EthernetPortsAct_2 : ∃ (p : Nat) (a : Nat) (q : Nat) (psn : Nat) (n : Nat) (ce : Bool) (m : RoceMsg) (s : State)
    (v : EthPort) (fs : List EthFrame), p < 2 ∧ portOf s p = v ∧ v.linkUp = true ∧ ownAddr s p a = false ∧ 8 * 2 ^ 20 < rxBytes
    v + n ∧ v.rx = .roce q ce psn n m :: fs ∧ qpOf s q = none := by
  refine ⟨1, 78, 8, 100, (7*2^20), false, ms1, (E0 q0 [.roce 8 false 100 (7*2^20) ms1]), (portOf (E0 q0 [.roce 8 false 100
    (7*2^20) ms1]) 1), [], ?_, ?_, ?_, ?_, ?_, ?_, ?_⟩ <;> first | with_reducible rfl | decide +kernel

theorem witness_EthernetPortsAct_3 : ∃ (t : Nat) (p : Nat) (q : Nat) (psn : Nat) (n : Nat) (va : Nat) (key : Nat) (k : Nat) (m :
    RoceMsg) (bs : List Byte) (mi : MemIn) (s : State) (s1 : State) (v : EthPort) (y : Qp) (fs : List EthFrame), p < 2 ∧ portOf
    s p = v ∧ v.rx = .roce q false psn n m :: fs ∧ qpOf s q = some y ∧ y.port = p ∧ isAnswer m = false ∧ m ≠ .cnp ∧ inboundReady
    (popFrame (s.clock t) p) y m = true ∧ inboundReady (s.clock t) y m = true ∧ refusing s y.part = false ∧ (y.st = .rtr ∨ y.st
    = .rts) ∧ psn = y.rqPsn ∧ m = .read va key k ∧ k ≠ 0 ∧ regionOk s y key va k 0 = true ∧ maRead (popFrame (s.clock t) p) 2 va
    k mi = (s1, bs, []) := by
  refine ⟨5, 1, 7, 100, 64, 0x200000, 5, 4, ms2, [0,0,0,0], ({}:MemIn), (EA ms2), (maRead (pf ms2) 2 0x200000 4 {}).1, (portOf (EA
    ms2) 1), q0, [.other], ?_, ?_, ?_, ?_, ?_, ?_, ?_, ?_, ?_, ?_, ?_, ?_, ?_, ?_, ?_, ?_⟩
    <;> first | with_reducible rfl | decide +kernel

theorem witness_EthernetPortsAct_4 : ∃ (t : Nat) (p : Nat) (q : Nat) (psn : Nat) (n : Nat) (va : Nat) (key : Nat) (k : Nat) (m :
    RoceMsg) (s : State) (v : EthPort) (y : Qp) (fs : List EthFrame), p < 2 ∧ portOf s p = v ∧ v.rx = .roce q false psn n m ::
    fs ∧ qpOf s q = some y ∧ y.port = p ∧ isAnswer m = false ∧ m ≠ .cnp ∧ inboundReady (popFrame (s.clock t) p) y m = true ∧
    inboundReady (s.clock t) y m = true ∧ refusing s y.part = false ∧ (y.st = .rtr ∨ y.st = .rts) ∧ psn = y.rqPsn ∧ m = .read va
    key k ∧ k ≠ 0 ∧ regionOk s y key va k 0 = false := by
  refine ⟨5, 1, 7, 100, 64, 0x200000, 6, 4, ms3, (EA ms3), (portOf (EA ms3) 1), q0, [.other], ?_, ?_, ?_, ?_, ?_, ?_, ?_, ?_,
    ?_, ?_, ?_, ?_, ?_, ?_, ?_⟩ <;> first | with_reducible rfl | decide +kernel

theorem witness_EthernetPortsAct_5 : ∃ (t : Nat) (p : Nat) (q : Nat) (psn : Nat) (n : Nat) (va : Nat) (key : Nat) (m : RoceMsg)
    (bs : List Byte) (s : State) (v : EthPort) (y : Qp) (fs : List EthFrame), p < 2 ∧ portOf s p = v ∧ v.rx = .roce q false psn
    n m :: fs ∧ qpOf s q = some y ∧ y.port = p ∧ isAnswer m = false ∧ m ≠ .cnp ∧ inboundReady (popFrame (s.clock t) p) y m =
    true ∧ inboundReady (s.clock t) y m = true ∧ refusing s y.part = false ∧ (y.st = .rtr ∨ y.st = .rts) ∧ psn = y.rqPsn ∧ m =
    .write none va key bs ∧ bs ≠ [] ∧ regionOk s y key va bs.length 1 = false := by
  refine ⟨5, 1, 7, 100, 64, 0x200000, 6, ms4, [1,2], (EA ms4), (portOf (EA ms4) 1), q0, [.other], ?_, ?_, ?_, ?_, ?_, ?_, ?_, ?_,
    ?_, ?_, ?_, ?_, ?_, ?_, ?_⟩ <;> first | with_reducible rfl | decide +kernel

theorem witness_EthernetPortsAct_6 : ∃ (t : Nat) (p : Nat) (q : Nat) (psn : Nat) (n : Nat) (m : RoceMsg) (imm : Option Nat) (bs
    : List Byte) (s : State) (v : EthPort) (y : Qp) (fs : List EthFrame), p < 2 ∧ portOf s p = v ∧ v.rx = .roce q false psn n m
    :: fs ∧ qpOf s q = some y ∧ y.port = p ∧ isAnswer m = false ∧ m ≠ .cnp ∧ inboundReady (popFrame (s.clock t) p) y m = true ∧
    inboundReady (s.clock t) y m = true ∧ refusing s y.part = false ∧ (y.st = .rtr ∨ y.st = .rts) ∧ psn = y.rqPsn ∧ m = .send
    imm bs ∧ nextRecv y = none := by
  refine ⟨5, 1, 7, 100, 64, ms5, (some 7), [1,2], (EA ms5), (portOf (EA ms5) 1), q0, [.other], ?_, ?_, ?_, ?_, ?_, ?_, ?_, ?_,
    ?_, ?_, ?_, ?_, ?_, ?_⟩ <;> first | with_reducible rfl | decide +kernel

theorem witness_EthernetPortsAct_7 : ∃ (t : Nat) (p : Nat) (q : Nat) (psn : Nat) (n : Nat) (m : RoceMsg) (imm : Option Nat) (bs
    : List Byte) (mi : MemIn) (s : State) (s1 : State) (v : EthPort) (y : Qp) (w : QpWork) (fs : List EthFrame) (bad : List
    Nat), p < 2 ∧ portOf s p = v ∧ v.rx = .roce q false psn n m :: fs ∧ qpOf s q = some y ∧ y.port = p ∧ isAnswer m = false ∧ m
    ≠ .cnp ∧ inboundReady (popFrame (s.clock t) p) y m = true ∧ inboundReady (s.clock t) y m = true ∧ refusing s y.part = false
    ∧ (y.st = .rtr ∨ y.st = .rts) ∧ psn = y.rqPsn ∧ m = .send imm bs ∧ nextRecv y = some w ∧ bs.length ≤ rLen w.desc ∧
    memRefusal s y.part true (rLocal w.desc) bs.length = none ∧ maWrite (popFrame (s.clock t) p) 2 (rLocal w.desc) bs mi = (s1,
    bad) := by
  refine ⟨5, 1, 7, 100, 64, ms5, (some 7), [1,2], ({}:MemIn), (EA ms5 q5), (maWrite (pf ms5 q5) 2 0x200040 [1,2] {}).1, (portOf
    (EA ms5 q5) 1), q5, w8s, [.other], [], ?_, ?_, ?_, ?_, ?_, ?_, ?_, ?_, ?_, ?_, ?_, ?_, ?_, ?_, ?_, ?_, ?_⟩
    <;> first | with_reducible rfl | decide +kernel

theorem witness_EthernetPortsAct_8 : ∃ (t : Nat) (p : Nat) (q : Nat) (psn : Nat) (n : Nat) (m : RoceMsg) (imm : Option Nat) (bs
    : List Byte) (s : State) (v : EthPort) (y : Qp) (w : QpWork) (fs : List EthFrame), p < 2 ∧ portOf s p = v ∧ v.rx = .roce q
    false psn n m :: fs ∧ qpOf s q = some y ∧ y.port = p ∧ isAnswer m = false ∧ m ≠ .cnp ∧ inboundReady (popFrame (s.clock t) p)
    y m = true ∧ inboundReady (s.clock t) y m = true ∧ refusing s y.part = false ∧ (y.st = .rtr ∨ y.st = .rts) ∧ psn = y.rqPsn ∧
    m = .send imm bs ∧ nextRecv y = some w ∧ rLen w.desc < bs.length := by
  refine ⟨5, 1, 7, 100, 64, ms6, none, [1,2,3,4,5,6,7,8,9], (EA ms6 q5), (portOf (EA ms6 q5) 1), q5, w8s, [.other], ?_, ?_,
    ?_, ?_, ?_, ?_, ?_, ?_, ?_, ?_, ?_, ?_, ?_, ?_, ?_⟩ <;> first | with_reducible rfl | decide +kernel

theorem witness_EthernetPortsAct_9 : ∃ (t : Nat) (p : Nat) (q : Nat) (psn : Nat) (n : Nat) (m : RoceMsg) (s : State) (v :
    EthPort) (y : Qp) (fs : List EthFrame), p < 2 ∧ portOf s p = v ∧ v.rx = .roce q false psn n m :: fs ∧ qpOf s q = some y ∧
    y.port = p ∧ isAnswer m = false ∧ m ≠ .cnp ∧ inboundReady (popFrame (s.clock t) p) y m = true ∧ inboundReady (s.clock t) y m
    = true ∧ refusing s y.part = false ∧ (y.st = .rtr ∨ y.st = .rts) ∧ m = .absent := by
  refine ⟨5, 1, 7, 100, 64, .absent, (EA .absent q5), (portOf (EA .absent q5) 1), q5, [.other], ?_, ?_, ?_, ?_, ?_, ?_, ?_, ?_,
    ?_, ?_, ?_, ?_⟩ <;> first | with_reducible rfl | decide +kernel

theorem witness_EthernetPortsAct_10 : ∃ (t : Nat) (p : Nat) (q : Nat) (psn : Nat) (n : Nat) (m : RoceMsg) (s : State) (v :
    EthPort) (y : Qp) (fs : List EthFrame), p < 2 ∧ portOf s p = v ∧ v.rx = .roce q false psn n m :: fs ∧ qpOf s q = some y ∧
    y.port = p ∧ isAnswer m = false ∧ m ≠ .cnp ∧ inboundReady (popFrame (s.clock t) p) y m = true ∧ inboundReady (s.clock t) y m
    = true ∧ refusing s y.part = true := by
  refine ⟨5, 1, 7, 100, 64, .absent, Ff, (portOf Ff 1), q5, [.other], ?_, ?_, ?_, ?_, ?_, ?_, ?_, ?_, ?_, ?_⟩
    <;> first | with_reducible rfl | decide +kernel

theorem witness_EthernetCommandsAct_1 : ∃ (t : Nat) (a : MbxArgs) (s : State) (r : Req), r.f 0 8 ≤ 128 ∧ Accepts (s.clock t) a
    { opcode := 0x0204, rights := 1, pkg := .uc, partUse := .pkg } {} r := by
  refine ⟨5, (opAsk 0x204 4 (64 + 5*2^128)), (E0 q0), (asked (E0 q0) (opAsk 0x204 4 (64 + 5*2^128))), ?_, ⟨?_, ?_, ?_⟩⟩
    <;> first | with_reducible rfl | decide +kernel

theorem witness_EthernetCommandsAct_2 : ∃ (t : Nat) (a : MbxArgs) (s : State) (r : Req), (r.f 8 3 ≤ 3 ∨ r.f 8 3 = 7) ∧ (∀ e ∈
    s.eth.qps, ¬(e.2.port = r.f 0 1 ∧ e.2.gid = r.f 4 4)) ∧ Accepts (s.clock t) a
    { opcode := 0x0205, rights := 1, pkg := .uc, partUse := .pkg } {} r := by
  refine ⟨5, (opAsk 0x205 4 (1 + 16*3 + 256 + 5*2^128)), (E0 q0), (asked (E0 q0) (opAsk 0x205 4 (1 + 16*3 + 256 + 5*2^128))),
    ?_, ?_, ⟨?_, ?_, ?_⟩⟩ <;> first | with_reducible rfl | decide +kernel

theorem witness_EthernetCommandsAct_3 : ∃ (t : Nat) (q : Nat) (a : MbxArgs) (s : State) (r : Req), r.f 8 2 ≠ 3 ∧ (gidOf s (r.f 0
    1) (r.f 4 4)).owner = r.part ∧ (choose s 0 ((List.range 4096).filter (fun q => (qpOf s q).isNone)) = some q) ∧ (qpsOf s
    r.part).length < cfg s 0x68 r.part ∧ Accepts (s.clock t) a
    { opcode := 0x0230, rights := 3, pkg := .c, partUse := .one, parts := some [.assigned, .running], resp := 4 } {} r := by
  refine ⟨5, ((choose (E0 q0) 0 ((List.range 4096).filter (fun q => (qpOf (E0 q0) q).isNone))).getD 0), ac, (E0 q0), (asked (E0
    q0) ac), ?_, ?_, (choose_some _ _ _ (by decide +kernel)), ?_, ⟨?_, ?_, ?_⟩⟩ <;> first | with_reducible rfl | decide +kernel

theorem witness_EthernetCommandsAct_4 : ∃ (t : Nat) (q : Nat) (w : Nat) (a : MbxArgs) (s : State) (r : Req) (v : Qp), q = r.f 0
    12 ∧ w = leNat r.payload ∧ qpOf s q = some v ∧ v.part = r.part ∧ qpMove v.st (bits w 200 3) = true ∧ bits w 200 3 ≤ 4 ∧ 1 ≤
    bits w 203 5 ∧ bits w 214 2 = 0 ∧ bits w 277 235 = 0 ∧ Accepts (s.clock t) a
    { opcode := 0x0231, rights := 3, pkg := .c, partUse := .one, parts := some [.assigned, .running], lenOk := (· == 64) } {} r
    ∧ bits w 200 3 = 0 := by
  refine ⟨5, 7, (mw 0), (am 0), (mo 0 .rts), (asked (mo 0 .rts) (am 0)), {q0 with st := .rts, sendWork := [w0], timer := some 4},
    ?_, ?_, ?_, ?_, ?_, ?_, ?_, ?_, ?_, ⟨?_, ?_, ?_⟩, ?_⟩ <;> first | with_reducible rfl | decide +kernel

theorem witness_EthernetCommandsAct_5 : ∃ (t : Nat) (q : Nat) (w : Nat) (a : MbxArgs) (s : State) (r : Req) (v : Qp), q = r.f 0
    12 ∧ w = leNat r.payload ∧ qpOf s q = some v ∧ v.part = r.part ∧ qpMove v.st (bits w 200 3) = true ∧ bits w 200 3 ≤ 4 ∧ 1 ≤
    bits w 203 5 ∧ bits w 214 2 = 0 ∧ bits w 277 235 = 0 ∧ Accepts (s.clock t) a
    { opcode := 0x0231, rights := 3, pkg := .c, partUse := .one, parts := some [.assigned, .running], lenOk := (· == 64) } {} r
    ∧ bits w 200 3 = 1 := by
  refine ⟨5, 7, (mw 1), (am 1), (mo 0 .reset), (asked (mo 0 .reset) (am 1)),
    {q0 with st := .reset, sendWork := [w0], timer := some 4}, ?_, ?_, ?_, ?_, ?_, ?_, ?_, ?_, ?_, ⟨?_, ?_, ?_⟩, ?_⟩
    <;> first | with_reducible rfl | decide +kernel

theorem witness_EthernetCommandsAct_6 : ∃ (t : Nat) (q : Nat) (w : Nat) (a : MbxArgs) (s : State) (r : Req) (v : Qp), q = r.f 0
    12 ∧ w = leNat r.payload ∧ qpOf s q = some v ∧ v.part = r.part ∧ qpMove v.st (bits w 200 3) = true ∧ bits w 200 3 ≤ 4 ∧ 1 ≤
    bits w 203 5 ∧ bits w 214 2 = 0 ∧ bits w 277 235 = 0 ∧ Accepts (s.clock t) a
    { opcode := 0x0231, rights := 3, pkg := .c, partUse := .one, parts := some [.assigned, .running], lenOk := (· == 64) } {} r
    ∧ bits w 200 3 = 2 := by
  refine ⟨5, 7, (mw 2), (am 2), (mo 0 .init), (asked (mo 0 .init) (am 2)),
    {q0 with st := .init, sendWork := [w0], timer := some 4}, ?_, ?_, ?_, ?_, ?_, ?_, ?_, ?_, ?_, ⟨?_, ?_, ?_⟩, ?_⟩
    <;> first | with_reducible rfl | decide +kernel

theorem witness_EthernetCommandsAct_7 : ∃ (t : Nat) (q : Nat) (w : Nat) (a : MbxArgs) (s : State) (r : Req) (v : Qp), q = r.f 0
    12 ∧ w = leNat r.payload ∧ qpOf s q = some v ∧ v.part = r.part ∧ qpMove v.st (bits w 200 3) = true ∧ bits w 200 3 ≤ 4 ∧ 1 ≤
    bits w 203 5 ∧ bits w 214 2 = 0 ∧ bits w 277 235 = 0 ∧ Accepts (s.clock t) a
    { opcode := 0x0231, rights := 3, pkg := .c, partUse := .one, parts := some [.assigned, .running], lenOk := (· == 64) } {} r
    ∧ bits w 200 3 = 3 := by
  refine ⟨5, 7, (mw 3), (am 3), (mo 0 .rtr), (asked (mo 0 .rtr) (am 3)), {q0 with st := .rtr, sendWork := [w0], timer := some 4},
    ?_, ?_, ?_, ?_, ?_, ?_, ?_, ?_, ?_, ⟨?_, ?_, ?_⟩, ?_⟩ <;> first | with_reducible rfl | decide +kernel

theorem witness_EthernetCommandsAct_8 : ∃ (t : Nat) (q : Nat) (w : Nat) (a : MbxArgs) (s : State) (r : Req) (v : Qp), q = r.f 0
    12 ∧ w = leNat r.payload ∧ qpOf s q = some v ∧ v.part = r.part ∧ qpMove v.st (bits w 200 3) = true ∧ bits w 200 3 ≤ 4 ∧ 1 ≤
    bits w 203 5 ∧ bits w 214 2 = 0 ∧ bits w 277 235 = 0 ∧ Accepts (s.clock t) a
    { opcode := 0x0231, rights := 3, pkg := .c, partUse := .one, parts := some [.assigned, .running], lenOk := (· == 64) } {} r
    ∧ bits w 200 3 = 4 := by
  refine ⟨5, 7, (mw 4), (am 4), (mo 0 .rtr), (asked (mo 0 .rtr) (am 4)), {q0 with st := .rtr, sendWork := [w0], timer := some 4},
    ?_, ?_, ?_, ?_, ?_, ?_, ?_, ?_, ?_, ⟨?_, ?_, ?_⟩, ?_⟩ <;> first | with_reducible rfl | decide +kernel

theorem witness_EthernetCommandsAct_9 : ∃ (t : Nat) (a : MbxArgs) (s : State) (r : Req) (v : Qp), qpOf s (r.f 0 12) = some v ∧
    v.part = r.part ∧ Accepts (s.clock t) a
    { opcode := 0x0232, rights := 3, pkg := .c, partUse := .one, parts := some [.assigned, .running, .fenced] } {} r ∧
    (v.sendWork ≠ [] ∨ v.recvWork ≠ []) := by
  refine ⟨5, ad, (mo 0 .rtr), (asked (mo 0 .rtr) ad), {q0 with st := .rtr, sendWork := [w0], timer := some 4}, ?_, ?_, ⟨?_, ?_,
    ?_⟩, ?_⟩ <;> first | with_reducible rfl | decide +kernel

theorem witness_EthernetCommandsAct_10 : ∃ (t : Nat) (a : MbxArgs) (s : State) (r : Req) (v : Qp), qpOf s (r.f 0 12) = some v ∧
    v.part = r.part ∧ Accepts (s.clock t) a
    { opcode := 0x0232, rights := 3, pkg := .c, partUse := .one, parts := some [.assigned, .running, .fenced] } {} r ∧
    v.sendWork = [] ∧ v.recvWork = [] := by
  refine ⟨5, ad, (E0 q0), (asked (E0 q0) ad), q0, ?_, ?_, ⟨?_, ?_, ?_⟩, ?_, ?_⟩ <;> first | with_reducible rfl | decide +kernel

theorem witness_EthernetCommandsAct_11 : ∃ (t : Nat) (a : MbxArgs) (s : State) (r : Req) (b : Nat × Buf), r.f 32 2 ≠ 0 ∧ bufOf s
    (sessionOf s r.part) (r.f 0 32) = some b ∧ r.f 64 64 + r.f 128 64 ≤ b.2.size ∧ Accepts (s.clock t) a
    { opcode := 0x0234, rights := 3, pkg := .c, partUse := .one, parts := some [.assigned, .running], resp := 4 } {} r ∧ r.f 128
    64 = 0 := by
  refine ⟨5, (ag 0), (E0 q0), (asked (E0 q0) (ag 0)), (4, ebuf), ?_, ?_, ?_, ⟨?_, ?_, ?_⟩, ?_⟩
    <;> first | with_reducible rfl | decide +kernel

theorem witness_EthernetCommandsAct_12 : ∃ (t : Nat) (a : MbxArgs) (s : State) (r : Req) (b : Nat × Buf), r.f 32 2 ≠ 0 ∧ bufOf s
    (sessionOf s r.part) (r.f 0 32) = some b ∧ r.f 64 64 + r.f 128 64 ≤ b.2.size ∧ Accepts (s.clock t) a
    { opcode := 0x0234, rights := 3, pkg := .c, partUse := .one, parts := some [.assigned, .running], resp := 4 } {} r ∧ r.f 128
    64 ≠ 0 ∧ s.eth.mrs.length < 16384 := by
  refine ⟨5, (ag 64), (E0 q0), (asked (E0 q0) (ag 64)), (4, ebuf), ?_, ?_, ?_, ⟨?_, ?_, ?_⟩, ?_, ?_⟩
    <;> first | with_reducible rfl | decide +kernel

theorem witness_EthernetCommandsAct_13 : ∃ (t : Nat) (a : MbxArgs) (s : State) (r : Req) (m : MemRegion), mfind s.eth.mrs (r.f 0
    32) = some m ∧ m.session = sessionOf s r.part ∧ Accepts (s.clock t) a
    { opcode := 0x0235, rights := 3, pkg := .c, partUse := .one, parts := some [.assigned, .running, .fenced] } {} r := by
  refine ⟨5, ax, (E0 q0), (asked (E0 q0) ax), ({part := 0, session := 9, buf := 4, base := 0x200000, len := 256, rights := 3} :
    MemRegion), ?_, ?_, ⟨?_, ?_, ?_⟩⟩ <;> first | with_reducible rfl | decide +kernel

end Sys2Proof.Tests.C12b

/-! ## Witnesses: 13 mailboxes -/

namespace Sys2Proof.Tests.C13
open Sys2Proof.Machine

def mbS : State := { inService [(0, wPart .running)] with host := { linkUp := true, fns := [(1, {bme := true})] } }
def rb (b : Mailbox) (l : List InFlight := []) : State := { mbS with mbx := { mbS.mbx with boxes := [(1, b)], flight := l } }
def fl1 : InFlight := { mb := 1, opcode := 0x902, seq := 3, kind := .replay, takenAt := 0 }
def fl2 : InFlight := { mb := 2, opcode := 0x902, seq := 4, kind := .replay, takenAt := 0 }
def d64 : List Byte := leBytes 64 9
def hf (st : Hayward) (h : Bool := false) : State := { inService [(0, wPart .running)] with mbx := { mbS.mbx with hay := [(0, { state := .active }), (1, st)], watchdogAt := 0 } }
def rvt : State := { (hf {}) with tick := { due := some 20000000 }, mbx := { (hf {}).mbx with activeId := 1, quietSince := 5, hay := [(1, {state := .active}), (0, {state := .standby, healthyS := 60, lastPass := true})] } }

theorem witness_UnknownOpcodeIsAnswered_1 : ∃ (t : Nat) (a : MbxArgs) (s : State) (r : Req), nextReq (s.clock t) a = some r ∧
    opcodes.contains r.opcode = false := by
  refine ⟨5, (opAsk 0x7777 4 0), mbS, (asked mbS (opAsk 0x7777 4 0)), ?_, ?_⟩ <;> first | with_reducible rfl | decide +kernel

theorem witness_RingRegistersAct_1 : ∃ (f : Nat) (v : Nat) (s : State), barOpen s f 0x1000 = true ∧ (v % 2 ^ 32 + 2 ^ 32 -
    (boxOf s f).reqHead) % 2 ^ 32 ≤ 16 ∧ reqHeld (boxOf s f) ≤ (v % 2 ^ 32 + 2 ^ 32 - (boxOf s f).reqHead) % 2 ^ 32 ∧ barOpen s
    f 0x100C = true ∧ barOpen s f 0x1014 = true := by
  refine ⟨1, 5, (rb {} [fl1, fl2]), ?_, ?_, ?_, ?_, ?_⟩ <;> first | with_reducible rfl | decide +kernel

theorem witness_RingRegistersAct_2 : ∃ (f : Nat) (v : Nat) (s : State), barOpen s f 0x1000 = true ∧ (16 < (v % 2 ^ 32 + 2 ^ 32 -
    (boxOf s f).reqHead) % 2 ^ 32 ∨ (v % 2 ^ 32 + 2 ^ 32 - (boxOf s f).reqHead) % 2 ^ 32 < reqHeld (boxOf s f)) := by
  refine ⟨1, 17, (rb { reqHead := 0, reqTail := 3 , overrun := true, violCount := 3} [fl1, fl2]), ?_, ?_⟩
    <;> first | with_reducible rfl | decide +kernel

theorem witness_MailboxTimersAct_1 : ∃ (t : Nat) (m : Nat) (w : Nat) (e : Nat) (seq : Nat) (f : InFlight) (s : State), m < 7 ∧
    (boxOf s m).promoted = false ∧ (boxOf s m).waitSince = some w ∧ w + 1000 * cfg s 0x31 4 ≤ max s.now t ∧ (boxOf s
    m).throttledUntil = some e ∧ e ≤ max s.now t ∧ (s.mbx.flight.find? (fun f => f.mb == m && f.seq == seq) = some f) ∧ serving
    s = true ∧ (∀ e, f.estEnd = some e → max s.now t ≤ e) := by
  refine ⟨2000000000, 1, 5, 7, 3, fl1, (rb { reqTail := 3, waitSince := some 5, throttledUntil := some 7 } [fl2, fl1]), ?_, ?_,
    ?_, ?_, ?_, ?_, ?_, ?_, ?_⟩ <;> first | with_reducible rfl | decide +kernel

theorem witness_SidePortsAct_1 : ∃ (h : Nat) (data : List Byte) (s : State), s.sess.pkg.isSome = true ∧ s.mbx.mgmtLive = false ∧
    s.fuses.anchor = some h ∧ s.mbx.i3cReq = none ∧ s.mbx.i3cRsp = none ∧ inFlight s 6 = 0 ∧ data.length = 64 := by
  refine ⟨77, d64, { inService [] with mbx := {}, fuses := { anchor := some 77 } }, ?_, ?_, ?_, ?_, ?_, ?_, ?_⟩
    <;> first | with_reducible rfl | decide +kernel

theorem witness_SidePortsAct_2 : ∃ (r : Nat) (s : State), s.mbx.mgmtLive = true ∧ s.mbx.i3cRsp = some r := by
  refine ⟨8,
    { mbS with mbx := { mbS.mbx with flight := [{fl1 with mb := 5}], i3cRsp := some 8 }, keys := { spdm := [(5, {held := true}), (6, {})] } },
    ?_, ?_⟩ <;> first | with_reducible rfl | decide +kernel

theorem witness_HaywardFailuresAct_1 : ∃ (t : Nat) (h : Nat) (code : Nat) (w : Nat) (s : State), haysOn s = true ∧ s.mbx.busy =
    false ∧ h = s.mbx.activeId ∧ h < 2 ∧ (hayOf s h).state = .active ∧ 1 ≤ code ∧ code ≤ 2 ∧ (hayOf s s.mbx.activeId).state =
    .active ∧ s.mbx.watchdogAt ≤ w ∧ w + 1000000 ≤ max s.now t := by
  refine ⟨1000000, 0, 1, 0, (hf { state := .standby, reportAt := some 0, lastPass := true }), ?_, ?_, ?_, ?_, ?_, ?_, ?_, ?_,
    ?_, ?_⟩ <;> first | with_reducible rfl | decide +kernel

theorem witness_HaywardCycleActs_1 : ∃ (t : Nat) (h : Nat) (r : Nat) (s : State), haysOn s = true ∧ s.mbx.busy = true ∧
    s.mbx.activeId < 2 ∧ (hayOf s (1 - s.mbx.activeId)).state = .standby ∧ h < 2 ∧ ((hayOf s h).state = .active ∨ (hayOf s
    h).state = .standby) ∧ (∀ r, (hayOf s h).reportAt = some r → r + 1000000000 ≤ max s.now t) := by
  refine ⟨1000, 1, 7, { hf { state := .standby } with mbx := { (hf { state := .standby }).mbx with busy := true } }, ?_, ?_,
    ?_, ?_, ?_, ?_, ?_⟩ <;> first | with_reducible rfl | decide +kernel

theorem witness_HaywardCycleActs_2 : ∃ (t : Nat) (h : Nat) (r : Nat) (s : State), h < 2 ∧ (hayOf s h).state = .failed ∧ (hayOf s
    h).restartAt = some r ∧ r ≤ max s.now t := by
  refine ⟨1000, 1, 7, (hf { state := .failed, restartAt := some 7, restarts := 255 }), ?_, ?_, ?_, ?_⟩
    <;> first | with_reducible rfl | decide +kernel

theorem witness_HaywardCycleActs_3 : ∃ (h : Nat) (s : State), h < 2 ∧ (hayOf s h).state = .selftest := by
  refine ⟨1, (hf { state := .selftest, restartAt := some 7, restarts := 255 }), ?_, ?_⟩
    <;> first | with_reducible rfl | decide +kernel

theorem witness_HaywardCycleActs_4 : ∃ (t : Nat) (s : State), haysOn s = true ∧ boundaryDue (s.clock t) = true ∧ s.mbx.busy =
    false ∧ s.mbx.headless = false ∧ s.mbx.activeId = 1 ∧ (hayOf s 1).state = .active ∧ (hayOf s 0).state = .standby ∧ 60 ≤
    (hayOf s 0).healthyS ∧ cfg s 0x30 4 = 1 ∧ s.mbx.flight = [] ∧ s.mbx.quietSince + 10000000 ≤ max s.now t := by
  refine ⟨20000000, rvt, ?_, ?_, ?_, ?_, ?_, ?_, ?_, ?_, ?_, ?_, ?_⟩ <;> first | with_reducible rfl | decide +kernel

end Sys2Proof.Tests.C13

/-! ## Witnesses: 14 events -/

namespace Sys2Proof.Tests.C14
open Sys2Proof.Machine

def ev (b : EvtBit) (host : HostPort := { linkUp := true, fns := [(1, {bme := true})] }) : State := { inService [(0, wPart .running)] with host := host, evt := { bits := [(512+130, b), (512*0+3, { pend := true, dlvd := true }), (512+3, { pend := true, dlvd := true }), (512+6, { pend := true, dlvd := true }) , (512+135, { mask := false })] } }

theorem witness_EventDeliverSendsOnce_1 : ∃ (f : Nat) (src : Nat) (s : State), deliverable s f src = true ∧ src < 512 := by
  refine ⟨1, 130, (ev { pend := true, mask := false, vec := 3 }), ?_, ?_⟩ <;> first | with_reducible rfl | decide +kernel

theorem witness_EvtRegisterWritesAct_1 : ∃ (f : Nat) (n : Nat) (wide : Bool) (s : State), regIndexOk n wide = true ∧ barOpen s f
    (0x2000 + 4 * n) = true ∧ barOpen s f (0x2040 + 4 * n) = true := by
  refine ⟨1, 4, true, (ev { pend := true, mask := false, vec := 3 } ), ?_, ?_, ?_⟩ <;> first | with_reducible rfl | decide +kernel

theorem witness_PrivilegedSourcesSetAndClear_1 : ∃ (f : Nat) (s : State), barOpen s f 0x2300 = true ∧ s.mbx.headless = false ∧
    s.sess.pkg.isSome = true ∧ barOpen s f 0x2304 = true := by
  refine ⟨1, (ev { pend := true, mask := false, vec := 3 , dlvd := true} ), ?_, ?_, ?_, ?_⟩
    <;> first | with_reducible rfl | decide +kernel

end Sys2Proof.Tests.C14

/-! ## Witnesses: 15a commands -/

namespace Sys2Proof.Tests.C15a
open Sys2Proof.Machine

def rp : StageReport := { result := 0, cause := 0, startMs := 1, durationMs := 2, body := 7, resetKind := 0, testFull := true, slot := 0, fwVersion := 1 }
def cs : State := let s := inService [(0, {wPart .running with jobs := [5, 6], defaultJob := 5}), (1, wPart .assigned)]
  { s with boot := { s.boot with mapBuilt := true, reports := [(3, rp)] }, fab := { lpt := [0x80, 0x81] }, tick := { countValid := true, count := 5 } }
def cset (s : State) (p : Nat) (at_ : Nat) (l : List (Nat × Nat)) := opAsk 0x200 p (at_ + 2^64 * (packBits (l.flatMap (fun e => [(e.1, 16), (0,16), (e.2, 32)]))))
def cs64 : State := { cs with sess := { cs.sess with staged := List.replicate 64 ⟨none, 0, .fwActivate⟩ } }
def csU : State := { cs with sess := { cs.sess with pkg := some .unconfigured } }
def wl : List Byte := leBytes 2 12 ++ leBytes 2 130 ++ List.replicate 60 0xFF
def chn : List Byte := leBytes 32 (packBits [(1, 1), (1, 1), (0, 14), (200, 9), (0, 7), (5, 8), (77, 12), (0, 12), (512, 13), (1, 2), (0, 1), (5, 16), (0x4000, 48)])
def csH : State := { cs with coll := { chans := [(3, {halted := true, errCause := 3})] } }
def lp : List Byte := leBytes 2 0x80 ++ leBytes 2 0x85 ++ List.replicate 124 0
def csL : State := { cs with sess := { cs.sess with staged := [⟨some 9, 0, .lpt [1, 0x85]⟩] } }
def gr : Group := { job := 5, group := 7, part := 0, rank := 0, members := [(0,0), (1,1)], timeoutUs := 77, maxLag := 4 }
def csG : State := { cs with coll := { groups := [gr, { gr with job := 6 }], opens := [], unknown := 4 } }
def csN : State := { cs with sess := { cs.sess with snapshots := [{ tick := 5, frameNs := 3, lost := 1, log := [], sections := [] }] } }

theorem witness_IdentityCommandsAnswer_1 : ∃ (t : Nat) (a : MbxArgs) (s : State) (r : Req), Accepts (s.clock t) a
    { opcode := 0x0100, rights := 7, pkg := .any, partUse := .pkg, resp := 32 } {} r := by
  refine ⟨5, (opAsk 0x100 4 0), cs, (asked cs (opAsk 0x100 4 0)), ⟨?_, ?_, ?_⟩⟩ <;> first | with_reducible rfl | decide +kernel

theorem witness_IdentityCommandsAnswer_2 : ∃ (t : Nat) (a : MbxArgs) (s : State) (r : Req), Accepts (s.clock t) a
    { opcode := 0x0101, rights := 7, pkg := .any, partUse := .pkg, resp := 32 } {} r := by
  refine ⟨5, (opAsk 0x101 4 0), cs, (asked cs (opAsk 0x101 4 0)), ⟨?_, ?_, ?_⟩⟩ <;> first | with_reducible rfl | decide +kernel

theorem witness_IdentityCommandsAnswer_3 : ∃ (t : Nat) (a : MbxArgs) (s : State) (r : Req), Accepts (s.clock t) a
    { opcode := 0x0103, rights := 1, pkg := .any, partUse := .pkg, resp := 156 } {} r ∧ s.boot.mapBuilt = true := by
  refine ⟨5, (opAsk 0x103 4 1), cs, (asked cs (opAsk 0x103 4 1)), ⟨?_, ?_, ?_⟩, ?_⟩
    <;> first | with_reducible rfl | decide +kernel

theorem witness_IdentityCommandsAnswer_4 : ∃ (t : Nat) (a : MbxArgs) (s : State) (r : Req) (p : StageReport), Accepts (s.clock
    t) a { opcode := 0x0104, rights := 1, pkg := .any, partUse := .pkg, resp := 128 } {} r ∧ r.f 0 4 ≤ 8 ∧ mfind s.boot.reports
    (r.f 0 4) = some p := by
  refine ⟨5, (opAsk 0x104 4 3), cs, (asked cs (opAsk 0x104 4 3)), rp, ⟨?_, ?_, ?_⟩, ?_, ?_⟩
    <;> first | with_reducible rfl | decide +kernel

theorem witness_IdentityCommandsAnswer_5 : ∃ (t : Nat) (a : MbxArgs) (s : State) (r : Req), Accepts (s.clock t) a
    { opcode := 0x0102, rights := 7, pkg := .any, partUse := .pkg, resp := 32 } {} r := by
  refine ⟨5, (opAsk 0x102 4 3), cs, (asked cs (opAsk 0x102 4 3)), ⟨?_, ?_, ?_⟩⟩ <;> first | with_reducible rfl | decide +kernel

theorem witness_ConfigSetStagesOrApplies_1 : ∃ (t : Nat) (a : MbxArgs) (s : State) (r : Req), configChk r s = {} ∧ Accepts
    (s.clock t) a { opcode := 0x0200, rights := 3, pkg := .uc, partUse := .free, resp := 8 } {} r ∧ configAtStep r = true ∧
    s.sess.staged.length < 64 := by
  refine ⟨5, (cset cs 4 9 [(1, 200)]), cs, (asked cs (cset cs 4 9 [(1, 200)])), ?_, ⟨?_, ?_, ?_⟩, ?_, ?_⟩
    <;> first | with_reducible rfl | decide +kernel

theorem witness_ConfigSetStagesOrApplies_2 : ∃ (t : Nat) (a : MbxArgs) (s : State) (r : Req), configChk r s = {} ∧ Accepts
    (s.clock t) a { opcode := 0x0200, rights := 3, pkg := .uc, partUse := .free, resp := 8 } {} r ∧ configAtStep r = false := by
  refine ⟨5, (cset cs 1 9 [(0x50, 7), (0x51, 5)]), cs, (asked cs (cset cs 1 9 [(0x50, 7), (0x51, 5)])), ?_, ⟨?_, ?_, ?_⟩, ?_⟩
    <;> first | with_reducible rfl | decide +kernel

theorem witness_ConfigSetStagesOrApplies_3 : ∃ (t : Nat) (a : MbxArgs) (s : State) (r : Req), configChk r s = {} ∧ Accepts
    (s.clock t) a { opcode := 0x0200, rights := 3, pkg := .uc, partUse := .free, resp := 8 } {} r ∧ configAtStep r = true ∧ 64 ≤
    s.sess.staged.length := by
  refine ⟨5, (cset cs 1 0 [(0x60, 7), (0x61, 5)]), cs64, (asked cs (cset cs 1 0 [(0x60, 7), (0x61, 5)])), ?_, ⟨?_, ?_, ?_⟩,
    ?_, ?_⟩ <;> first | with_reducible rfl | decide +kernel

theorem witness_ConfigurationCommandsAct_1 : ∃ (t : Nat) (a : MbxArgs) (s : State) (r : Req) (i : Item), itemOf (r.f 0 16) =
    some i ∧ i.scope ≠ .stack ∧ scopeBad r i = false ∧ (r.tenant = true → i.tenant = true) ∧ Accepts (s.clock t) a
    { opcode := 0x0201, rights := 3, pkg := .uc, partUse := .free, resp := 24 } {} r := by
  refine ⟨5, (opAsk 0x201 4 1), cs, (asked cs (opAsk 0x201 4 1)), ((itemOf 1).getD { lo := 0, hi := 0 }), ?_, ?_, ?_, ?_, ⟨?_, ?_,
    ?_⟩⟩ <;> first | with_reducible rfl | decide +kernel

theorem witness_ConfigurationCommandsAct_2 : ∃ (t : Nat) (a : MbxArgs) (s : State) (r : Req), s.fab.lpt ≠ [] ∧ Accepts (s.clock
    t) a { opcode := 0x0202, rights := 1, pkg := .u, partUse := .pkg } {} r := by
  refine ⟨5, (opAsk 0x202 4 1), csU, (asked csU (opAsk 0x202 4 1)), ?_, ⟨?_, ?_, ?_⟩⟩
    <;> first | with_reducible rfl | decide +kernel

theorem witness_ConfigurationCommandsAct_3 : ∃ (t : Nat) (a : MbxArgs) (s : State) (r : Req), (∀ x ∈ u16s 32 r.payload, x ≠
    0xFFFF → assigned x = true) ∧ ((u16s 32 r.payload).filter (· != 0xFFFF)).Nodup ∧ Accepts (s.clock t) a
    { opcode := 0x0203, rights := 1, pkg := .uc, partUse := .pkg, lenOk := (· == 64) } {} r := by
  refine ⟨5, (opAsk 0x203 4 1 wl), csU, (asked csU (opAsk 0x203 4 1 wl)), ?_, ?_, ⟨?_, ?_, ?_⟩⟩
    <;> first | with_reducible rfl | decide +kernel

theorem witness_ChannelCommandsAct_1 : ∃ (t : Nat) (a : MbxArgs) (s : State) (r : Req) (c : Chan), namedChan s r = some c ∧
    channelSetChk r s = {} ∧ Accepts (s.clock t) a
    { opcode := 0x0220, rights := 3, pkg := .c, partUse := .one, parts := some [.assigned, .running], lenOk := (· == 32) } {} r
    := by
  refine ⟨5, (opAsk 0x220 0 0x30001 chn), cs, (asked cs (opAsk 0x220 0 0x30001 chn)), {}, ?_, ?_, ⟨?_, ?_, ?_⟩⟩
    <;> first | with_reducible rfl | decide +kernel

theorem witness_ChannelCommandsAct_2 : ∃ (t : Nat) (a : MbxArgs) (s : State) (r : Req) (c : Chan), namedChan s r = some c ∧
    Accepts (s.clock t) a
    { opcode := 0x0221, rights := 3, pkg := .c, partUse := .one, parts := some [.assigned, .running, .fenced], resp := 32 } {} r
    := by
  refine ⟨5, (opAsk 0x221 0 0x30001), cs, (asked cs (opAsk 0x221 0 0x30001)), {}, ?_, ⟨?_, ?_, ?_⟩⟩
    <;> first | with_reducible rfl | decide +kernel

theorem witness_ChannelCommandsAct_3 : ∃ (t : Nat) (a : MbxArgs) (s : State) (r : Req) (c : Chan), namedChan s r = some c ∧
    c.halted = true ∧ Accepts (s.clock t) a
    { opcode := 0x0222, rights := 3, pkg := .c, partUse := .one, parts := some [.assigned, .running] } {} r := by
  refine ⟨5, (opAsk 0x222 0 0x30001), csH, (asked csH (opAsk 0x222 0 0x30001)), {halted := true, errCause := 3}, ?_, ?_, ⟨?_, ?_,
    ?_⟩⟩ <;> first | with_reducible rfl | decide +kernel

theorem witness_LptCommandsAct_1 : ∃ (t : Nat) (a : MbxArgs) (s : State) (r : Req), tickBad s (r.f 0 64) = false ∧ tickWrong s
    (r.f 0 64) = false ∧ (∀ p ∈ validPos (u16s 64 r.payload), p ≤ 71) ∧ (validPos (u16s 64 r.payload)).Nodup ∧
    s.sess.staged.length < 64 ∧ Accepts (s.clock t) a
    { opcode := 0x0400, rights := 1, pkg := .uc, partUse := .pkg, lenOk := (· == 128), resp := 8 } {} r := by
  refine ⟨5, (opAsk 0x400 4 9 lp), cs, (asked cs (opAsk 0x400 4 9 lp)), ?_, ?_, ?_, ?_, ?_, ⟨?_, ?_, ?_⟩⟩
    <;> first | with_reducible rfl | decide +kernel

theorem witness_LptCommandsAct_2 : ∃ (t : Nat) (a : MbxArgs) (s : State) (r : Req), r.f 0 1 = 0 ∧ Accepts (s.clock t) a
    { opcode := 0x0401, rights := 3, pkg := .uc, partUse := .pkg, resp := 128 } {} r := by
  refine ⟨5, (opAsk 0x401 4 0), cs, (asked cs (opAsk 0x401 4 0)), ?_, ⟨?_, ?_, ?_⟩⟩
    <;> first | with_reducible rfl | decide +kernel

theorem witness_LptCommandsAct_3 : ∃ (t : Nat) (a : MbxArgs) (s : State) (r : Req) (l : List Nat), r.f 0 1 = 1 ∧ stagedLpt s =
    some l ∧ Accepts (s.clock t) a { opcode := 0x0401, rights := 3, pkg := .uc, partUse := .pkg, resp := 128 } {} r := by
  refine ⟨5, (opAsk 0x401 4 1), csL, (asked csL (opAsk 0x401 4 1)), [1, 0x85], ?_, ?_, ⟨?_, ?_, ?_⟩⟩
    <;> first | with_reducible rfl | decide +kernel

theorem witness_GroupCommandsAct_1 : ∃ (t : Nat) (a : MbxArgs) (s : State) (r : Req), r.f 0 16 ≠ 0 ∧ r.f 0 16 ∉ (partOf s
    r.part).jobs ∧ (partOf s r.part).jobs.length < 16 ∧ Accepts (s.clock t) a
    { opcode := 0x0700, rights := 1, pkg := .c, partUse := .one, parts := some [.assigned, .running] } {} r := by
  refine ⟨5, (opAsk 0x700 0 (7 + 0x10000)), cs, (asked cs (opAsk 0x700 0 (7 + 0x10000))), ?_, ?_, ?_, ⟨?_, ?_, ?_⟩⟩
    <;> first | with_reducible rfl | decide +kernel

theorem witness_GroupCommandsAct_2 : ∃ (t : Nat) (a : MbxArgs) (s : State) (r : Req) (g : Group), (∀ g ∈ s.coll.groups, ¬(g.part
    = r.part ∧ g.job = r.f 0 16)) ∧ Accepts (s.clock t) a
    { opcode := 0x0701, rights := 1, pkg := .c, partUse := .one, parts := some notFree } {} r := by
  refine ⟨5, (opAsk 0x701 0 5), cs, (asked cs (opAsk 0x701 0 5)), gr, ?_, ⟨?_, ?_, ?_⟩⟩
    <;> first | with_reducible rfl | decide +kernel

theorem witness_GroupCommandsAct_3 : ∃ (t : Nat) (a : MbxArgs) (s : State) (r : Req) (g : Group), groupBad s r = false ∧ r.f 32
    7 = r.len ∧ s.coll.groups.length + (localMembers s r.members).length ≤ 512 ∧ (∀ e ∈ localMembers s r.members,
    (s.coll.groups.filter (fun g => g.part == e.2)).length < 128) ∧ (Accepts (s.clock t) a
    { opcode := 0x0702, rights := 3, pkg := .c, partUse := .one, parts := some [.assigned, .running], lenOk := fun n => 1 ≤ n && n ≤ 64 }
    {} r) := by
  refine ⟨5, (opAsk 0x702 0 (5 + 7 * 0x10000 + 2 * 2 ^32) [0, 0x41]), cs, (asked cs (opAsk 0x702 0 (5 + 7 * 0x10000 + 2 * 2 ^32)
    [0, 0x41])), gr, ?_, ?_, ?_, ?_, ⟨?_, ?_, ?_⟩⟩ <;> first | with_reducible rfl | decide +kernel

theorem witness_GroupCommandsAct_4 : ∃ (t : Nat) (a : MbxArgs) (s : State) (r : Req) (g : Group), localGroups s (r.f 0 16) (r.f
    16 12) ≠ [] ∧ (r.tenant = true → ∀ g ∈ localGroups s (r.f 0 16) (r.f 16 12), g.part ∈ sessionParts s r.part) ∧ (∀ o ∈
    s.coll.opens, ¬(o.job = r.f 0 16 ∧ o.group = r.f 16 12)) ∧ Accepts (s.clock t) a
    { opcode := 0x0703, rights := 3, pkg := .c, partUse := .one, parts := some notFree } {} r := by
  refine ⟨5, (opAsk 0x703 0 (5 + 7 * 0x10000)), csG, (asked csG (opAsk 0x703 0 (5 + 7 * 0x10000))), gr, ?_, ?_, ?_, ⟨?_, ?_, ?_⟩⟩
    <;> first | with_reducible rfl | decide +kernel

theorem witness_GroupCommandsAct_5 : ∃ (t : Nat) (a : MbxArgs) (s : State) (r : Req) (g : Group), timeoutBad r = false ∧
    groupOfPart s (r.f 0 16) (r.f 16 12) r.part = some g ∧ Accepts (s.clock t) a
    { opcode := 0x0704, rights := 3, pkg := .c, partUse := .one, parts := some [.assigned, .running] } {} r := by
  refine ⟨5, (opAsk 0x704 0 (5 + 7 * 0x10000 + 500 * 2^64)), csG, (asked csG (opAsk 0x704 0 (5 + 7 * 0x10000 + 500 * 2^64))), gr,
    ?_, ?_, ⟨?_, ?_, ?_⟩⟩ <;> first | with_reducible rfl | decide +kernel

theorem witness_GroupCommandsAct_6 : ∃ (t : Nat) (a : MbxArgs) (s : State) (r : Req) (g : Group), groupOfPart s (r.f 0 16) (r.f
    16 12) r.part = some g ∧ Accepts (s.clock t) a
    { opcode := 0x0705, rights := 3, pkg := .c, partUse := .one, parts := some notFree, resp := 192 } {} r := by
  refine ⟨5, (opAsk 0x705 0 (5 + 7 * 0x10000 + 500 * 2^64)), csG, (asked csG (opAsk 0x705 0 (5 + 7 * 0x10000 + 500 * 2^64))), gr,
    ?_, ⟨?_, ?_, ?_⟩⟩ <;> first | with_reducible rfl | decide +kernel

theorem witness_GroupCommandsAct_7 : ∃ (t : Nat) (a : MbxArgs) (s : State) (r : Req), Accepts (s.clock t) a
    { opcode := 0x0706, rights := 1, pkg := .any, partUse := .pkg, resp := 16 } {} r := by
  refine ⟨5, (opAsk 0x706 4 (5 + 7 * 0x10000 + 500 * 2^64)), csG, (asked csG (opAsk 0x706 4 (5 + 7 * 0x10000 + 500 * 2^64))),
    ⟨?_, ?_, ?_⟩⟩ <;> first | with_reducible rfl | decide +kernel

theorem witness_SnapshotReadAnswers_1 : ∃ (t : Nat) (a : MbxArgs) (s : State) (r : Req) (m : Snapshot), findSnapshot s (r.f 0
    64) = some m ∧ Accepts (s.clock t) a { opcode := 0x0B00, rights := 3, pkg := .uc, partUse := .pkg }
    { resp := some (snapBytes s m r.tenantPart).length } r := by
  refine ⟨5, (opAsk 0xB00 4 0), csN, (asked csN (opAsk 0xB00 4 0)), ((findSnapshot csN 0).getD
    { tick := 5, frameNs := 3, lost := 1, log := [], sections := [] }), ?_, ⟨?_, ?_, ?_⟩⟩
    <;> first | with_reducible rfl | decide +kernel

end Sys2Proof.Tests.C15a

/-! ## Witnesses: 15b lifecycle -/

namespace Sys2Proof.Tests.C15b
open Sys2Proof.Machine

def P0 (st : PState) := inService [(0, wPart st)]
def a1 := opAsk 0x300 4 (packBits [(9,32),(3,4)])
def L1 := inService []
def a2 := opAsk 0x301 0 0
def a3 := opAsk 0x302 0 0
def a4 := opAsk 0x306 0 0
def a5 := opAsk 0x303 0 0
def Q1 : State := { P0 .running with fab := { lpt := [0x80,0x81] }, sess := { (P0 .running).sess with parts := [(0, { wPart .running with jobs := [5] })] } }
def a6 := opAsk 0x304 0 0
def a7 := opAsk 0x305 0 0
def Z1 : State := { P0 .resetting with faults := { resets := [(0, 100)] }, mbx := { (P0 .free).mbx with flight := [{ mb := 5, opcode := 0x304, seq := 3, kind := .partReset, takenAt := 0 }] }, boot := { stage := some 9, mapBuilt := true } }
def Y1 : State := { P0 .winnowing with keys := { winnow := [(0, 100, false)] }, mbx := { (P0 .free).mbx with flight := [{ mb := 5, opcode := 0x305, seq := 3, kind := .sessionEnd [0], takenAt := 0 }] }, mem := { spad := [(0, 5), (spadBytes + 3, 4)], stk := [(7,9), (stkKey 3 0, 4)] }, place := { bufs := [(4, ⟨77,9,0,2,1,0x200000,5000,0,[.frame 1 5]⟩)] } , tiles := [(0, { vseed := 4})], cores := [(0, {halted := true})] }

theorem witness_PartitionCommandsAct_1 : ∃ (t : Nat) (a : MbxArgs) (s : State) (r : Req), r.f 0 32 ≠ 0 ∧ r.f 32 4 ∈ [1, 2, 4, 8,
    3, 12, 15] ∧ partsWith s (r.f 0 32) = [] ∧ (∀ p ∈ maskParts (r.f 32 4), pstate s p = .free) ∧ Accepts (s.clock t) a
    { opcode := 0x0300, rights := 1, pkg := .c, partUse := .pkg } {} r := by
  refine ⟨0, a1, L1, (asked L1 a1), ?_, ?_, ?_, ?_, ⟨?_, ?_, ?_⟩⟩ <;> first | with_reducible rfl | decide +kernel

theorem witness_PartitionCommandsAct_2 : ∃ (t : Nat) (a : MbxArgs) (s : State) (r : Req), tickBad s (r.f 0 64) = false ∧
    tickWrong s (r.f 0 64) = false ∧ s.sess.staged.length < 64 ∧ Accepts (s.clock t) a
    { opcode := 0x0301, rights := 3, pkg := .c, partUse := .one, parts := some [.assigned], resp := 8 } {} r := by
  refine ⟨0, a2, (P0 .assigned), (asked L1 a2), ?_, ?_, ?_, ⟨?_, ?_, ?_⟩⟩ <;> first | with_reducible rfl | decide +kernel

theorem witness_PartitionCommandsAct_3 : ∃ (t : Nat) (a : MbxArgs) (s : State) (r : Req), tickBad s (r.f 0 64) = false ∧
    tickWrong s (r.f 0 64) = false ∧ s.sess.staged.length < 64 ∧ Accepts (s.clock t) a
    { opcode := 0x0302, rights := 3, pkg := .c, partUse := .one, parts := some [.running], resp := 8 } {} r := by
  refine ⟨0, a3, (P0 .running), (asked L1 a3), ?_, ?_, ?_, ⟨?_, ?_, ?_⟩⟩ <;> first | with_reducible rfl | decide +kernel

theorem witness_PartitionCommandsAct_4 : ∃ (t : Nat) (a : MbxArgs) (s : State) (r : Req), Accepts (s.clock t) a
    { opcode := 0x0306, rights := 3, pkg := .any, partUse := .one, resp := 32 } {} r := by
  refine ⟨0, a4, (P0 .running), (asked L1 a4), ⟨?_, ?_, ?_⟩⟩ <;> first | with_reducible rfl | decide +kernel

theorem witness_LongPartitionCommandsStart_1 : ∃ (t : Nat) (a : MbxArgs) (s : State) (r : Req), Accepts (s.clock t) a
    { opcode := 0x0303, rights := 3, pkg := .c, partUse := .one, parts := some [.assigned, .running] } {} r := by
  refine ⟨7, a5, Q1, (asked L1 a5), ⟨?_, ?_, ?_⟩⟩ <;> first | with_reducible rfl | decide +kernel

theorem witness_LongPartitionCommandsStart_2 : ∃ (t : Nat) (a : MbxArgs) (s : State) (r : Req), (pstate s r.part = .assigned ∨
    pstate s r.part = .running) ∧ Accepts (s.clock t) a
    { opcode := 0x0304, rights := 3, pkg := .c, partUse := .one, parts := some [.assigned, .running, .fenced] } {} r := by
  refine ⟨7, a6, Q1, (asked L1 a6), ?_, ⟨?_, ?_, ?_⟩⟩ <;> first | with_reducible rfl | decide +kernel

theorem witness_LongPartitionCommandsStart_3 : ∃ (t : Nat) (a : MbxArgs) (s : State) (r : Req), pstate s r.part = .fenced ∧
    replaying s r.part = false ∧ (∀ f, fenceOf s r.part = some f → f.complete = true) ∧ Accepts (s.clock t) a
    { opcode := 0x0304, rights := 3, pkg := .c, partUse := .one, parts := some [.assigned, .running, .fenced] } {} r := by
  refine ⟨7, a6, (P0 .fenced), (asked L1 a6), ?_, ?_, ?_, ⟨?_, ?_, ?_⟩⟩ <;> first | with_reducible rfl | decide +kernel

theorem witness_LongPartitionCommandsStart_4 : ∃ (t : Nat) (a : MbxArgs) (s : State) (r : Req), sessionOf s r.part ≠ 0 ∧
    sessionBusy s (sessionParts s r.part) = false ∧ Accepts (s.clock t) a
    { opcode := 0x0305, rights := 3, pkg := .c, partUse := .one, parts := some notFree } {} r := by
  refine ⟨7, a7, Q1, (asked L1 a7), ?_, ?_, ⟨?_, ?_, ?_⟩⟩ <;> first | with_reducible rfl | decide +kernel

theorem witness_FenceStartIsRecorded_1 : ∃ (p : Nat), p < 4 := by
  refine ⟨0, ?_⟩ <;> first | with_reducible rfl | decide +kernel

theorem witness_PartitionResetEnds_1 : ∃ (t : Nat) (p : Nat) (s : State) (start : Nat), p < 4 ∧ pstate s p = .resetting ∧
    serving (s.clock t) = true ∧ mfind s.faults.resets p = some start := by
  refine ⟨1000, 0, Z1, 100, ?_, ?_, ?_, ?_⟩ <;> first | with_reducible rfl | decide +kernel

theorem witness_WinnowLeavesNothing_1 : ∃ (t : Nat) (p : Nat) (start : Nat) (reduced : Bool) (s : State), p < 4 ∧ pstate s p =
    .winnowing ∧ serving (s.clock t) = true ∧ fenceOf s p = none ∧ mfind s.keys.winnow p = some (start, reduced) ∧ start +
    winnowNs s reduced 1 ≤ max s.now t ∧ (∀ k ∈ stacksOf p, (stackOf s k).selfRefresh = false) := by
  refine ⟨300000000, 0, 100, false, Y1, ?_, ?_, ?_, ?_, ?_, ?_, ?_⟩ <;> first | with_reducible rfl | decide +kernel

end Sys2Proof.Tests.C15b

/-! ## Witnesses: 16 power -/

namespace Sys2Proof.Tests.C16
open Sys2Proof.Machine

def P0 : State := { inService [(0, wPart .assigned), (1, {st := .free}), (2, wPart .failed)] with boot := { stage := some 9, vrEn := 15 }, cores := [(0, {stall := none}), (288, {}), (576, {})], heat := { flowState := 0 } }
def pw (op part params : Nat) := opAsk op part params
def P2 : State := { P0 with sess := { pkg := some .configured } , faults := { buffer := [{ seq := 4, tick := 0, aonMs := 0, boot := 1, type := 0x60, severity := 0, part := 4, data := [5] }] } }
def T0 := tenAsk { P0 with sess := { pkg := some .configured, parts := [(0, wPart .running)] }, power := { tally := [(0, 7), (5, 9)] } } 0x504 0 0
def X0 : State := { P0 with power := { entering := [(0, 4)], fallow := [1] }, mbx := { P0.mbx with flight := [{ mb := 5, opcode := 0x502, seq := 3, kind := .powerState, takenAt := 0 }] } }
def X1 : State := { P0 with sess := { P0.sess with parts := [(2, {wPart .dormant with recorded := .fenced}), (3, wPart .failed)] }, power := { exiting := [(1, 4)], fallow := [0,1] }, evt := { held := true }, stks := [(7, {wStack with selfRefresh := true})] }
def X2 : State := { X1 with evt := { held := true, wakeReq := true, wakeValid := true }, power := { fallow := [0,1], leaseEnd := some 4 } }
def X3 : State := { P0 with tick := { due := some 1000 }, cores := (List.range 144).map (fun k => (288+k, { park := true })) }
def P3 : State := { P0 with power := { mode := 0, quads := [(3, {clkMHz := 1500, mV := 640, tgtMHz := 1800, tgtMV := 700, stretched := true, leastSlack := some 30, trim := 40, trimAt := 0 })], sustained := 600, draws := [1500, 1000], rails := (List.range 19).map (fun r => (r, {est := [10,20,30]})) }, tick := { due := some 5 } }
def P4 (mh mv th tv : Nat) (sl : Option Nat) (e tr : Nat) : State := { P3 with power := { P3.power with bins := [], burst := 500, mode := 1, quads := [(3, {clkMHz := mh, mV := mv, tgtMHz := th, tgtMV := tv, leastSlack := sl, easyPeriods := e, trim := tr })] } }
def rc (s : State) (fits : Nat) := wantedClock s 3 fits 1300

theorem witness_PowerCommandsAct_1 : ∃ (t : Nat) (a : MbxArgs) (s : State) (r : Req) (k : Option Nat), tickBad s (r.f 0 64) =
    false ∧ tickWrong s (r.f 0 64) = false ∧ s.sess.staged.length < 64 ∧ (k = (if r.f 0 64 = 0 then none else some (r.f 0 64)))
    ∧ Accepts (s.clock t) a { opcode := 0x0500, rights := 1, pkg := .uc, partUse := .free, resp := 8 } {} r ∧ r.part = 4 ∧ 600 ≤
    r.f 64 16 ∧ r.f 64 16 ≤ 2400 ∧ (r.f 80 16 = 0 ∨ r.f 64 16 ≤ r.f 80 16 ∧ r.f 80 16 ≤ 2400) ∧ wattsOk (r.f 96 16) = true ∧
    wattsOk (r.f 112 16) = true ∧ (r.f 128 32 = 0 ∨ 100 ≤ r.f 128 32 ∧ r.f 128 32 ≤ 600000) := by
  refine ⟨5, (pw 0x500 4 (1200*2^64 + 1300*2^80)), P0, (asked P0 (pw 0x500 4 (1200*2^64 + 1300*2^80))), none, ?_, ?_, ?_, ?_,
    ⟨?_, ?_, ?_⟩, ?_, ?_, ?_, ?_, ?_, ?_, ?_⟩ <;> first | with_reducible rfl | decide +kernel

theorem witness_PowerCommandsAct_2 : ∃ (t : Nat) (a : MbxArgs) (s : State) (r : Req) (k : Option Nat), tickBad s (r.f 0 64) =
    false ∧ tickWrong s (r.f 0 64) = false ∧ s.sess.staged.length < 64 ∧ (k = (if r.f 0 64 = 0 then none else some (r.f 0 64)))
    ∧ Accepts (s.clock t) a { opcode := 0x0500, rights := 1, pkg := .uc, partUse := .free, resp := 8 } {} r ∧ r.part ≠ 4 ∧ (r.f
    64 16 = 0 ∨ 100 ≤ r.f 64 16 ∧ r.f 64 16 ≤ 600) := by
  refine ⟨5, (pw 0x500 1 (300*2^64)), P0, (asked P0 (pw 0x500 1 (300*2^64))), none, ?_, ?_, ?_, ?_, ⟨?_, ?_, ?_⟩, ?_, ?_⟩
    <;> first | with_reducible rfl | decide +kernel

theorem witness_PowerCommandsAct_3 : ∃ (t : Nat) (a : MbxArgs) (s : State) (r : Req) (k : Option Nat), tickBad s (r.f 0 64) =
    false ∧ tickWrong s (r.f 0 64) = false ∧ s.sess.staged.length < 64 ∧ (k = (if r.f 0 64 = 0 then none else some (r.f 0 64)))
    ∧ r.f 64 2 ≠ 3 ∧ Accepts (s.clock t) a { opcode := 0x0501, rights := 1, pkg := .uc, partUse := .pkg, resp := 8 } {} r := by
  refine ⟨5, (pw 0x501 4 (2*2^64)), P0, (asked P0 (pw 0x501 4 (2*2^64))), none, ?_, ?_, ?_, ?_, ?_, ⟨?_, ?_, ?_⟩⟩
    <;> first | with_reducible rfl | decide +kernel

theorem witness_PowerCommandsAct_4 : ∃ (t : Nat) (a : MbxArgs) (s : State) (r : Req), powerBusy s = false ∧ Accepts (s.clock t)
    a { opcode := 0x0502, rights := 1, pkg := .c, partUse := .pkg } {} r ∧ r.f 0 2 = 0 ∧ s.heat.stopped = false ∧
    s.heat.flowState ≠ 3 := by
  refine ⟨5, (pw 0x502 4 0), P0, (asked P0 (pw 0x502 4 0)), ?_, ⟨?_, ?_, ?_⟩, ?_, ?_, ?_⟩
    <;> first | with_reducible rfl | decide +kernel

theorem witness_PowerCommandsAct_5 : ∃ (t : Nat) (a : MbxArgs) (s : State) (r : Req), powerBusy s = false ∧ Accepts (s.clock t)
    a { opcode := 0x0502, rights := 1, pkg := .c, partUse := .pkg } {} r ∧ r.f 0 2 = 1 := by
  refine ⟨5, (pw 0x502 4 1), P0, (asked P0 (pw 0x502 4 1)), ?_, ⟨?_, ?_, ?_⟩, ?_⟩ <;> first | with_reducible rfl | decide +kernel

theorem witness_PowerCommandsAct_6 : ∃ (t : Nat) (a : MbxArgs) (s : State) (r : Req), powerBusy s = false ∧ Accepts (s.clock t)
    a { opcode := 0x0502, rights := 1, pkg := .c, partUse := .pkg } {} r ∧ r.f 0 2 = 2 ∧ r.f 2 2 ≠ 0 ∧ (∀ d ∈ diesOf (r.f 2 2),
    ∀ p ∈ partsOfDie d, pstate s p ∉ [.running, .resetting, .winnowing]) ∧ (∀ d ∈ diesOf (r.f 2 2), d ∉ s.power.fallow ∧ mfind
    s.power.entering d = none) := by
  refine ⟨5, (pw 0x502 4 (2+4*3)), P0, (asked P0 (pw 0x502 4 (2+4*3))), ?_, ⟨?_, ?_, ?_⟩, ?_, ?_, ?_, ?_⟩
    <;> first | with_reducible rfl | decide +kernel

theorem witness_PowerCommandsAct_7 : ∃ (t : Nat) (a : MbxArgs) (s : State) (r : Req), powerBusy s = false ∧ Accepts (s.clock t)
    a { opcode := 0x0502, rights := 1, pkg := .c, partUse := .pkg } {} r ∧ r.f 0 2 = 3 ∧ (∀ p < 4, pstate s p = .free) := by
  refine ⟨5, (pw 0x502 4 3), P2, (asked P2 (pw 0x502 4 3)), ?_, ⟨?_, ?_, ?_⟩, ?_, ?_⟩
    <;> first | with_reducible rfl | decide +kernel

theorem witness_PowerCommandsAct_8 : ∃ (t : Nat) (a : MbxArgs) (s : State) (r : Req), Accepts (s.clock t) a
    { opcode := 0x0503, rights := 3, pkg := .any, partUse := .pkg, resp := 32 } {} r := by
  refine ⟨5, (pw 0x503 4 3), P2, (asked P2 (pw 0x503 4 3)), ⟨?_, ?_, ?_⟩⟩ <;> first | with_reducible rfl | decide +kernel

theorem witness_PowerCommandsAct_9 : ∃ (t : Nat) (a : MbxArgs) (s : State) (r : Req), r.op = true ∧ Accepts (s.clock t) a
    { opcode := 0x0504, rights := 3, pkg := .any, partUse := .pkg } { resp := some 72 } r := by
  refine ⟨5, (pw 0x504 4 3), P2, (asked P2 (pw 0x504 4 3)), ?_, ⟨?_, ?_, ?_⟩⟩ <;> first | with_reducible rfl | decide +kernel

theorem witness_PowerCommandsAct_10 : ∃ (t : Nat) (a : MbxArgs) (s : State) (r : Req), Accepts (s.clock t) a
    { opcode := 0x0505, rights := 5, pkg := .uc, partUse := .pkg, resp := 32 } {} r := by
  refine ⟨5, (pw 0x505 4 3), P2, (asked P2 (pw 0x505 4 3)), ⟨?_, ?_, ?_⟩⟩ <;> first | with_reducible rfl | decide +kernel

theorem witness_PowerCommandsAct_11 : ∃ (t : Nat) (a : MbxArgs) (s : State) (r : Req), Accepts (s.clock t) a
    { opcode := 0x0506, rights := 5, pkg := .uc, partUse := .pkg, resp := 32 } {} r := by
  refine ⟨5, (pw 0x506 4 3), P2, (asked P2 (pw 0x506 4 3)), ⟨?_, ?_, ?_⟩⟩ <;> first | with_reducible rfl | decide +kernel

theorem witness_PowerCommandsAct_12 : ∃ (t : Nat) (a : MbxArgs) (s : State) (r : Req), r.op = false ∧ Accepts (s.clock t) a
    { opcode := 0x0504, rights := 3, pkg := .any, partUse := .pkg } { resp := some 16 } r := by
  refine ⟨5, tenArgs, T0, (asked T0 tenArgs), ?_, ⟨?_, ?_, ?_⟩⟩ <;> first | with_reducible rfl | decide +kernel

theorem witness_PowerStatesChange_1 : ∃ (t : Nat) (q : Nat) (s : State), boundaryDue (s.clock t) = true ∧ minuteDue (s.clock t)
    = true ∧ quadOn s q = true ∧ (quadOf s q).gated = false ∧ quadIdle s q = true := by
  refine ⟨60000000000, 2, X3, ?_, ?_, ?_, ?_, ?_⟩ <;> first | with_reducible rfl | decide +kernel

theorem witness_PowerStatesChange_2 : ∃ (d : Nat) (s : State), (mfind s.power.entering d).isSome = true ∧ d < 2 ∧
    (s.power.exitAfter = false ∨ s.power.entering.any (fun e => e.1 != d) = true) := by
  refine ⟨0, X0, ?_, ?_, ?_⟩ <;> first | with_reducible rfl | decide +kernel

theorem witness_PowerStatesChange_3 : ∃ (d : Nat) (s : State), (mfind s.power.exiting d).isSome = true := by
  refine ⟨1, X1, ?_⟩ <;> first | with_reducible rfl | decide +kernel

theorem witness_PowerStatesChange_4 : ∃ (s : State), s.evt.wakeReq = true ∧ s.evt.wakePriv = false ∧ s.power.fallow ≠ [] ∧
    s.power.entering = [] ∧ s.power.byFlow = false ∧ heatCondition s = false ∧ hayOn s = true := by
  refine ⟨X2, ?_, ?_, ?_, ?_, ?_, ?_, ?_⟩ <;> first | with_reducible rfl | decide +kernel

theorem witness_PowerStatesChange_5 : ∃ (q : Nat) (s : State), quadOn s q = true ∧ (quadOf s q).gated = true ∧ s.power.idle =
    false := by
  refine ⟨2, { P0 with power := { quads := [(2, {gated := true})] } }, ?_, ?_, ?_⟩ <;> first | with_reducible rfl | decide +kernel

theorem witness_RailsAndClocksAct_1 : ∃ (t : Nat) (q : Nat) (fits : Nat) (i : Nat) (eff : List Nat) (s : State) (v : Quad),
    quadOf s q = v ∧ s.power.govAt + 10000 ≤ max s.now t ∧ s.boot.poweredOff = false ∧ s.boot.stage.isSome = true ∧
    s.power.ceilAt + 100000 ≤ max s.now t ∧ hayOn s = true ∧ i = wantedClock s q fits (eff.getD q 1500) ∧ quadOn s q = true ∧
    v.halved = false ∧ v.stopped = false ∧ s.power.mode ≠ 0 ∧ v.tgtMHz < i ∧ v.stretched = false ∧ (v.frozenUntil = none ∨
    v.frozenUntil = some i ∧ i ≤ max s.now t) ∧ spaced v.lastVStep 2000 (max s.now t) = true ∧ v.clkMHz ≤ v.tgtMHz ∧ v.mV <
    v.tgtMV ∧ boundaryDue (s.clock t) = true ∧ trimDue (s.clock t) q = true ∧ v.droopAt + 1000000 ≤ max s.now t ∧
    s.power.tallyAt + 1000 ≤ max s.now t := by
  refine ⟨70000000000, 3, 2000, (rc (P4 1500 640 1600 660 (some 150) 9 10) 2000), [1300,1300,1300,1300], (P4 1500 640 1600 660
    (some 150) 9 10), (quadOf (P4 1500 640 1600 660 (some 150) 9 10) 3), ?_, ?_, ?_, ?_, ?_, ?_, ?_, ?_, ?_, ?_, ?_, ?_, ?_, ?_,
    ?_, ?_, ?_, ?_, ?_, ?_, ?_⟩ <;> first | with_reducible rfl | decide +kernel

theorem witness_RailsAndClocksAct_2 : ∃ (q : Nat) (cy : Nat) (i : Nat) (raw : List Nat) (s : State) (v : Quad) (rail : Rail),
    quadOf s q = v ∧ raw.length = 19 ∧ s.boot.poweredOff = false ∧ s.boot.stage.isSome = true ∧ i < 19 ∧ railOf s i = rail ∧
    quadOn s q = true ∧ v.stretched = true ∧ cy < 32 := by
  refine ⟨3, 30, 1, (List.replicate 19 500), P3, (quadOf P3 3), (railOf P3 1), ?_, ?_, ?_, ?_, ?_, ?_, ?_, ?_, ?_⟩
    <;> first | with_reducible rfl | decide +kernel

theorem witness_RailsAndClocksAct_3 : ∃ (bus : Nat) (q : Nat) (i : Nat) (rs : List Nat) (s : State) (v : Quad) (rail : Rail),
    quadOf s q = v ∧ bus < 4 ∧ hayOn s = true ∧ rs = busRails bus ∧ i = rs.getD (mget 0 s.power.avsNext bus % rs.length) 0 ∧
    railOf s i = rail := by
  refine ⟨2, 3, 8, (busRails 2), P0, (quadOf P0 3), (railOf P0 8), ?_, ?_, ?_, ?_, ?_, ?_⟩
    <;> first | with_reducible rfl | decide +kernel

theorem witness_RailsAndClocksAct_4 : ∃ (q : Nat) (cy : Nat) (s : State) (v : Quad), quadOf s q = v ∧ quadOn s q = true ∧
    v.stretched = true ∧ 32 ≤ cy := by
  refine ⟨3, 70, P3, (quadOf P3 3), ?_, ?_, ?_, ?_⟩ <;> first | with_reducible rfl | decide +kernel

theorem witness_RailsAndClocksAct_5 : ∃ (t : Nat) (q : Nat) (i : Nat) (s : State) (v : Quad), quadOf s q = v ∧ quadOn s q = true
    ∧ hayOn s = true ∧ v.stretched = false ∧ v.stopped = false ∧ (v.frozenUntil = none ∨ v.frozenUntil = some i ∧ i ≤ max s.now
    t) ∧ spaced v.lastVStep 2000 (max s.now t) = true ∧ v.clkMHz = v.tgtMHz ∧ v.tgtMV < v.mV := by
  refine ⟨70000000000, 3, 1, (P4 1500 640 1500 630 none 9 10), (quadOf (P4 1500 640 1500 630 none 9 10) 3), ?_, ?_, ?_, ?_,
    ?_, ?_, ?_, ?_, ?_⟩ <;> first | with_reducible rfl | decide +kernel

theorem witness_RailsAndClocksAct_6 : ∃ (t : Nat) (q : Nat) (i : Nat) (s : State) (v : Quad), quadOf s q = v ∧ quadOn s q = true
    ∧ hayOn s = true ∧ v.stretched = false ∧ v.stopped = false ∧ (v.frozenUntil = none ∨ v.frozenUntil = some i ∧ i ≤ max s.now
    t) ∧ spaced v.lastFStep 1000 (max s.now t) = true ∧ v.tgtMHz < v.clkMHz := by
  refine ⟨70000000000, 3, 1, (P4 1500 640 1300 630 (some 50) 9 10), (quadOf (P4 1500 640 1300 630 (some 50) 9 10) 3), ?_, ?_,
    ?_, ?_, ?_, ?_, ?_, ?_⟩ <;> first | with_reducible rfl | decide +kernel

theorem witness_RailsAndClocksAct_7 : ∃ (t : Nat) (q : Nat) (i : Nat) (s : State) (v : Quad), quadOf s q = v ∧ quadOn s q = true
    ∧ hayOn s = true ∧ v.stretched = false ∧ v.stopped = false ∧ (v.frozenUntil = none ∨ v.frozenUntil = some i ∧ i ≤ max s.now
    t) ∧ spaced v.lastFStep 1000 (max s.now t) = true ∧ v.clkMHz < v.tgtMHz ∧ v.tgtMV ≤ v.mV := by
  refine ⟨70000000000, 3, 1, (P4 1500 640 1600 640 (some 150) 9 10), (quadOf (P4 1500 640 1600 640 (some 150) 9 10) 3), ?_, ?_,
    ?_, ?_, ?_, ?_, ?_, ?_, ?_⟩ <;> first | with_reducible rfl | decide +kernel

theorem witness_RailsAndClocksAct_8 : ∃ (t : Nat) (q : Nat) (fits : Nat) (i : Nat) (eff : List Nat) (s : State) (v : Quad),
    quadOf s q = v ∧ s.power.ceilAt + 100000 ≤ max s.now t ∧ hayOn s = true ∧ i = wantedClock s q fits (eff.getD q 1500) ∧
    quadOn s q = true ∧ v.halved = false ∧ v.stopped = false ∧ (i < v.tgtMHz ∨ s.power.mode = 0 ∧ v.tgtMHz < i) := by
  refine ⟨70000000000, 3, 2000, (rc P3 2000), [1300,1300,1300,1300], P3, (quadOf P3 3), ?_, ?_, ?_, ?_, ?_, ?_, ?_, ?_⟩
    <;> first | with_reducible rfl | decide +kernel

end Sys2Proof.Tests.C16

/-! ## Witnesses: 17 heat -/

namespace Sys2Proof.Tests.C17
open Sys2Proof.Machine

def Z0 : State := { inService [(0, wPart .running), (1, wPart .assigned), (2, wPart .fenced), (3, wPart .failed)] with boot := { stage := some 8, vrEn := 15, mapBuilt := true }, heat := { flowState := 0 } , stks := (List.range 12).map (fun k => (k, wStack)) }
def fr (ml inl v : Nat) : Nat := reqSlot 0x507 4 0 0 0 (packBits [(ml,16),(inl,16),(v,1)])
def Z1 (ml inl v : Nat) (h : Heat) : State := { Z0 with mbx := { Z0.mbx with i3cReq := some (fr ml inl v) }, heat := h }
def A6 : MbxArgs := { mb := 6 }
def fq (s : State) : FlowRep := { ml := (asked s A6).f 0 16, inlet := sx 16 ((asked s A6).f 16 16), at_ := 5 }
def aT : MbxArgs := opAsk 0x508 4 0
def tp (k : Nat) (v : Int) : List Int := (List.range 116).map (fun i => if i / 2 == k then v else 500)
def hf : Heat := {flowState := 2, belowSince := some 7}
def hs : Heat := {flowState := 2, flowLowSince := some 7}
def he : Heat := {flowState := 5, stopped := true, flowHighSince := some 7, report := some ⟨3500, 350, 1⟩}

theorem witness_HeatAndFlowAct_1 : ∃ (t : Nat) (a : MbxArgs) (s : State) (r : Req) (rep : FlowRep) (h : Heat), s.heat = h ∧ rep
    = { ml := r.f 0 16, inlet := sx 16 (r.f 16 16), at_ := max s.now t } ∧ 17500 ≤ 10 * (rep.ml : Int) - 175 * max 0 (rep.inlet
    - 400) ∧ 10 * (rep.ml : Int) - 175 * max 0 (rep.inlet - 400) < 28000 ∧ Accepts (s.clock t) a
    { opcode := 0x0507, rights := 4, pkg := .any, partUse := .pkg } {} r ∧ r.f 32 1 = 1 := by
  refine ⟨5, A6, (Z1 2800 410 1 {flowState := 0}), (asked (Z1 2800 410 1 {flowState := 0}) A6), (fq (Z1 2800 410 1 {})),
    ({flowState := 0} : Heat), ?_, ?_, ?_, ?_, ⟨?_, ?_, ?_⟩, ?_⟩ <;> first | with_reducible rfl | decide +kernel

theorem witness_HeatAndFlowAct_2 : ∃ (t : Nat) (b : Nat) (a : MbxArgs) (s : State) (r : Req) (h : Heat), s.heat = h ∧ Accepts
    (s.clock t) a { opcode := 0x0508, rights := 5, pkg := .any, partUse := .pkg, resp := 32 } {} r ∧ hayOn s = true ∧
    h.lastReport + 150000000 ≤ max s.now t ∧ h.belowSince = some b ∧ b + 1000000000 ≤ max s.now t ∧ s.boot.stage = some 8 ∧
    h.flowState ∉ [3, 5] ∧ s.power.entering = [] := by
  refine ⟨2000000000, 7, aT, {Z0 with heat := hf}, (asked Z0 aT), hf, ?_, ⟨?_, ?_, ?_⟩, ?_, ?_, ?_, ?_, ?_, ?_, ?_⟩
    <;> first | with_reducible rfl | decide +kernel

theorem witness_HeatAndFlowAct_3 : ∃ (t : Nat) (a : MbxArgs) (s : State) (r : Req) (rep : FlowRep) (h : Heat), s.heat = h ∧ rep
    = { ml := r.f 0 16, inlet := sx 16 (r.f 16 16), at_ := max s.now t } ∧ 10 * (rep.ml : Int) - 175 * max 0 (rep.inlet - 400) <
    17500 ∧ Accepts (s.clock t) a { opcode := 0x0507, rights := 4, pkg := .any, partUse := .pkg } {} r ∧ r.f 32 1 = 0 := by
  refine ⟨5, A6, (Z1 1680 420 0 {flowState := 1, missRun := 4}), (asked (Z1 1680 420 0 {flowState := 1}) A6), (fq (Z1 1680 420 0
    {})), ({flowState := 1, missRun := 4} : Heat), ?_, ?_, ?_, ⟨?_, ?_, ?_⟩, ?_⟩ <;> first | with_reducible rfl | decide +kernel

theorem witness_HeatAndFlowAct_4 : ∃ (t : Nat) (s : State) (r : Req) (rep : FlowRep) (h : Heat), s.heat = h ∧ rep =
    { ml := r.f 0 16, inlet := sx 16 (r.f 16 16), at_ := max s.now t } ∧ 28000 ≤ 10 * (rep.ml : Int) - 175 * max 0 (rep.inlet -
    400) := by
  refine ⟨5, (Z1 3500 380 1 {flowState := 4, missRun := 4}), (asked (Z1 3500 380 1 {flowState := 0}) A6), (fq (Z1 3500 380 1 {})),
    ({flowState := 4, missRun := 4} : Heat), ?_, ?_, ?_⟩ <;> first | with_reducible rfl | decide +kernel

theorem witness_HeatAndFlowAct_5 : ∃ (t : Nat) (temps : List Int) (s : State) (h : Heat), s.heat = h ∧ temps.length = 116 ∧
    h.sampledAt + 100000 ≤ max s.now t ∧ s.boot.vrEn.getLsbD 2 = true ∧ s.boot.poweredOff = false := by
  refine ⟨200000, (tp 1 500), Z0, Z0.heat, ?_, ?_, ?_, ?_, ?_⟩ <;> first | with_reducible rfl | decide +kernel

theorem witness_HeatAndFlowAct_6 : ∃ (t : Nat) (b : Nat) (s : State) (h : Heat), s.heat = h ∧ h.flowLowSince = some b ∧ flowPin
    s = false ∧ b + 200000 < max s.now t ∧ s.boot.vrEn.getLsbD 0 = true ∧ h.flowState ≠ 5 ∧ s.faults.replays = [] := by
  refine ⟨3000000, 7,
    {Z0 with heat := hs, eth := { ports := [(1, {linkUp := true})] }, fab := { links := [(3, {state := .up}), (5, {state := .disabled})] } },
    hs, ?_, ?_, ?_, ?_, ?_, ?_, ?_⟩ <;> first | with_reducible rfl | decide +kernel

theorem witness_HeatAndFlowAct_7 : ∃ (t : Nat) (s : State) (h : Heat), s.heat = h ∧ h.stopped = true ∧ h.flowState = 5 ∧
    h.tripped = false ∧ flowBack (s.clock t) = true ∧ s.boot.stopped ≠ some 0x80 := by
  refine ⟨2000000000, {Z0 with heat := he, evt := { pins := [(0, {level := true})] } }, he, ?_, ?_, ?_, ?_, ?_, ?_⟩
    <;> first | with_reducible rfl | decide +kernel

theorem witness_HeatAndFlowAct_8 : ∃ (t : Nat) (s : State) (h : Heat), s.heat = h ∧ h.stopped = true ∧ h.flowState = 5 ∧
    h.tripped = false ∧ flowBack (s.clock t) = true ∧ s.boot.stopped = some 0x80 := by
  refine ⟨2000000000,
    {Z0 with heat := he, boot := { Z0.boot with stopped := some 0x80 }, evt := { pins := [(0, {level := true})] } }, he, ?_, ?_,
    ?_, ?_, ?_, ?_⟩ <;> first | with_reducible rfl | decide +kernel

end Sys2Proof.Tests.C17

/-! ## Witnesses: 18 bringup -/

namespace Sys2Proof.Tests.C18
open Sys2Proof.Machine

def bs (n : Nat) : State := { boot := { stage := some n, coldRstN := true, vrEn := 15 }, evt := { pins := [(0, {level := true}), (2, {level := true})] }, fuses := { defects := [(3, 5)] }, mbx := { hay := [(0, {state := .active})] } }
def cb : State := { evt := { pins := [(2, {level := true})] }, boot := { nextKind := 1 } }
def f0 : State := { bs 1 with fw := { slotA := { state := .confirmed, version := 7, secVersion := 1 } } }
def ms (n : Nat) : State := { bs 6 with memTest := some ⟨true, 0, n⟩, stks := [(3, {linkUp := true}), (4, {retired := List.range 65})] }

theorem witness_BringUpBegins_1 : ∃ (t : Nat) (cy : Nat) (pin : Nat) (strap : Nat) (rail : Nat) (n : Nat) (lv : Bool) (s :
    State) (b : Boot), s.boot = b ∧ 100 ≤ cy ∧ b.coldRstN = true ∧ pin < 3 ∧ (mget {} s.evt.pins pin).level = !lv ∧ cfg s (56 +
    pin) 4 ≤ cy ∧ pin = 2 ∧ lv = false ∧ b.poweredOff = false ∧ inStage (s.clock t) 0 = true ∧ mayRaise (s.clock t) = true ∧
    strap < 128 ∧ railEnable rail = some n ∧ b.vrEn.getLsbD n = true ∧ (8 ≤ rail ∨ rail / 4 ∉ s.power.fallow) := by
  refine ⟨500, 100, 2, 5, 3, 0, false, (bs 0), (bs 0).boot, ?_, ?_, ?_, ?_, ?_, ?_, ?_, ?_, ?_, ?_, ?_, ?_, ?_, ?_, ?_⟩
    <;> first | with_reducible rfl | decide +kernel

theorem witness_BringUpBegins_2 : ∃ (t : Nat) (cy : Nat) (pin : Nat) (k : Nat) (lv : Bool) (f1 : Option Nat) (f2 : Option Nat)
    (s : State) (b : Boot), s.boot = b ∧ cy < 100 ∧ pin < 3 ∧ (mget {} s.evt.pins pin).level = !lv ∧ cy < cfg s (56 + pin) 4 ∧
    inStage (s.clock t) 1 = true ∧ s.fw.fallback = false ∧ s.fw.trial = none ∧ confirmedSlots s = [k] ∧ slotFault s k [f1, f2] =
    none := by
  refine ⟨500, 3, 0, 0, false, none, none, f0, f0.boot, ?_, ?_, ?_, ?_, ?_, ?_, ?_, ?_, ?_, ?_⟩
    <;> first | with_reducible rfl | decide +kernel

theorem witness_BringUpBegins_3 : ∃ (cy : Nat) (pin : Nat) (lv : Bool) (s : State) (b : Boot), s.boot = b ∧ pin < 3 ∧ (mget {}
    s.evt.pins pin).level = !lv ∧ cfg s (56 + pin) 4 ≤ cy ∧ pin = 1 ∧ lv = true ∧ s.power.shedOn = true := by
  refine ⟨100, 1, true, { bs 0 with power := { shedOn := true } }, (bs 0).boot, ?_, ?_, ?_, ?_, ?_, ?_, ?_⟩
    <;> first | with_reducible rfl | decide +kernel

theorem witness_BringUpBegins_4 : ∃ (cy : Nat) (pin : Nat) (lv : Bool) (s : State) (b : Boot), s.boot = b ∧ pin < 3 ∧ (mget {}
    s.evt.pins pin).level = !lv ∧ cfg s (56 + pin) 4 ≤ cy ∧ pin = 1 ∧ lv = false := by
  refine ⟨100, 1, false, { bs 8 with evt := { pins := [(1, {level := true})] } }, (bs 8).boot, ?_, ?_, ?_, ?_, ?_, ?_⟩
    <;> first | with_reducible rfl | decide +kernel

theorem witness_BringUpBegins_5 : ∃ (cy : Nat) (s : State) (b : Boot), s.boot = b ∧ 100 ≤ cy ∧ b.coldRstN = false := by
  refine ⟨100, cb, cb.boot, ?_, ?_, ?_⟩ <;> first | with_reducible rfl | decide +kernel

theorem witness_BringUpBegins_6 : ∃ (t : Nat) (n : Nat) (k : Nat) (f1 : Option Nat) (f2 : Option Nat) (s : State) (b : Boot),
    s.boot = b ∧ inStage (s.clock t) 1 = true ∧ s.fw.fallback = false ∧ s.fw.trial = none ∧ confirmedSlots s = [k] ∧ slotFault s
    k [f1, f2] = some n := by
  refine ⟨500, 1, 0, (some 1), none, f0, f0.boot, ?_, ?_, ?_, ?_, ?_, ?_⟩ <;> first | with_reducible rfl | decide +kernel

theorem witness_BringUpBegins_7 : ∃ (t : Nat) (pa : Bool) (pb : Bool) (s : State) (b : Boot), s.boot = b ∧ inStage (s.clock t) 2
    = true ∧ (pa = true ∨ pb = true) := by
  refine ⟨500, true, true, (bs 2), (bs 2).boot, ?_, ?_, ?_⟩ <;> first | with_reducible rfl | decide +kernel

theorem witness_BringUpBegins_8 : ∃ (t : Nat) (n : Nat) (s : State) (b : Boot), s.boot = b ∧ b.stage = some n ∧ n ≤ 6 ∧
    b.stopped = none ∧ s.mbx.headless = false ∧ (n ≠ 3 ∨ flowPin s = true) ∧ limitFrom s n + stageLimit n b.testFull < max s.now
    t := by
  refine ⟨2000000000, 2, (bs 2), (bs 2).boot, ?_, ?_, ?_, ?_, ?_, ?_, ?_⟩ <;> first | with_reducible rfl | decide +kernel

theorem witness_BringUpBegins_9 : ∃ (t : Nat) (pa : Bool) (pb : Bool) (s : State) (b : Boot), s.boot = b ∧ inStage (s.clock t) 2
    = true ∧ pa = false ∧ pb = false := by
  refine ⟨500, false, false, (bs 2), (bs 2).boot, ?_, ?_, ?_, ?_⟩ <;> first | with_reducible rfl | decide +kernel

theorem witness_BringUpBegins_10 : ∃ (cy : Nat) (pin : Nat) (lv : Bool) (s : State) (b : Boot), s.boot = b ∧ pin < 3 ∧ (mget {}
    s.evt.pins pin).level = !lv ∧ cfg s (56 + pin) 4 ≤ cy ∧ pin = 0 ∧ lv = false := by
  refine ⟨100, 0, false, (bs 0), (bs 0).boot, ?_, ?_, ?_, ?_, ?_, ?_⟩ <;> first | with_reducible rfl | decide +kernel

theorem witness_BringUpEnds_1 : ∃ (t : Nat) (s : State), inStage (s.clock t) 3 = true ∧ flowPin s = true ∧ mayRaise (s.clock t)
    = true := by
  refine ⟨500, (bs 3), ?_, ?_, ?_⟩ <;> first | with_reducible rfl | decide +kernel

theorem witness_BringUpEnds_2 : ∃ (t : Nat) (s : State), inStage (s.clock t) 4 = true := by
  refine ⟨500, (bs 4), ?_⟩ <;> first | with_reducible rfl | decide +kernel

theorem witness_BringUpEnds_3 : ∃ (t : Nat) (other : Bool) (s : State), inStage (s.clock t) 5 = true ∧ other = false := by
  refine ⟨500, false, (bs 5), ?_, ?_⟩ <;> first | with_reducible rfl | decide +kernel

theorem witness_BringUpEnds_4 : ∃ (t : Nat) (other : Bool) (s : State), inStage (s.clock t) 5 = true ∧ other = true := by
  refine ⟨500, true, (bs 5), ?_, ?_⟩ <;> first | with_reducible rfl | decide +kernel

theorem witness_BringUpEnds_5 : ∃ (t : Nat) (s : State), inStage (s.clock t) 6 = true ∧ s.memTest = none ∧ s.boot.stageStart +
    4000000000 ≤ max s.now t := by
  refine ⟨4000000500, (bs 6), ?_, ?_, ?_⟩ <;> first | with_reducible rfl | decide +kernel

theorem witness_BringUpEnds_6 : ∃ (t : Nat) (at_ : Nat) (s : State) (m : MemTest), inStage (s.clock t) 6 = true ∧ s.memTest =
    some m ∧ (testStarts s.boot.testFull)[m.step + 1]? = some at_ ∧ m.start + 1000000 * at_ ≤ max s.now t := by
  refine ⟨4000000500, 3000, (ms 1), ⟨true, 0, 1⟩, ?_, ?_, ?_, ?_⟩ <;> first | with_reducible rfl | decide +kernel

theorem witness_BringUpEnds_7 : ∃ (t : Nat) (s : State) (m : MemTest), inStage (s.clock t) 6 = true ∧ s.memTest = some m ∧
    m.step + 1 = (testStarts s.boot.testFull).length := by
  refine ⟨150000000000, (ms 8), ⟨true, 0, 8⟩, ?_, ?_, ?_⟩ <;> first | with_reducible rfl | decide +kernel

theorem witness_BringUpEnds_8 : ∃ (t : Nat) (degraded : List (Nat × Nat)) (s : State), inStage (s.clock t) 7 = true ∧
    s.heat.stopped = false ∧ ((∀ k < 71, (linkOf s k).state ∈ [.up, .degraded, .miswired]) ∨ s.boot.stageStart + 12000000000 ≤
    max s.now t) := by
  refine ⟨12000000000, [(2, 9)], (bs 7), ?_, ?_, ?_⟩ <;> first | with_reducible rfl | decide +kernel

theorem witness_BringUpEnds_9 : ∃ (s : State), s.boot.stage = some 8 ∧ s.sess.pkg = some .bringup ∧ s.boot.stopped = none ∧
    s.mbx.headless = false := by
  refine ⟨{ bs 8 with sess := { pkg := some .bringup } }, ?_, ?_, ?_, ?_⟩ <;> first | with_reducible rfl | decide +kernel

end Sys2Proof.Tests.C18

/-! ## Witnesses: 19 security -/

namespace Sys2Proof.Tests.C19
open Sys2Proof.Machine

def B0 : State := { inService [(0, wPart .running)] with fab := { lpt := [0x80, 0x81,0x82] } }
def zl : Lane := { lstate := .inService, signal := true }
def ul : Link := { state := .up, rxLanes := 7, txLanes := 7 }
def BL (y : LinkKey) (arr : List Pkt := []) : State := { B0 with fab := { B0.fab with links := [(0, { ul with key := y })], lanes := [(0, { zl with arrived := arr }), (1, zl), (2, zl)] } }
def kp (msg fr : Nat) (last rot : Bool) : Pkt := mkPkt { B0 with boot := { B0.boot with posId := 1 } } { op := 0x30, vc := 5, destPos := 0, destEid := 344, srcEid := 1024+344, operand := packBits [(msg,4),(fr,8),(b2n last,1),(b2n rot,1)] } (List.replicate 30 7)
def tk (s : State) (p : Pkt) : State := let e := s.clock 5; let h := p.hdr; freeFlits (countRx (popLane e 0) 0 h) 0 (pairOf h) (pktFlits h)
def yc : LinkKey := { k0 := some 4, frags := 0 }
def y2 : LinkKey := { init := true, msg := 1, frags := 2 }
def y3 : LinkKey := { init := false, msg := 2, frags := 2 }
def y4 : LinkKey := { init := false, msg := 2, frags := 2, k0 := some 6, rotation := true, retryAt := some 4, destroyIn := some 1 }
def ae : MbxArgs := opAsk 0x804 4 (2^64)
def al : MbxArgs := opAsk 0x805 4 (2^64)
def acr : MbxArgs := opAsk 0x805 0 0
def Bc : State := { B0 with cellars := [(0, { lent := true, k0 := some 3 })] }
def Sp (v : Spdm) (b : Option Nat := none) : State := { inService [(1, {wPart .running with bind := b})] with host := { linkUp := true }, keys := { spdm := [(2, v)] } }
def zf : InFlight := { mb := 5, opcode := 0x803, seq := 1, kind := .replay, takenAt := 0 }
def zb : Nat × Buf := (4, ⟨77,9,0,2,1,0x200000,5000,0,[.frame 1 5]⟩)
def oc : State := winWrite { mbx := { boxes := [(0, { reqTail := 1, waitSince := some 0 })], hay := [(0, {state := .active})] }, sess := { pkg := some .unconfigured } , host := { linkUp := true, fns := [(0, {bme := true})] } } 0 0 (leBytes 64 (packBits [(0x800, 16), (1, 16), (48, 28), (2, 2), (0, 2), (1, 4), (0, 4), (4, 3), (0, 5), (0, 48), (100, 28)]))
def oca : MbxArgs := { mb := 0, data := List.replicate 48 9 }
def tb : MbxArgs := { (opAsk 0x801 1 0 (List.replicate 48 3)) with mb := 5 }
def TB : State := inService [(1, wPart .assigned), (2, wPart .assigned)] 
def MK (att : Bool) (pol : List Byte) : State := let s := tenAsk (inService [(0, wPart .running)]) 0x802 1 0 (leBytes 64 77 ++ pol); { s with keys := { s.keys with spdm := [(1, { held := true, live := true, attested := att })] } }
def MF : State := { MK true [] with keys := { (MK true []).keys with model := [(0,1,1),(1,2,2),(2,3,3),(3,4,4)] } }
def bh : Nat := packBits [(77,32),(1,32),(10,32),(5,64),(10,64)]
def BLs : State :=
  let s1 := winWrite (inService [(0, wPart .running)]) 1 0 (leBytes 64 (packBits [(0x803, 16), (1, 16), (90, 28), (2, 2), (0, 2), (1, 4), (0, 4), (0, 3), (0, 5), (0, 48), (100, 28), (0,36),(0,64),(77,32),(0,32),(64,64)]))
  { s1 with mbx := { s1.mbx with boxes := [(1, { reqTail := 1, waitSince := some 0 })] }, keys := { spdm := [(1, { live := true })], model := [(0, 77, 1)] }, host := { linkUp := true, fns := [(1, {bme := true})] }, place := { bufs := [zb] }, stks := [(1, wStack)] }
def bla : MbxArgs := { mb := 1, data := leBytes 64 bh ++ List.replicate 26 1 }
def bf : InFlight := { zf with mb := 1, kind := .baleLoad 0x200040 10 }
def BC : State := { BLs with mbx := { BLs.mbx with flight := [bf] } }
def cw : Cellar := { lent := true, k0 := some 1, k1 := some 2, cur := 1, walk := some 3, table := [(5, {epoch := 0, count := 8})], destroyIn := some 1 }
def CW : State := { host := { linkUp := true, fns := [(2, {bme := true})] }, cellars := [(1, cw)], tick := { due := some 4 } }
def ks : MbxArgs := opAsk 0x806 4 0

theorem witness_LinkKeysAct_1 : ∃ (t : Nat) (k : Nat) (o : Nat) (s : State) (y : LinkKey), (linkOf s k).key = y ∧ y.retryAt =
    some o ∧ o ≤ max s.now t ∧ boundaryDue (s.clock t) = true ∧ k < 71 ∧ y.destroyIn = some 1 ∧ s.keys.graceTicks = 1 := by
  refine ⟨5, 0, 4, { BL y4 with tick := { due := some 4}, keys := { graceTicks := 1} }, y4, ?_, ?_, ?_, ?_, ?_, ?_, ?_⟩
    <;> first | with_reducible rfl | decide +kernel

theorem witness_LinkKeysAct_2 : ∃ (n : Nat) (s : State) (y : LinkKey), keysReady s n = true ∧ (linkOf s n).key = y ∧ y.retryAt =
    none ∧ y.msg = 0 ∧ ((y.current = none ∧ lowerEnd s n = true) ∨ (y.rotation = true ∧ y.init = true ∧ y.both = false)) := by
  refine ⟨0, (BL {}), ({} : LinkKey), ?_, ?_, ?_, ?_, ?_⟩ <;> first | with_reducible rfl | decide +kernel

theorem witness_LinkKeysAct_3 : ∃ (n : Nat) (s : State) (y : LinkKey), keysReady s n = true ∧ (linkOf s n).key = y ∧ y.init =
    false ∧ y.msg = 1 := by
  refine ⟨0, (BL {msg := 1}), ({msg := 1} : LinkKey), ?_, ?_, ?_, ?_⟩ <;> first | with_reducible rfl | decide +kernel

theorem witness_LinkKeysAct_4 : ∃ (n : Nat) (s : State) (y : LinkKey), keysReady s n = true ∧ (linkOf s n).key = y ∧ y.init =
    true ∧ y.msg = 2 := by
  refine ⟨0, (BL {msg := 2, init := true}), ({msg := 2, init := true} : LinkKey), ?_, ?_, ?_, ?_⟩
    <;> first | with_reducible rfl | decide +kernel

theorem witness_LinkKeysAct_5 : ∃ (t : Nat) (n : Nat) (k : Nat) (o : Nat) (accept : Bool) (s : State) (s1 : State) (p : Pkt) (h
    : Nat) (pay : List Byte) (y : LinkKey), Arrives (s.clock t) n 0x30 none p s1 h pay ∧ n < 213 ∧ k = n / 3 ∧ o = hOperand h ∧
    (linkOf s1 k).key = y ∧ bits o 4 8 = y.frags ∧ bit o 12 = true ∧ bits o 0 4 = 1 ∧ (if bit o 13 = true then y.current ≠ none
    ∧ y.both = false ∧ ¬(y.rotation = true ∧ y.init = true ∧ 1 ≤ y.msg ∧ lowerEnd s k = true) else lowerEnd s k = false ∧
    y.current = none) ∧ accept = true := by
  refine ⟨5, 0, 0, (hOperand (kp 1 0 true true).hdr), true, (BL yc [kp 1 0 true true]), (tk (BL yc [kp 1 0 true true]) (kp 1 0
    true true)), (kp 1 0 true true), (kp 1 0 true true).hdr, (clearPay (kp 1 0 true true) none), yc, ⟨?_, ?_, ?_, ?_, ?_, ?_⟩,
    ?_, ?_, ?_, ?_, ?_, ?_, ?_, ?_, ?_⟩ <;> first | with_reducible rfl | decide +kernel

theorem witness_LinkKeysAct_6 : ∃ (t : Nat) (n : Nat) (k : Nat) (o : Nat) (accept : Bool) (s : State) (s1 : State) (p : Pkt) (h
    : Nat) (pay : List Byte) (y : LinkKey), Arrives (s.clock t) n 0x30 none p s1 h pay ∧ n < 213 ∧ k = n / 3 ∧ o = hOperand h ∧
    (linkOf s1 k).key = y ∧ bits o 4 8 = y.frags ∧ bit o 12 = true ∧ bits o 0 4 = 1 ∧ (if bit o 13 = true then y.current ≠ none
    ∧ y.both = false ∧ ¬(y.rotation = true ∧ y.init = true ∧ 1 ≤ y.msg ∧ lowerEnd s k = true) else lowerEnd s k = false ∧
    y.current = none) ∧ accept = false := by
  refine ⟨5, 0, 0, (hOperand (kp 1 0 true true).hdr), false, (BL yc [kp 1 0 true true]), (tk (BL yc [kp 1 0 true true]) (kp 1 0
    true true)), (kp 1 0 true true), (kp 1 0 true true).hdr, (clearPay (kp 1 0 true true) none), yc, ⟨?_, ?_, ?_, ?_, ?_, ?_⟩,
    ?_, ?_, ?_, ?_, ?_, ?_, ?_, ?_, ?_⟩ <;> first | with_reducible rfl | decide +kernel

theorem witness_LinkKeysAct_7 : ∃ (t : Nat) (n : Nat) (k : Nat) (o : Nat) (s : State) (s1 : State) (p : Pkt) (h : Nat) (pay :
    List Byte) (y : LinkKey), Arrives (s.clock t) n 0x30 none p s1 h pay ∧ n < 213 ∧ k = n / 3 ∧ o = hOperand h ∧ (linkOf s1
    k).key = y ∧ bits o 4 8 = y.frags ∧ bit o 12 = false ∧ bits o 0 4 = 1 := by
  refine ⟨5, 0, 0, (hOperand (kp 1 0 false true).hdr), (BL yc [kp 1 0 false true]), (tk (BL yc [kp 1 0 false true]) (kp 1 0 false
    true)), (kp 1 0 false true), (kp 1 0 false true).hdr, (clearPay (kp 1 0 false true) none), yc, ⟨?_, ?_, ?_, ?_, ?_, ?_⟩,
    ?_, ?_, ?_, ?_, ?_, ?_, ?_⟩ <;> first | with_reducible rfl | decide +kernel

theorem witness_LinkKeysAct_8 : ∃ (t : Nat) (n : Nat) (k : Nat) (o : Nat) (accept : Bool) (s : State) (s1 : State) (p : Pkt) (h
    : Nat) (pay : List Byte) (y : LinkKey), Arrives (s.clock t) n 0x30 none p s1 h pay ∧ n < 213 ∧ k = n / 3 ∧ o = hOperand h ∧
    (linkOf s1 k).key = y ∧ bits o 4 8 = y.frags ∧ bit o 12 = true ∧ bits o 0 4 = 2 ∧ y.init = true ∧ y.msg = 1 ∧ accept = true
    := by
  refine ⟨5, 0, 0, (hOperand (kp 2 2 true false).hdr), true, (BL y2 [kp 2 2 true false]), (tk (BL y2 [kp 2 2 true false]) (kp 2 2
    true false)), (kp 2 2 true false), (kp 2 2 true false).hdr, (clearPay (kp 2 2 true false) none), y2, ⟨?_, ?_, ?_, ?_,
    ?_, ?_⟩, ?_, ?_, ?_, ?_, ?_, ?_, ?_, ?_, ?_, ?_⟩ <;> first | with_reducible rfl | decide +kernel

theorem witness_LinkKeysAct_9 : ∃ (t : Nat) (n : Nat) (k : Nat) (o : Nat) (accept : Bool) (s : State) (s1 : State) (p : Pkt) (h
    : Nat) (pay : List Byte) (y : LinkKey), Arrives (s.clock t) n 0x30 none p s1 h pay ∧ n < 213 ∧ k = n / 3 ∧ o = hOperand h ∧
    (linkOf s1 k).key = y ∧ bits o 4 8 = y.frags ∧ bit o 12 = true ∧ bits o 0 4 = 3 ∧ y.init = false ∧ y.msg = 2 ∧ accept = true
    := by
  refine ⟨5, 0, 0, (hOperand (kp 3 2 true false).hdr), true, (BL y3 [kp 3 2 true false]), (tk (BL y3 [kp 3 2 true false]) (kp 3 2
    true false)), (kp 3 2 true false), (kp 3 2 true false).hdr, (clearPay (kp 3 2 true false) none), y3, ⟨?_, ?_, ?_, ?_,
    ?_, ?_⟩, ?_, ?_, ?_, ?_, ?_, ?_, ?_, ?_, ?_, ?_⟩ <;> first | with_reducible rfl | decide +kernel

theorem witness_LinkKeysAct_10 : ∃ (t : Nat) (a : MbxArgs) (s : State) (r : Req), tickBad s (r.f 0 64) = false ∧ tickWrong s
    (r.f 0 64) = false ∧ s.sess.staged.length < 64 ∧ Accepts (s.clock t) a
    { opcode := 0x0804, rights := 1, pkg := .uc, partUse := .pkg, resp := 8 } {} r := by
  refine ⟨5, ae, B0, (asked B0 ae), ?_, ?_, ?_, ⟨?_, ?_, ?_⟩⟩ <;> first | with_reducible rfl | decide +kernel

theorem witness_LinkKeysAct_11 : ∃ (t : Nat) (k : Nat) (a : MbxArgs) (s : State) (r : Req), tickBad s (r.f 0 64) = false ∧
    tickWrong s (r.f 0 64) = false ∧ s.sess.staged.length < 64 ∧ r.f 64 2 = 1 ∧ r.part = 4 ∧ r.tenant = false ∧
    s.keys.drbgFailed = false ∧ (∀ k < 71, (linkOf s k).key.both = false ∧ (linkOf s k).key.rotation = false) ∧ Accepts (s.clock
    t) a (rotateCmd none) {} r := by
  refine ⟨5, 0, al, (BL { k0 := some 6}), (asked B0 al), ?_, ?_, ?_, ?_, ?_, ?_, ?_, ?_, ⟨?_, ?_, ?_⟩⟩
    <;> first | with_reducible rfl | decide +kernel

theorem witness_LinkKeysAct_12 : ∃ (t : Nat) (a : MbxArgs) (s : State) (r : Req), tickBad s (r.f 0 64) = false ∧ tickWrong s
    (r.f 0 64) = false ∧ s.sess.staged.length < 64 ∧ r.f 64 2 = 0 ∧ r.part < 4 ∧ (cellarOf s r.part).lent = true ∧ (cellarOf s
    r.part).both = false ∧ s.keys.drbgFailed = false ∧ Accepts (s.clock t) a (rotateCmd (some [.assigned, .running])) {} r := by
  refine ⟨5, acr, Bc, (asked Bc acr), ?_, ?_, ?_, ?_, ?_, ?_, ?_, ?_, ⟨?_, ?_, ?_⟩⟩
    <;> first | with_reducible rfl | decide +kernel

theorem witness_SpdmAnswers_1 : ∃ (f : Nat) (slot : Nat) (index : Option Nat) (ins : Bool) (assoc : List (Nat × Nat)) (s :
    State) (v : Spdm), s.host.linkUp = true ∧ f < 5 ∧ spdmOf s f = v ∧ slot ≠ 0 ∧ (ins = false ∨ v.held = true) ∧ index = none ∧
    s.keys.drbgFailed = false ∧ (v.held = true ∨ 1 ≤ f ∧ pstate s (f - 1) = .winnowing) ∧ v.live = true ∧ 1 ≤ f ∧ slot < 2 ∧
    assoc.length ≤ 2 ∧ v.held = true := by
  refine ⟨2, 1, (none), true, [], (Sp {held := true, live := true}), ({held := true, live := true} : Spdm), ?_, ?_, ?_, ?_,
    ?_, ?_, ?_, ?_, ?_, ?_, ?_, ?_, ?_⟩ <;> first | with_reducible rfl | decide +kernel

theorem witness_SpdmAnswers_2 : ∃ (f : Nat) (dig : Nat) (i : Nat) (index : Option Nat) (ins : Bool) (s : State) (v : Spdm),
    s.host.linkUp = true ∧ f < 5 ∧ spdmOf s f = v ∧ (ins = false ∨ v.held = true) ∧ index = some i ∧ v.held = false ∧ (f = 0 ∨
    pstate s (f - 1) ≠ .winnowing) ∧ v.offer ≠ some dig ∧ f = 0 := by
  refine ⟨0, 7, 3, (some 3), false, (Sp {held := true} (some 9)), ({} : Spdm), ?_, ?_, ?_, ?_, ?_, ?_, ?_, ?_, ?_⟩
    <;> first | with_reducible rfl | decide +kernel

theorem witness_SpdmAnswers_3 : ∃ (f : Nat) (slot : Nat) (s : State) (v : Spdm), s.host.linkUp = true ∧ f < 5 ∧ spdmOf s f = v ∧
    slot = 0 := by
  refine ⟨2, 0, (Sp {held := true, live := true}), ({held := true, live := true} : Spdm), ?_, ?_, ?_, ?_⟩
    <;> first | with_reducible rfl | decide +kernel

theorem witness_SpdmAnswers_4 : ∃ (f : Nat) (dig : Nat) (s : State) (v : Spdm), s.host.linkUp = true ∧ f < 5 ∧ spdmOf s f = v ∧
    v.held = false ∧ (f = 0 ∨ pstate s (f - 1) ≠ .winnowing) ∧ v.offer = some dig ∧ s.keys.drbgFailed = false := by
  refine ⟨2, 7, (Sp {offer := some 7}), ({offer := some 7} : Spdm), ?_, ?_, ?_, ?_, ?_, ?_, ?_⟩
    <;> first | with_reducible rfl | decide +kernel

theorem witness_SpdmAnswers_5 : ∃ (f : Nat) (cred : Nat) (sigOk : Bool) (s : State) (v : Spdm), s.host.linkUp = true ∧ f < 5 ∧
    spdmOf s f = v ∧ v.held = true ∧ v.live = false ∧ sigOk = true ∧ ((if f = 0 then s.fuses.anchor else (partOf s (f -
    1)).bind) = some cred) := by
  refine ⟨2, 8, true, (Sp {held := true} (some 8)), ({held := true} : Spdm), ?_, ?_, ?_, ?_, ?_, ?_, ?_⟩
    <;> first | with_reducible rfl | decide +kernel

theorem witness_SpdmAnswers_6 : ∃ (f : Nat) (cred : Nat) (sigOk : Bool) (s : State) (v : Spdm), s.host.linkUp = true ∧ f < 5 ∧
    spdmOf s f = v ∧ v.held = true ∧ v.live = false ∧ (sigOk = false ∨ (if f = 0 then s.fuses.anchor else (partOf s (f -
    1)).bind) ≠ some cred) := by
  refine ⟨2, 8, true, (Sp {held := true} (some 9)), ({held := true} : Spdm), ?_, ?_, ?_, ?_, ?_, ?_⟩
    <;> first | with_reducible rfl | decide +kernel

theorem witness_KeysAndBalesAct_1 : ∃ (t : Nat) (p : Nat) (m : Nat) (seq : Nat) (dst : Nat) (len : Nat) (on : Bool) (bs : List
    Byte) (s : State) (f : InFlight), (s.mbx.flight.find? (fun f => f.mb == m && f.seq == seq) = some f) ∧ f.kind = .baleLoad
    dst len ∧ serving s = true ∧ rangeReady (s.clock t) dst len = true ∧ bs.length = len ∧ on = true ∧ p < 4 ∧ pstate s p ≠
    .free := by
  refine ⟨5, 0, 1, 1, 0x200040, 10, true, (List.replicate 10 4), BC, bf, ?_, ?_, ?_, ?_, ?_, ?_, ?_, ?_⟩
    <;> first | with_reducible rfl | decide +kernel

theorem witness_KeysAndBalesAct_2 : ∃ (t : Nat) (p : Nat) (m : Nat) (good : Bool) (on : Bool) (s : State) (b : Nat × Buf) (c :
    Cellar) (e : Nat × Sector), p < 4 ∧ cellarOf s p = c ∧ c.walk = some m ∧ c.both = true ∧ canMaster s (p + 1) = true ∧
    (c.table.find? (fun e => decide (m ≤ e.1) && underOld c e && !c.buf.any (fun b => b.sector == e.1 && b.dirty)) = some e) ∧
    good = true ∧ boundaryDue (s.clock t) = true ∧ c.destroyIn = some 1 ∧ on = true ∧ (∀ p < 4, pstate s p = .free) := by
  refine ⟨5, 1, 3, true, true, CW, zb, cw, (5, ({epoch := 0, count := 8}:Sector)), ?_, ?_, ?_, ?_, ?_, ?_, ?_, ?_, ?_, ?_, ?_⟩
    <;> first | with_reducible rfl | decide +kernel

theorem witness_KeysAndBalesAct_3 : ∃ (p : Nat) (m : Nat) (good : Bool) (on : Bool) (s : State) (b : Nat × Buf) (c : Cellar) (e
    : Nat × Sector), p < 4 ∧ cellarOf s p = c ∧ c.walk = some m ∧ c.both = true ∧ canMaster s (p + 1) = true ∧ (c.table.find?
    (fun e => decide (m ≤ e.1) && underOld c e && !c.buf.any (fun b => b.sector == e.1 && b.dirty)) = some e) ∧ good = false ∧
    on = false := by
  refine ⟨1, 3, false, false, CW, zb, cw, (5, ({epoch := 0, count := 8}:Sector)), ?_, ?_, ?_, ?_, ?_, ?_, ?_, ?_⟩
    <;> first | with_reducible rfl | decide +kernel

theorem witness_KeysAndBalesAct_4 : ∃ (t : Nat) (a : MbxArgs) (s : State) (r : Req), r.mb = 0 ∧ s.fuses.anchor = none ∧ Accepts
    (s.clock t) a { opcode := 0x0800, rights := 1, pkg := .u, partUse := .pkg, lenOk := (· == 48) } {} r := by
  refine ⟨5, oca, oc, (asked oc oca), ?_, ?_, ⟨?_, ?_, ?_⟩⟩ <;> first | with_reducible rfl | decide +kernel

theorem witness_KeysAndBalesAct_5 : ∃ (t : Nat) (a : MbxArgs) (s : State) (r : Req), (partOf s r.part).bind = none ∧ Accepts
    (s.clock t) a { opcode := 0x0801, rights := 1, pkg := .uc, partUse := .one, parts := some [.assigned], lenOk := (· == 48) }
    {} r := by
  refine ⟨5, tb, TB, (asked TB tb), ?_, ⟨?_, ?_, ?_⟩⟩ <;> first | with_reducible rfl | decide +kernel

theorem witness_KeysAndBalesAct_6 : ∃ (t : Nat) (g : Nat) (tagOk : Bool) (a : MbxArgs) (s : State) (r : Req) (c : Cellar), leNat
    (r.payload.take 4) ≠ 0 ∧ (Accepts (s.clock t) a
    { opcode := 0x0802, rights := 2, pkg := .c, partUse := .one, parts := some [.assigned, .running], lenOk := fun n => 64 ≤ n && n ≤ 4096 && (n - 64) % 48 == 0 }
    {} r) ∧ (spdmOf s (r.part + 1)).live = true ∧ (spdmOf s (r.part + 1)).attested = true ∧ tagOk = true ∧ policyOk s r.payload
    = true ∧ slotFor s r.part (leNat (r.payload.take 4)) = some g := by
  refine ⟨5, 0, true, tenArgs, (MK true []), (asked (MK true []) tenArgs), ({}:Cellar), ?_, ⟨?_, ?_, ?_⟩, ?_, ?_, ?_, ?_, ?_⟩
    <;> first | with_reducible rfl | decide +kernel

theorem witness_KeysAndBalesAct_7 : ∃ (t : Nat) (tagOk : Bool) (a : MbxArgs) (s : State) (r : Req) (c : Cellar), leNat
    (r.payload.take 4) ≠ 0 ∧ (Accepts (s.clock t) a
    { opcode := 0x0802, rights := 2, pkg := .c, partUse := .one, parts := some [.assigned, .running], lenOk := fun n => 64 ≤ n && n ≤ 4096 && (n - 64) % 48 == 0 }
    {} r) ∧ ((spdmOf s (r.part + 1)).live = false ∨ (spdmOf s (r.part + 1)).attested = false ∨ tagOk = false ∨ policyOk s
    r.payload = false) := by
  refine ⟨5, true, tenArgs, (MK false []), (asked (MK false []) tenArgs), ({}:Cellar), ?_, ⟨?_, ?_, ?_⟩, ?_⟩
    <;> first | with_reducible rfl | decide +kernel

theorem witness_KeysAndBalesAct_8 : ∃ (t : Nat) (tagOk : Bool) (a : MbxArgs) (s : State) (r : Req) (c : Cellar), leNat
    (r.payload.take 4) ≠ 0 ∧ (Accepts (s.clock t) a
    { opcode := 0x0802, rights := 2, pkg := .c, partUse := .one, parts := some [.assigned, .running], lenOk := fun n => 64 ≤ n && n ≤ 4096 && (n - 64) % 48 == 0 }
    {} r) ∧ (spdmOf s (r.part + 1)).live = true ∧ (spdmOf s (r.part + 1)).attested = true ∧ tagOk = true ∧ policyOk s r.payload
    = true ∧ slotFor s r.part (leNat (r.payload.take 4)) = none := by
  refine ⟨5, true, tenArgs, MF, (asked MF tenArgs), ({}:Cellar), ?_, ⟨?_, ?_, ?_⟩, ?_, ?_, ?_, ?_, ?_⟩
    <;> first | with_reducible rfl | decide +kernel

theorem witness_KeysAndBalesAct_9 : ∃ (t : Nat) (g : Nat) (len : Nat) (a : MbxArgs) (s : State) (r : Req) (b : Nat × Buf) (c :
    Cellar) (f : InFlight), g = leNat (r.payload.take 64) ∧ bufOf s (sessionOf s r.part) (r.f 0 32) = some b ∧ r.ploc = 2 ∧ 64 ≤
    r.len ∧ bits g 32 32 ≠ 0 ∧ 1 ≤ bits g 64 32 ∧ bits g 64 32 ≤ 65536 ∧ bits g 160 64 = 65536 * (bits g 32 32 - 1) + bits g 64
    32 ∧ r.len = 64 + bits g 160 64 + 16 * bits g 32 32 ∧ r.f 64 64 + bits g 160 64 ≤ b.2.size ∧ (slotOfKey s r.part (bits g 0
    32)).isSome = true ∧ (Accepts (s.clock t) a
    { opcode := 0x0803, rights := 2, pkg := .c, partUse := .one, parts := some [.assigned, .running], lenOk := fun _ => true }
    {} r) := by
  refine ⟨5, (leNat ((asked BLs bla).payload.take 64)), 0, bla, BLs, (asked BLs bla), zb, ({}:Cellar), zf, ?_, ?_, ?_, ?_, ?_, ?_,
    ?_, ?_, ?_, ?_, ?_, ⟨?_, ?_, ?_⟩⟩ <;> first | with_reducible rfl | decide +kernel

theorem witness_KeysAndBalesAct_10 : ∃ (p : Nat) (m : Nat) (s : State) (c : Cellar), p < 4 ∧ cellarOf s p = c ∧ c.walk = some m
    ∧ c.both = true ∧ canMaster s (p + 1) = true ∧ oldSectors c = 0 := by
  refine ⟨1, 3, { CW with cellars := [(1, { cw with table := [] })] }, { cw with table := [] }, ?_, ?_, ?_, ?_, ?_, ?_⟩
    <;> first | with_reducible rfl | decide +kernel

theorem witness_KeysAndBalesAct_11 : ∃ (t : Nat) (a : MbxArgs) (s : State) (r : Req), Accepts (s.clock t) a
    { opcode := 0x0806, rights := 3, pkg := .any, partUse := .pkg, resp := 32 } {} r := by
  refine ⟨5, ks, TB, (asked TB ks), ⟨?_, ?_, ?_⟩⟩ <;> first | with_reducible rfl | decide +kernel

end Sys2Proof.Tests.C19

/-! ## Witnesses: 20 faults -/

namespace Sys2Proof.Tests.C20
open Sys2Proof.Machine

def hb (st : PState) : State := { inService [(0, wPart st)] with tick := { due := some 1000, rel := [(0, { out := true, since := 4 })] } }
def fs (f : Fence) : State := { inService [(0, wPart .fenced)] with faults := { fences := [(0, f)] }, cellars := [(0, {slots := 4})], keys := { model := [(1, 4, 5)] }, cores := [(3, {queue := [7]})] }
def F8 : Fence := { cause := 8, tick := 3, start := 100 }
def smp : Sample := { fence := { F8 with hungKind := 1, hungIndex := 3 }, drainNs := 100, spad := [(64, 5)], gens := [], blocks := [], descs := [(descTag 0 0 3 0 0, 7)], chans := [], glns := [[], [], []] }
def rs : State := { inService [(0, wPart .fenced)] with faults := { fences := [(0, { F8 with complete := true })], samples := [(0, smp)] } }
def ra := opAsk 0x902 0 5
def rv (s : State) (n : Nat) : Replay := { suspects := suspectsOf 0 smp, ms := 5, startedAt := 0, next := n }
def rs2 (n : Nat) : State := { rs with cores := [(3, {queue := [7], issued := 0})], faults := { rs.faults with replays := [(0, rv rs n)] }, mbx := { rs.mbx with flight := [{ mb := 5, opcode := 0x902, seq := 3, kind := .replay, takenAt := 0 }] } }
def lg : LogEntry := { seq := 4, tick := 0, aonMs := 0, boot := 1, type := 0x60, severity := 0, part := 4, data := [5] }
def ds : State := { rs with faults := { rs.faults with store := [lg], buffer := [lg] }, boot := { rs.boot with holdupValid := true, holdupUf := 100000 }, fab := { classes := [(1,4)], lpt := [0x80, 0x81] }, sess := { rs.sess with parts := [(0, {wPart .running with jobs := [5] })] } }
def da (op p params) := opAsk op p params

theorem witness_HangDetectorsFence_1 : ∃ (t : Nat) (p : Nat) (c : Nat) (u : Nat) (i : Nat) (ch : Nat) (s : State) (x : Instr),
    boundaryDue (s.clock t) = true ∧ p < 4 ∧ (x = .sheafHung t p ∧ sheafHung s p = true ∨ x = .sequencerWatchdog t c ∧ c < 1152
    ∧ partOfCore c = p ∧ queueHung (coreOf s c) = true ∨ x = .engineStall t u i ∧ u ∈ [1, 2, 3, 5, 6] ∧ i < 288 ∧ partOfTile i =
    p ∧ unitHung (s.clock t) i u = true ∨ x = .engineStall t 7 i ∧ i < 12 ∧ partOfStack i = p ∧ glnHung s i = true ∨ x =
    .wainStall t ch ∧ ch < 1024 ∧ partOfChan ch = p ∧ chanHung s ch = true) ∧ (pstate s p = .running ∨ pstate s p = .assigned)
    := by
  refine ⟨1000, 0, 3, 1, 5, 5, (hb .running), (.sheafHung 1000 0), ?_, ?_,
    (by (first | refine .inl ⟨rfl, ?_⟩ | refine .inr (.inl ⟨rfl, ?_⟩) | refine .inr (.inr (.inl ⟨rfl, ?_⟩)) | refine .inr (.inr (.inr (.inl ⟨rfl, ?_⟩))) | refine .inr (.inr (.inr (.inr ⟨rfl, ?_⟩)))) <;> decide +kernel),
    ?_⟩ <;> first | with_reducible rfl | decide +kernel

theorem witness_HangDetectorsFence_2 : ∃ (t : Nat) (p : Nat) (c : Nat) (u : Nat) (i : Nat) (ch : Nat) (s : State) (x : Instr),
    boundaryDue (s.clock t) = true ∧ p < 4 ∧ (x = .sheafHung t p ∧ sheafHung s p = true ∨ x = .sequencerWatchdog t c ∧ c < 1152
    ∧ partOfCore c = p ∧ queueHung (coreOf s c) = true ∨ x = .engineStall t u i ∧ u ∈ [1, 2, 3, 5, 6] ∧ i < 288 ∧ partOfTile i =
    p ∧ unitHung (s.clock t) i u = true ∨ x = .engineStall t 7 i ∧ i < 12 ∧ partOfStack i = p ∧ glnHung s i = true ∨ x =
    .wainStall t ch ∧ ch < 1024 ∧ partOfChan ch = p ∧ chanHung s ch = true) ∧ pstate s p ≠ .running ∧ pstate s p ≠ .assigned :=
    by
  refine ⟨1000, 0, 3, 1, 5, 5, (hb .failed), (.sheafHung 1000 0), ?_, ?_,
    (by (first | refine .inl ⟨rfl, ?_⟩ | refine .inr (.inl ⟨rfl, ?_⟩) | refine .inr (.inr (.inl ⟨rfl, ?_⟩)) | refine .inr (.inr (.inr (.inl ⟨rfl, ?_⟩))) | refine .inr (.inr (.inr (.inr ⟨rfl, ?_⟩)))) <;> decide +kernel),
    ?_, ?_⟩ <;> first | with_reducible rfl | decide +kernel

theorem witness_FenceEnds_1 : ∃ (t : Nat) (p : Nat) (s : State) (f : Fence), p < 4 ∧ fenceOf s p = some f ∧ f.drainEnd = none ∧
    f.start + 100000 ≤ max s.now t ∧ (cellarOf s p).buf.any (·.dirty) = false ∧ f.cause = 8 := by
  refine ⟨200000, 0, (fs F8), F8, ?_, ?_, ?_, ?_, ?_, ?_⟩ <;> first | with_reducible rfl | decide +kernel

theorem witness_FenceEnds_2 : ∃ (t : Nat) (p : Nat) (s : State) (f : Fence), p < 4 ∧ fenceOf s p = some f ∧ f.drainEnd = none ∧
    f.start + 100000 ≤ max s.now t ∧ (cellarOf s p).buf.any (·.dirty) = false ∧ f.cause = 9 := by
  refine ⟨200000, 0, (fs { F8 with cause := 9 }), { F8 with cause := 9 }, ?_, ?_, ?_, ?_, ?_, ?_⟩
    <;> first | with_reducible rfl | decide +kernel

theorem witness_FenceEnds_3 : ∃ (t : Nat) (p : Nat) (s : State) (f : Fence), p < 4 ∧ fenceOf s p = some f ∧ f.drainEnd = none ∧
    f.start + 100000 ≤ max s.now t ∧ (cellarOf s p).buf.any (·.dirty) = false ∧ f.cause ≠ 8 ∧ f.cause ≠ 9 ∧ s.mbx.headless =
    false ∧ workingStack s p ≠ none := by
  refine ⟨200000, 0, (fs { F8 with cause := 3 }), { F8 with cause := 3 }, ?_, ?_, ?_, ?_, ?_, ?_, ?_, ?_, ?_⟩
    <;> first | with_reducible rfl | decide +kernel

theorem witness_FenceEnds_4 : ∃ (t : Nat) (p : Nat) (s : State) (f : Fence), p < 4 ∧ fenceOf s p = some f ∧ f.drainEnd = none ∧
    f.start + 100000 ≤ max s.now t ∧ (cellarOf s p).buf.any (·.dirty) = false ∧ f.cause ≠ 8 ∧ f.cause ≠ 9 ∧ (s.mbx.headless =
    true ∨ workingStack s p = none) ∧ (∀ x ∈ s.mbx.flight, x.kind ≠ .partReset) := by
  refine ⟨200000, 0, { (fs { F8 with cause := 3 }) with stks := (List.range 3).map (fun k => (k, { failed := true })) },
    { F8 with cause := 3 }, ?_, ?_, ?_, ?_, ?_, ?_, ?_, ?_, ?_⟩ <;> first | with_reducible rfl | decide +kernel

theorem witness_FenceEnds_5 : ∃ (p : Nat) (s : State) (f : Fence), p < 4 ∧ fenceOf s p = some f ∧ f.drainEnd ≠ none ∧ f.complete
    = false ∧ serving s = true ∧ (∀ x ∈ s.mbx.flight, x.kind ≠ .partReset) := by
  refine ⟨0, (fs { F8 with cause := 3, drainEnd := some 150000 }), { F8 with cause := 3, drainEnd := some 150000 }, ?_, ?_,
    ?_, ?_, ?_, ?_⟩ <;> first | with_reducible rfl | decide +kernel

theorem witness_ReplayRuns_1 : ∃ (t : Nat) (a : MbxArgs) (s : State) (r : Req) (m : Sample) (v : Replay), 1 ≤ r.f 0 16 ∧ r.f 0
    16 ≤ 10000 ∧ mfind s.faults.samples r.part = some m ∧ (fenceOf s r.part).map (·.complete) = some true ∧ replaying s r.part =
    false ∧ Accepts (s.clock t) a
    { opcode := 0x0902, rights := 3, pkg := .uc, partUse := .one, parts := some [.fenced], resp := 8 } {} r ∧ v =
    { suspects := suspectsOf r.part m, ms := r.f 0 16, startedAt := max s.now t } := by
  refine ⟨0, ra, rs, (asked rs ra), smp, (rv rs 0), ?_, ?_, ?_, ?_, ?_, ⟨?_, ?_, ?_⟩, ?_⟩
    <;> first | with_reducible rfl | decide +kernel

theorem witness_ReplayRuns_2 : ∃ (t : Nat) (p : Nat) (s : State) (v : Replay) (e : Nat × Nat), mfind s.faults.replays p = some v
    ∧ v.suspects[v.next]? = some e ∧ suspectEnded (s.clock t) p e = false ∧ v.startedAt + 1000000 * v.ms ≤ max s.now t := by
  refine ⟨6000000, 0, (rs2 0), (rv rs 0), ((suspectsOf 0 smp).headD (0,0)), ?_, ?_, ?_, ?_⟩
    <;> first | with_reducible rfl | decide +kernel

theorem witness_ReplayRuns_3 : ∃ (t : Nat) (p : Nat) (s : State) (v : Replay) (e : Nat × Nat), mfind s.faults.replays p = some v
    ∧ v.suspects[v.next]? = some e ∧ suspectEnded (s.clock t) p e = true := by
  refine ⟨6000, 0, { rs2 0 with cores := [] }, (rv rs 0), ((suspectsOf 0 smp).headD (0,0)), ?_, ?_, ?_⟩
    <;> first | with_reducible rfl | decide +kernel

theorem witness_ReplayRuns_4 : ∃ (p : Nat) (s : State) (v : Replay), mfind s.faults.replays p = some v ∧ v.suspects.length ≤
    v.next := by
  refine ⟨0, (rs2 1), (rv rs 1), ?_, ?_⟩ <;> first | with_reducible rfl | decide +kernel

theorem witness_DiagnosticCommandsAct_1 : ∃ (t : Nat) (mv : Nat) (a : MbxArgs) (s : State) (r : Req) (n : Nat), (n = min (min
    r.respMax (if r.ploc = 0 ∧ r.mb ≠ 5 then 32 else if r.ploc = 1 then 4096 else 2 ^ 28 - 1)) (64 + 64 * s.faults.store.length
    - r.f 0 32)) ∧ Accepts (s.clock t) a { opcode := 0x0900, rights := 1, pkg := .any, partUse := .pkg } { resp := some n } r ∧
    serving s = true ∧ s.faults.buffer ≠ [] ∧ s.fw.heldOp = none ∧ s.faults.store.length + s.faults.buffer.length ≤ 262144 ∧
    energyOk s mv programMJ = true := by
  refine ⟨0, 50000, (da 0x900 4 32), ds, (asked ds (da 0x900 4 32)), 96, ?_, ⟨?_, ?_, ?_⟩, ?_, ?_, ?_, ?_, ?_⟩
    <;> first | with_reducible rfl | decide +kernel

theorem witness_DiagnosticCommandsAct_2 : ∃ (t : Nat) (mv : Nat) (a : MbxArgs) (s : State) (r : Req) (m : Sample) (n : Nat),
    mfind s.faults.samples r.part = some m ∧ (n = min (min r.respMax (if r.ploc = 0 ∧ r.mb ≠ 5 then 32 else if r.ploc = 1 then
    4096 else 2 ^ 28 - 1)) ((sampleOffsets m).2.2.2 - r.f 0 32)) ∧ Accepts (s.clock t) a
    { opcode := 0x0901, rights := 3, pkg := .uc, partUse := .one, parts := some [.assigned, .running, .fenced, .failed, .dormant] }
    { resp := some n } r ∧ serving s = true ∧ s.faults.buffer ≠ [] ∧ s.fw.heldOp = none ∧ s.faults.store.length +
    s.faults.buffer.length ≤ 262144 ∧ energyOk s mv programMJ = false := by
  refine ⟨0, 36000, (da 0x901 0 0x490000), ds, (asked ds (da 0x901 0 0x490000)), smp, (min (2^28-1) ((sampleOffsets smp).2.2.2 -
    0x490000)), ?_, ?_, ⟨?_, ?_, ?_⟩, ?_, ?_, ?_, ?_, ?_⟩ <;> first | with_reducible rfl | decide +kernel

theorem witness_DiagnosticCommandsAct_3 : ∃ (t : Nat) (a : MbxArgs) (s : State) (r : Req), Accepts (s.clock t) a
    { opcode := 0x0903, rights := 1, pkg := .any, partUse := .pkg, resp := 12352 } {} r := by
  refine ⟨0, (da 0x903 4 32), ds, (asked ds (da 0x903 4 32)), ⟨?_, ?_, ?_⟩⟩ <;> first | with_reducible rfl | decide +kernel

theorem witness_DiagnosticCommandsAct_4 : ∃ (t : Nat) (a : MbxArgs) (s : State) (r : Req), r.f 0 16 ≠ 0 ∧ (r.tenant = true → r.f
    0 16 ∈ (partOf s r.part).jobs) ∧ Accepts (s.clock t) a { opcode := 0x0904, rights := 3, pkg := .c, partUse := .free } {} r
    := by
  refine ⟨0, (da 0x904 4 5), ds, (asked ds (da 0x904 4 5)), ?_, ?_, ⟨?_, ?_, ?_⟩⟩ <;> first | with_reducible rfl | decide +kernel

end Sys2Proof.Tests.C20

/-! ## Witnesses: 21 firmware -/

namespace Sys2Proof.Tests.C21
open Sys2Proof.Machine

def fwHdr (sec ver : Nat) : List Byte :=
  leBytes 512 (packBits ([(0x31465847, 32), (1, 8), (sec, 8), (0, 16), (ver, 32), (5745, 32), (1022, 32), (0, 352)] ++
    (List.range 5).flatMap (fun k => [(k + 1, 8), (512 + 100 * k, 32), (100, 32), (0, 384), (0, 56)])))
def fwAsk (sec ver : Nat) : MbxArgs :=
  { mb := 5, slot := reqSlot 0xA00 4 5745 0 (2 ^ 28 - 1) 0, data := fwHdr sec ver }
def fwS (fw : Fw) (h : Bool := true) : State := { inService [(0, wPart .running)] with
   fw := fw, boot := { stage := some 8, holdupValid := h, holdupUf := 12500 }, fuses := { secCounter := 7 } }
def st1 (b : Nat) (op : Bool) (held : Option (Nat × Nat × Nat) := none) : State := let s := fwS { runningVersion := 40, updateState := 1, stagedSec := 8, stagedVersion := 41, stagedBytes := b, stagedLen := 5745, norOp := op, heldOp := held }
  { s with mbx := { s.mbx with flight := [{ mb := 5, opcode := 0xA00, seq := 3, kind := .fwStage, takenAt := 0 }] } }
def sw (u : Nat) (near : Bool := false) : State := let s := fwS { runningVersion := 40, updateState := u, slotB := { state := .staged, version := 41, secVersion := 8 }, activateTick := 77 }
  { s with tick := { countValid := true, count := 5, due := none }, sess := { s.sess with staged := [⟨some (if near then 6 else 77), 0, .fwActivate⟩] }, evt := { pins := [(2, {level := true})] } }
def tr (_ : Nat) : State := let s := sw 4; { s with fw := { s.fw with running := 1, trial := some 1, windowEnd := some 900 } }
def trb (_ : Nat) : State := { tr 0 with boot := { (tr 0).boot with coldRstN := true } }

theorem witness_FirmwareStages_1 : ∃ (mv : Nat) (h : Nat) (k : Nat) (s : State) (r : Req), h = leNat (r.payload.take 512) ∧ k =
    1 - s.fw.running ∧ serving s = true ∧ s.fw.updateState = 1 ∧ (∃ f ∈ s.mbx.flight, f.kind = .fwStage) ∧ s.fw.stagedLen ≤
    s.fw.stagedBytes ∧ s.fw.heldOp = none ∧ energyOk s mv 4000 = true := by
  refine ⟨48000, (leNat (fwHdr 8 41)), 1, (st1 5745 false), (asked (st1 0 true) (fwAsk 8 41)), ?_, ?_, ?_, ?_, ?_, ?_, ?_, ?_⟩
    <;> first | with_reducible rfl | decide +kernel

theorem witness_FirmwareStages_2 : ∃ (t : Nat) (mv : Nat) (h : Nat) (k : Nat) (a : MbxArgs) (s : State) (r : Req), h = leNat
    (r.payload.take 512) ∧ k = 1 - s.fw.running ∧ (r.ploc = 2 ∨ r.mb = 5) ∧ headerBad h r.len = false ∧ r.len ≤ 50331648 ∧
    s.fw.updateState ≠ 1 ∧ s.fw.updateState ≠ 3 ∧ s.fw.updateState ≠ 4 ∧ (Accepts (s.clock t) a
    { opcode := 0x0A00, rights := 1, pkg := .uc, partUse := .pkg, lenOk := fun _ => true } {} r) ∧ s.fuses.secCounter ≤ bits h
    40 8 ∧ s.fw.runningVersion ≤ bits h 64 32 ∧ energyOk s mv 4000 = true := by
  refine ⟨5, 48000, (leNat (fwHdr 8 41)), 1, (fwAsk 8 41), (fwS { runningVersion := 40}), (asked ((fwS
    { runningVersion := 40}).clock 5) (fwAsk 8 41)), ?_, ?_, ?_, ?_, ?_, ?_, ?_, ?_, ⟨next_asked (by decide +kernel), ?_, ?_⟩,
    ?_, ?_, ?_⟩ <;> first | with_reducible rfl | decide +kernel

theorem witness_FirmwareStages_3 : ∃ (t : Nat) (h : Nat) (k : Nat) (a : MbxArgs) (s : State) (r : Req), h = leNat
    (r.payload.take 512) ∧ k = 1 - s.fw.running ∧ (r.ploc = 2 ∨ r.mb = 5) ∧ headerBad h r.len = false ∧ r.len ≤ 50331648 ∧
    s.fw.updateState ≠ 1 ∧ s.fw.updateState ≠ 3 ∧ s.fw.updateState ≠ 4 ∧ (Accepts (s.clock t) a
    { opcode := 0x0A00, rights := 1, pkg := .uc, partUse := .pkg, lenOk := fun _ => true } {} r) ∧ (bits h 40 8 <
    s.fuses.secCounter ∨ bits h 64 32 < s.fw.runningVersion) := by
  refine ⟨5, (leNat (fwHdr 8 40)), 0, (fwAsk 8 40), (fwS { runningVersion := 41, running := 1}), (asked ((fwS
    { runningVersion := 41, running := 1}).clock 5) (fwAsk 8 40)), ?_, ?_, ?_, ?_, ?_, ?_, ?_, ?_,
    ⟨next_asked (by decide +kernel), ?_, ?_⟩, ?_⟩ <;> first | with_reducible rfl | decide +kernel

theorem witness_FirmwareStages_4 : ∃ (mv : Nat) (n : Nat) (h : Nat) (k : Nat) (s : State) (r : Req), h = leNat (r.payload.take
    512) ∧ k = 1 - s.fw.running ∧ s.fw.norOp = true ∧ serving s = true ∧ n ≤ 256 ∧ s.fw.stagedBytes + n < s.fw.stagedLen ∧
    (slotOf s k).state = .empty ∧ (energyOk s mv (if s.fw.stagedBytes + n = 0 then 4000 else 12) = true) := by
  refine ⟨48000, 256, (leNat (fwHdr 8 41)), 1, (st1 0 true), (asked (st1 0 true) (fwAsk 8 41)), ?_, ?_, ?_, ?_, ?_, ?_, ?_, ?_⟩
    <;> first | with_reducible rfl | decide +kernel

theorem witness_FirmwareStages_5 : ∃ (mv : Nat) (n : Nat) (h : Nat) (k : Nat) (s : State) (r : Req), h = leNat (r.payload.take
    512) ∧ k = 1 - s.fw.running ∧ s.fw.norOp = true ∧ serving s = true ∧ n ≤ 256 ∧ s.fw.stagedBytes + n < s.fw.stagedLen ∧
    (slotOf s k).state = .empty ∧ (energyOk s mv (if s.fw.stagedBytes + n = 0 then 4000 else 12) = false) ∧ s.fw.heldOp = none
    := by
  refine ⟨36000, 256, (leNat (fwHdr 8 41)), 1, (st1 0 true), (asked (st1 0 true) (fwAsk 8 41)), ?_, ?_, ?_, ?_, ?_, ?_, ?_, ?_,
    ?_⟩ <;> first | with_reducible rfl | decide +kernel

theorem witness_FirmwareStages_6 : ∃ (n : Nat) (h : Nat) (k : Nat) (s : State) (r : Req), h = leNat (r.payload.take 512) ∧ k = 1
    - s.fw.running ∧ s.fw.norOp = true ∧ serving s = true ∧ n ≤ 256 ∧ s.fw.stagedLen ≤ s.fw.stagedBytes + n := by
  refine ⟨256, (leNat (fwHdr 8 41)), 1, (st1 5500 true), (asked (st1 0 true) (fwAsk 8 41)), ?_, ?_, ?_, ?_, ?_, ?_⟩
    <;> first | with_reducible rfl | decide +kernel

theorem witness_FirmwareStages_7 : ∃ (t : Nat) (mv : Nat) (h : Nat) (k : Nat) (what : Nat) (since : Nat) (last : Nat) (s :
    State) (r : Req), h = leNat (r.payload.take 512) ∧ k = 1 - s.fw.running ∧ s.fw.heldOp = some (what, since, last) ∧ last +
    100000000 ≤ max s.now t ∧ serving s = true ∧ energyOk s mv (heldNeed s what) = true := by
  refine ⟨100000005, 48000, (leNat (fwHdr 8 41)), 1, 0, 5, 5, (st1 256 false (some (0,5,5))), (asked (st1 0 true) (fwAsk 8 41)),
    ?_, ?_, ?_, ?_, ?_, ?_⟩ <;> first | with_reducible rfl | decide +kernel

theorem witness_FirmwareStages_8 : ∃ (t : Nat) (mv : Nat) (h : Nat) (k : Nat) (what : Nat) (since : Nat) (last : Nat) (s :
    State) (r : Req), h = leNat (r.payload.take 512) ∧ k = 1 - s.fw.running ∧ s.fw.heldOp = some (what, since, last) ∧ last +
    100000000 ≤ max s.now t ∧ serving s = true ∧ energyOk s mv (heldNeed s what) = false ∧ max s.now t < since + 10000000000 :=
    by
  refine ⟨100000005, 36000, (leNat (fwHdr 8 41)), 1, 0, 5, 5, (st1 256 false (some (0,5,5))), (asked (st1 0 true) (fwAsk 8 41)),
    ?_, ?_, ?_, ?_, ?_, ?_, ?_⟩ <;> first | with_reducible rfl | decide +kernel

theorem witness_FirmwareStages_9 : ∃ (t : Nat) (mv : Nat) (h : Nat) (k : Nat) (what : Nat) (since : Nat) (last : Nat) (s :
    State) (r : Req), h = leNat (r.payload.take 512) ∧ k = 1 - s.fw.running ∧ s.fw.heldOp = some (what, since, last) ∧ last +
    100000000 ≤ max s.now t ∧ serving s = true ∧ energyOk s mv (heldNeed s what) = false ∧ since + 10000000000 ≤ max s.now t :=
    by
  refine ⟨10000000005, 36000, (leNat (fwHdr 8 41)), 1, 0, 5, 5, (st1 256 false (some (0,5,5))), (asked (st1 0 true) (fwAsk 8 41)),
    ?_, ?_, ?_, ?_, ?_, ?_, ?_⟩ <;> first | with_reducible rfl | decide +kernel

theorem witness_FirmwareSwitches_1 : ∃ (t : Nat) (k : Nat) (a : MbxArgs) (s : State) (r : Req), k = 1 - s.fw.running ∧ (mget {}
    s.evt.pins 2).level = true ∧ s.boot.coldRstN = true ∧ s.boot.pgLost = false ∧ Accepts (s.clock t) a
    { opcode := 0x0A04, rights := 5, pkg := .any, partUse := .pkg, resp := 32 } {} r := by
  refine ⟨1000, 0, (opAsk 0xA04 4 0), (trb 0), (asked (sw 2) (opAsk 0xA04 4 0)), ?_, ?_, ?_, ?_, ⟨?_, ?_, ?_⟩⟩
    <;> first | with_reducible rfl | decide +kernel

theorem witness_FirmwareSwitches_2 : ∃ (t : Nat) (k : Nat) (a : MbxArgs) (s : State) (r : Req), k = 1 - s.fw.running ∧
    s.fw.updateState = 2 ∧ tickBad (s.clock t) (r.f 0 64) = false ∧ tickWrong (s.clock t) (r.f 0 64) = false ∧
    s.sess.staged.length < 64 ∧ Accepts (s.clock t) a { opcode := 0x0A01, rights := 1, pkg := .c, partUse := .pkg, resp := 8 }
    {} r := by
  refine ⟨5, 1, (opAsk 0xA01 4 50), { sw 2 with sess := { (sw 2).sess with staged := []} }, (asked (sw 2) (opAsk 0xA01 4 50)),
    ?_, ?_, ?_, ?_, ?_, ⟨?_, ?_, ?_⟩⟩ <;> first | with_reducible rfl | decide +kernel

theorem witness_FirmwareSwitches_3 : ∃ (t : Nat) (k : Nat) (a : MbxArgs) (s : State) (r : Req), k = 1 - s.fw.running ∧
    s.fw.updateState = 3 ∧ activationNear (s.clock t) = false ∧ Accepts (s.clock t) a
    { opcode := 0x0A02, rights := 1, pkg := .uc, partUse := .pkg } {} r := by
  refine ⟨5, 1, (opAsk 0xA02 4 0), (sw 3), (asked (sw 2) (opAsk 0xA02 4 0)), ?_, ?_, ?_, ⟨?_, ?_, ?_⟩⟩
    <;> first | with_reducible rfl | decide +kernel

theorem witness_FirmwareSwitches_4 : ∃ (t : Nat) (k : Nat) (a : MbxArgs) (s : State) (r : Req), k = 1 - s.fw.running ∧
    s.fw.updateState = 3 ∧ activationNear (s.clock t) = true ∧ Accepts (s.clock t) a
    { opcode := 0x0A02, rights := 1, pkg := .uc, partUse := .pkg } {} r := by
  refine ⟨199000, 1, (opAsk 0xA02 4 0), (sw 3 true), (asked (sw 2) (opAsk 0xA02 4 0)), ?_, ?_, ?_, ⟨?_, ?_, ?_⟩⟩
    <;> first | with_reducible rfl | decide +kernel

theorem witness_FirmwareSwitches_5 : ∃ (t : Nat) (mv : Nat) (k : Nat) (burnOk : Bool) (a : MbxArgs) (s : State) (r : Req), k = 1
    - s.fw.running ∧ s.fw.trial ≠ none ∧ s.fw.updateState = 4 ∧ (∀ f ∈ s.mbx.flight, f.kind ≠ .storeWait) ∧ Accepts (s.clock t)
    a { opcode := 0x0A03, rights := 1, pkg := .uc, partUse := .pkg } {} r ∧ energyOk s mv 4000 = true ∧ (burnOk = true ∨ (slotOf
    s s.fw.running).secVersion ≤ s.fuses.secCounter) := by
  refine ⟨5, 48000, 0, true, (opAsk 0xA03 4 0), (tr 0), (asked (sw 2) (opAsk 0xA03 4 0)), ?_, ?_, ?_, ?_, ⟨?_, ?_, ?_⟩, ?_, ?_⟩
    <;> first | with_reducible rfl | decide +kernel

theorem witness_FirmwareSwitches_6 : ∃ (t : Nat) (mv : Nat) (k : Nat) (burnOk : Bool) (a : MbxArgs) (s : State) (r : Req), k = 1
    - s.fw.running ∧ s.fw.trial ≠ none ∧ s.fw.updateState = 4 ∧ (∀ f ∈ s.mbx.flight, f.kind ≠ .storeWait) ∧ Accepts (s.clock t)
    a { opcode := 0x0A03, rights := 1, pkg := .uc, partUse := .pkg } {} r ∧ energyOk s mv 4000 = true ∧ burnOk = false ∧
    s.fuses.secCounter < (slotOf s s.fw.running).secVersion := by
  refine ⟨5, 48000, 0, false, (opAsk 0xA03 4 0), (tr 0), (asked (sw 2) (opAsk 0xA03 4 0)), ?_, ?_, ?_, ?_, ⟨?_, ?_, ?_⟩, ?_, ?_,
    ?_⟩ <;> first | with_reducible rfl | decide +kernel

theorem witness_FirmwareSwitches_7 : ∃ (t : Nat) (mv : Nat) (k : Nat) (a : MbxArgs) (s : State) (r : Req), k = 1 - s.fw.running
    ∧ s.fw.trial ≠ none ∧ s.fw.updateState = 4 ∧ (∀ f ∈ s.mbx.flight, f.kind ≠ .storeWait) ∧ Accepts (s.clock t) a
    { opcode := 0x0A03, rights := 1, pkg := .uc, partUse := .pkg } {} r ∧ energyOk s mv 4000 = false ∧ s.fw.heldOp = none := by
  refine ⟨5, 38000, 0, (opAsk 0xA03 4 0), (tr 0), (asked (sw 2) (opAsk 0xA03 4 0)), ?_, ?_, ?_, ?_, ⟨?_, ?_, ?_⟩, ?_, ?_⟩
    <;> first | with_reducible rfl | decide +kernel

end Sys2Proof.Tests.C21

/-! ## Witnesses: 22 pins -/

namespace Sys2Proof.Tests.C22
open Sys2Proof.Machine



theorem witness_PartStatePinsFollow_1 : ∃ (s : State) (p : Nat), p < 4 ∧ s.boot.stage = some 8 ∧ s.boot.poweredOff = false ∧
    pstate s p = .free := by
  refine ⟨(inService [(0, wPart .free)]), 0, ?_, ?_, ?_, ?_⟩ <;> first | with_reducible rfl | decide +kernel

theorem witness_PartStatePinsFollow_2 : ∃ (s : State) (p : Nat), p < 4 ∧ s.boot.stage = some 8 ∧ s.boot.poweredOff = false ∧
    (pstate s p = .assigned ∨ pstate s p = .running) := by
  refine ⟨(inService [(0, wPart .running)]), 0, ?_, ?_, ?_, ?_⟩ <;> first | with_reducible rfl | decide +kernel

theorem witness_PartStatePinsFollow_3 : ∃ (s : State) (p : Nat), p < 4 ∧ s.boot.stage = some 8 ∧ s.boot.poweredOff = false ∧
    pstate s p = .winnowing := by
  refine ⟨(inService [(0, wPart .winnowing)]), 0, ?_, ?_, ?_, ?_⟩ <;> first | with_reducible rfl | decide +kernel

theorem witness_PartStatePinsFollow_4 : ∃ (s : State) (p : Nat), p < 4 ∧ s.boot.stage = some 8 ∧ s.boot.poweredOff = false ∧
    pstate s p ∈ [.fenced, .resetting, .failed, .dormant] := by
  refine ⟨(inService [(3, wPart .dormant)]), 3, ?_, ?_, ?_, ?_⟩ <;> first | with_reducible rfl | decide +kernel

theorem witness_PartStatePinsFollow_5 : ∃ (s : State) (p : Nat), p < 4 ∧ s.boot.stage ≠ some 8 := by
  refine ⟨State.reset, 3, ?_, ?_⟩ <;> first | with_reducible rfl | decide +kernel

theorem witness_PartStatePinsFollow_6 : ∃ (s : State) (p : Nat), p < 4 ∧ s.boot.poweredOff = true := by
  refine ⟨{ State.reset with boot := { stage := some 8, poweredOff := true } }, 1, ?_, ?_⟩
    <;> first | with_reducible rfl | decide +kernel

end Sys2Proof.Tests.C22
end

section
/-!
PROOFS, family 02 frame tick. What a firmware activation does to the staged changes and to the AON island (21 R498), and what a
TICK_BOUNDARY at a boundary that is due comes to (02 R44, R45).
-/
namespace Sys2Proof.Machine

/-! ## The restart of the package (18 R416) -/

/-- The start of S0 writes the bring-up record and the fault log only: an observer blind to both sees no change. -/
theorem tryStartS0_keeps {α : Type} {g : State → α} (h : ∀ s b f, g { s with boot := b, faults := f } = g s) (s : State) :
    g (tryStartS0 s) = g s := by
  simp only [tryStartS0]
  split
  · exact h s _ _
  · rfl

@[simp] theorem tryStartS0_sess (s : State) : (tryStartS0 s).sess = s.sess :=
  tryStartS0_keeps (g := State.sess) (fun _ _ _ => rfl) s
@[simp] theorem tryStartS0_fw (s : State) : (tryStartS0 s).fw = s.fw :=
  tryStartS0_keeps (g := State.fw) (fun _ _ _ => rfl) s

@[simp] theorem aonReset_sess (s : State) (kind : Nat) : (aonReset s kind).sess = {} := rfl
@[simp] theorem aonReset_trial (s : State) (kind : Nat) : (aonReset s kind).fw.trial = s.fw.trial := rfl
@[simp] theorem aonReset_windowEnd (s : State) (kind : Nat) : (aonReset s kind).fw.windowEnd = s.fw.windowEnd := rfl

/-! ## Activation (21 R498) -/

/-- No session, staged change or binding outlives an activation. -/
@[simp] theorem activate_sess (s : State) : (activate s).sess = {} := by
  simp only [activate, tryStartS0_sess, aonReset_sess]

@[simp] theorem activate_trial (s : State) : (activate s).fw.trial = some (1 - s.fw.running) := by
  simp only [activate, otherSlot, tryStartS0_fw, aonReset_trial, faultLog_fw]

/-- The window lasts FW_CONFIRM_MIN minutes from the activation. -/
@[simp] theorem activate_windowEnd (s : State) :
    (activate s).fw.windowEnd = some (s.now + 60000000000 * cfg s 0x70 4) := by
  simp only [activate, tryStartS0_fw, aonReset_windowEnd, faultLog_fw]

/-! ## The boundary (02 R44, R45) -/

/-- At a boundary that is due, TICK_BOUNDARY is that boundary's steps. -/
theorem tickBoundary_gives_boundary {t b : Nat} {causes : List Nat} {s : State} (hdue : s.tick.due = some b)
    (hrun : s.tick.running = true) (hhalt : s.tick.state ≠ .halted) (hb : b ≤ max s.now t) :
    Gives (.tickBoundary t causes) s (Settled t s (boundary (s.clock t) b causes)) := by
  have hgate : ((s.clock t).tick.running && (s.clock t).tick.state != .halted && decide (b ≤ (s.clock t).now)) = true := by
    simp only [clock_tick, clock_now, Bool.and_eq_true, bne_iff_ne]
    exact ⟨⟨hrun, hhalt⟩, decide_eq_true hb⟩
  have hexec : exec (.tickBoundary t causes) s = execTickBoundary t causes s := rfl
  rw [Gives, hexec, execTickBoundary, run_eq]
  simp only [clock_tick, hdue] at hgate ⊢
  rw [hgate, gate_true]
  rfl

/-- An activation due after steps 1 and 2 is all that is left of the boundary. -/
theorem boundary_of_activationDue {s : State} {b : Nat} {causes : List Nat}
    (h : activationDue b s.tick.countValid (step2 (step1 s b causes) (b - s.tick.prev)) = true) :
    boundary s b causes = activate (step2 (step1 s b causes) (b - s.tick.prev)) := by
  rw [boundary, if_pos h]

/-- Settles O8: the boundary is the activation alone, and the AON island's reset clears the session state with what is staged
in it but keeps the trial target and the window that the activation sets. -/
theorem activationEndsTheBoundary : Obligations.ActivationEndsTheBoundary := by
  intro t b causes s s2 hdue hrun hhalt hb hs2 hact
  subst hs2
  refine ⟨?_, ?_, ?_, activate_trial _, ?_⟩
  · have hgives := tickBoundary_gives_boundary (causes := causes) hdue hrun hhalt hb
    rwa [boundary_of_activationDue (s := s.clock t) hact] at hgives
  · rw [activate_sess]
  · rw [activate_sess]
  · rw [activate_windowEnd]
    exact Option.some_ne_none _

end Sys2Proof.Machine
end

section
/-!
PROOFS, family 03 number formats. How the matrix unit reads a T2 block: the base-3 digits of its bytes and its scale byte
(03 R61, R62).
-/
namespace Sys2Proof.Machine

/-! ## The digits of a byte (03 R61) -/

/-- The value that five base-3 digits, lowest first, give a byte (03 R61). -/
def t2Value (x : Nat → Nat) : Nat := x 0 + 3 * x 1 + 9 * x 2 + 27 * x 3 + 81 * x 4

/-- Five digits below 3 give a byte that is no invalid code (03 R62). -/
theorem t2Value_lt {x : Nat → Nat} (hx : ∀ i < 5, x i < 3) : t2Value x < 243 := by
  have h0 := hx 0; have h1 := hx 1; have h2 := hx 2; have h3 := hx 3; have h4 := hx 4
  rw [t2Value]
  omega

/-- Dividing by a power of 3 takes the digits of a byte apart again. -/
theorem t2Value_digit {x : Nat → Nat} (hx : ∀ i < 5, x i < 3) {i : Nat} (hi : i < 5) : t2Value x / 3 ^ i % 3 = x i := by
  have h0 := hx 0; have h1 := hx 1; have h2 := hx 2; have h3 := hx 3; have h4 := hx 4
  rw [t2Value]
  obtain rfl | rfl | rfl | rfl | rfl : i = 0 ∨ i = 1 ∨ i = 2 ∨ i = 3 ∨ i = 4 := by omega
  all_goals omega

/-- The decoder reads digit `i` of a byte as one less than it (03 R61). -/
theorem t2Digit_t2Value {x : Nat → Nat} (hx : ∀ i < 5, x i < 3) {i : Nat} (hi : i < 5) :
    t2Digit (t2Value x) i = (x i : Int) - 1 := by
  rw [t2Digit, if_neg (Nat.not_le.mpr (t2Value_lt hx)), t2Value_digit hx hi]

/-! ## The elements and flags of a block -/

/-- The element a digit stands for: 0 for -1, 1 for 0 and 2 for +1 (03 R61). -/
def t2Element : Nat → FVal
  | 0 => .fin true 1 0
  | 1 => .fin false 0 0
  | _ => .fin false 1 0

theorem t2Element_eq {x : Nat} (hx : x < 3) :
    t2Element x = .fin (decide ((x : Int) - 1 < 0)) ((x : Int) - 1).natAbs 0 :=
  match x, hx with
  | 0, _ => rfl
  | 1, _ => rfl
  | 2, _ => rfl

/-- Bytes 0 to 6 of a block hold the digits of a list, five to a byte. -/
def T2Holds (dg bs : List Nat) : Prop := ∀ j < 7, bs.getD j 0 = t2Value (fun i => dg.getD (5 * j + i) 0)

theorem getD_of_lt {l : List Nat} {k : Nat} (hk : k < l.length) : l.getD k 0 = l[k] := by
  rw [List.getD_eq_getElem?_getD, List.getElem?_eq_getElem hk, Option.getD_some]

theorem getD_lt_three {dg : List Nat} (hdg : ∀ x ∈ dg, x < 3) (k : Nat) : dg.getD k 0 < 3 := by
  rcases Nat.lt_or_ge k dg.length with hk | hk
  · rw [getD_of_lt hk]
    exact hdg _ (List.getElem_mem hk)
  · rw [List.getD_eq_getElem?_getD, List.getElem?_eq_none hk, Option.getD_none]
    decide

/-- Element `k` is digit `k % 5` of byte `k / 5`, which is digit `k` of the list. -/
theorem t2Digit_of_holds {dg bs : List Nat} (hdg : ∀ x ∈ dg, x < 3) (hbs : T2Holds dg bs) {k : Nat} (hk : k < 35) :
    t2Digit (bs.getD (k / 5) 0) (k % 5) = (dg.getD k 0 : Int) - 1 := by
  have hdigits : ∀ i < 5, dg.getD (5 * (k / 5) + i) 0 < 3 := fun i _ => getD_lt_three hdg _
  rw [hbs (k / 5) (by omega), t2Digit_t2Value hdigits (Nat.mod_lt k (by decide)), Nat.div_add_mod]

/-- A block's 32 elements are its first 32 digits; the unused digits of byte 6 do not matter (03 R62). -/
theorem t2Elems_of_holds {dg bs : List Nat} (hlen : 32 ≤ dg.length) (hdg : ∀ x ∈ dg, x < 3) (hbs : T2Holds dg bs) :
    t2Elems bs = (dg.take 32).map t2Element := by
  have hlength : (t2Elems bs).length = 32 := by rw [t2Elems, List.length_map, List.length_range]
  refine List.ext_getElem (by rw [hlength, List.length_map, List.length_take, Nat.min_eq_left hlen]) fun k hk _ => ?_
  have hk32 : k < 32 := hlength ▸ hk
  have hdigit := t2Digit_of_holds hdg hbs (k := k) (by omega)
  rw [getD_of_lt (Nat.lt_of_lt_of_le hk32 hlen)] at hdigit
  simp only [t2Elems, List.getElem_map, List.getElem_range, List.getElem_take, hdigit]
  exact (t2Element_eq (hdg _ (List.getElem_mem _))).symm

/-- A block whose bytes hold digits raises no flag: none of them is an invalid code (03 R62). -/
theorem t2Flags_of_holds {dg bs : List Nat} (hdg : ∀ x ∈ dg, x < 3) (hbs : T2Holds dg bs) : t2Flags bs = 0 := by
  have hvalid : ∀ b ∈ bs.take 7, b < 243 := by
    intro b hb
    obtain ⟨j, hj, rfl⟩ := List.mem_take_iff_getElem.mp hb
    rw [← getD_of_lt (by omega), hbs j (by omega)]
    exact t2Value_lt fun i _ => getD_lt_three hdg _
  have hany : (bs.take 7).any (243 ≤ ·) = false := by
    simpa only [List.any_eq_false, decide_eq_true_eq, Nat.not_le] using hvalid
  rw [t2Flags, hany]
  rfl

/-- The scale of a byte: 0xFF is NaN, every other value a power of 2 biased by 127 (03 R56). -/
theorem scaleExp_of_lt {b : Nat} (hb : b < 256) : scaleExp b = if b = 255 then none else some ((b : Int) - 127) := by
  simp only [scaleExp, Nat.mod_eq_of_lt hb, beq_iff_eq]

/-! ## The block as the matrix unit reads it -/

/-- The bytes of T2 block `g` of column `n` of B, as numbers. -/
def t2Bytes (s : State) (i d n g : Nat) : List Nat := (spadRead s i (mB d + n * mBStride d + 8 * g) 8).map (·.toNat)

theorem t2Bytes_getD (s : State) (i d n g j : Nat) :
    (t2Bytes s i d n g).getD j 0 = ((spadRead s i (mB d + n * mBStride d + 8 * g) 8).getD j 0).toNat := by
  simp only [t2Bytes, List.getD_eq_getElem?_getD, List.getElem?_map]
  cases (spadRead s i (mB d + n * mBStride d + 8 * g) 8)[j]? with
  | none => rfl
  | some b => rfl

/-- A k-group of a T2 operand is the block's elements, scale and flags, whatever the descriptor says besides. -/
theorem groupB_of_t2 {d : Nat} (hfmt : mBFmt d = 11) (s : State) (i n g : Nat) :
    groupB s i d n g = { vals := t2Elems (t2Bytes s i d n g), scale := scaleExp ((t2Bytes s i d n g).getD 7 0),
                         fl := t2Flags (t2Bytes s i d n g) } := by
  simp only [groupB, hfmt, beq_self_eq_true, if_true, t2Bytes]

/-- Settles O14: the bytes of the block hold the digits, so each element is one less than its digit, no byte is an invalid
code, and byte 7 is the scale. -/
theorem ternaryBlocksRead : Obligations.TernaryBlocksRead := by
  intro s i d n g sc dg bs hfmt hlen hdg hsc hbs hbytes hscale
  subst hbs
  have hholds : T2Holds dg (t2Bytes s i d n g) := fun j hj => (t2Bytes_getD s i d n g j).trans (hbytes j hj)
  have hvals := t2Elems_of_holds (by omega) hdg hholds
  rw [groupB_of_t2 hfmt, hvals, t2Flags_of_holds hdg hholds, t2Bytes_getD, hscale, scaleExp_of_lt hsc]
  rfl

end Sys2Proof.Machine
end

section
/-!
PROOFS, family 22 pins. What the PART_STATE outputs read before the start of S8, in Off, and in each state of a partition from S8
onward (19 R460, 22 R520, R521).
-/
namespace Sys2Proof.Machine

/-- The code that R460 gives a partition's state. -/
def partStateCode : PState → BitVec 2
  | .free => 0b00
  | .assigned | .running => 0b01
  | .winnowing => 0b10
  | .fenced | .resetting | .failed | .dormant => 0b11

/-- Before S8 (R521) and in Off (R520, as the assumption log's entry 78 reads it) the outputs do not look at the partition. -/
theorem partStatePin_of_blanked {s : State} (h : s.boot.stage ≠ some 8 ∨ s.boot.poweredOff = true) (p : Nat) :
    partStatePin s p = 0b11 := by
  have hblank : (s.boot.stage != some 8 || s.boot.poweredOff) = true := by
    simpa only [Bool.or_eq_true, bne_iff_ne] using h
  rw [partStatePin, if_pos hblank]

/-- From S8 onward, while the package is on, the outputs read the code of the partition's state (R521, R460). -/
theorem partStatePin_of_shown {s : State} (hstage : s.boot.stage = some 8) (hon : s.boot.poweredOff = false) (p : Nat) :
    partStatePin s p = partStateCode (pstate s p) := by
  have hshown : ¬ (s.boot.stage != some 8 || s.boot.poweredOff) = true := by rw [hstage, hon]; decide
  rw [partStatePin, if_neg hshown]
  cases pstate s p <;> rfl

theorem partStateCode_of_assigned_or_running {st : PState} (h : st = .assigned ∨ st = .running) :
    partStateCode st = 0b01 := by
  obtain rfl | rfl := h <;> rfl

/-- R460's last code, which the outputs before S8 and in Off read too. -/
theorem partStateCode_of_fenced_resetting_failed_or_dormant {st : PState} (h : st ∈ [PState.fenced, .resetting, .failed, .dormant]) :
    partStateCode st = 0b11 := by
  simp only [List.mem_cons, List.not_mem_nil, or_false] at h
  obtain rfl | rfl | rfl | rfl := h <;> rfl

/-- Settles O60: before S8 and in Off the outputs are blanked; otherwise they read the code of the partition's state, taken
state by state. That Off blanks them is the model's choice, entry 78 of the assumption log. -/
theorem partStatePinsFollow : Obligations.PartStatePinsFollow := by
  intro s p _
  refine ⟨fun hstage => partStatePin_of_blanked (.inl hstage) p, fun hstage hon => ?_,
    fun hoff => partStatePin_of_blanked (.inr hoff) p⟩
  rw [partStatePin_of_shown hstage hon]
  refine ⟨fun hfree => ?_, partStateCode_of_assigned_or_running, fun hwinnowing => ?_,
    partStateCode_of_fenced_resetting_failed_or_dormant⟩
  · rw [hfree]; rfl
  · rw [hwinnowing]; rfl

end Sys2Proof.Machine
end
